-- ==== Sys2Proof/Word.lean ====
section
/-! DEFINITION. Word types of the Silsar Q4 and their plainest arithmetic. -/
namespace Sys2Proof

/-- One byte. -/
abbrev Byte := BitVec 8
/-- One 32-bit code word (R64). -/
abbrev W32 := BitVec 32
/-- One 64-bit register value (R11). -/
abbrev W64 := BitVec 64
/-- Bytes in address order (R5). -/
abbrev Bytes := List (BitVec 8)

end Sys2Proof
end

