-- ==== Sys2Proof/Config.lean ====
section
/-! DEFINITION. What one implementation fixes and the free values: constants without a body, so that no proof can see them. -/
namespace Sys2Proof

/-- The FP32 value that an implementation's VRCP, VRSQ, VEXP2, VLOG2, VSIG or VTANH (by opcode) proposes for an FP32 operand;
the instruction keeps it only within the bounds of R145 and where the values are monotone (log 8). -/
opaque Config.approx : Nat → BitVec 32 → BitVec 32

/-- Free bytes: byte i of the n-th value the manual leaves open (R405, R408, R422, R470, log 8). -/
opaque Config.freeByte (n i : Nat) : BitVec 8

/-- The fabric address that is fused in this device (R475, log 13). -/
opaque Config.fabid : BitVec 16

/-- The fabric address of the switch behind a Tuinil port (R476, log 8). -/
opaque Config.switchAddr : Nat → BitVec 16

/-- Which of a port's lane groups is its worst, at the n-th drop (R443, log 8). -/
opaque Config.worstGroup : Nat → Nat

/-- The four SHA-384 measurements of this device's firmware, 192 bytes (R470, log 8). -/
opaque Config.measure : Nat → BitVec 8

/-- Byte i of an attestation's signatures over a report's first 256 bytes: Ed25519, then ML-DSA-65 (R470, log 8). -/
opaque Config.sign : Bytes → Nat → BitVec 8

/-- The doublewords of a function's PCIe configuration space that the spec does not state (R453, log 108). -/
opaque Config.cfgWord : Nat → Nat → BitVec 32

/-- T_DG of this implementation (R419). -/
def Config.tDG : Nat := 3200

/-- The most accesses, commands and entries an engine holds (R111, R243, R288, R310, R269). -/
def Config.bufEntries : Nat := 256
def Config.portStarted : Nat := 16
def Config.portHeld : Nat := 32
def Config.chCapture : Nat := 64
def Config.atomicsOut : Nat := 64

/-- Which entry a full TLB or cache set gives up, at the n-th replacement (R244, R255, log 20). -/
opaque Config.victim : Nat → Nat

/-- The frequency level at which an island keeps within a share of a power cap (R448, log 8). -/
opaque Config.levelFor : Nat → Nat

/-- Sizes of the TLBs and their limits (R255), and of the L1 in sets and ways (R244). -/
def Config.tlbCore : Nat := 64
def Config.tlbPort : Nat := 128
def Config.tlbDie : Nat := 8192
def Config.walkers : Nat := 16
def Config.missesOut : Nat := 256
def Config.l1Sets : Nat := 512
def Config.l1Ways : Nat := 8

/-- Does a tile core fail the test of a partition reset (R401)? A fact of the chip, by the number of the test. -/
opaque Config.testFails : Nat → Nat → Bool

end Sys2Proof
end

