-- ==== Sys2Proof/Machine/Num.lean ====
section
/-! DEFINITION. Numbers (02): element types, floating-point formats, rounding, conversions, flags, Silsar block float and
accumulator arithmetic. A finite value is a sign, a natural mantissa and a power of two, so every rule computes exactly. -/
namespace Sys2Proof.Machine

/-! ## Bytes and fields -/

/-- The number a list of bytes spells, low byte first (R5). -/
def leNat : Bytes → Nat
  | [] => 0
  | b :: r => b.toNat + 256 * leNat r

/-- n bytes of a number, low byte first (R5). -/
def leBytes : Nat → Nat → Bytes
  | 0, _ => []
  | n + 1, v => BitVec.ofNat 8 v :: leBytes n (v / 256)

/-- Bits [lo + n − 1 : lo] of a number. -/
def bitsAt (v lo n : Nat) : Nat := v / 2 ^ lo % 2 ^ n

/-- The two's-complement reading of the low w bits. -/
def sInt (w v : Nat) : Int := let u := v % 2 ^ w; if u < 2 ^ (w - 1) then (u : Int) else (u : Int) - 2 ^ w

/-- An integer wrapped to w bits. -/
def wrapN (w : Nat) (i : Int) : Nat := (i % (2 ^ w : Int)).toNat

/-- A 64-bit value from a number. -/
abbrev w64 (n : Nat) : W64 := BitVec.ofNat 64 n

/-! ## Element types (R36) -/

/-- Width in bits of a type code; 0 for the reserved codes. -/
def tyWidth (t : Nat) : Nat :=
  if t == 0 || t == 1 || t == 4 || t == 5 || t == 10 then 8
  else if t == 2 || t == 6 || t == 7 || t == 11 then 16
  else if t == 3 || t == 8 then 32
  else if t == 9 then 4 else if t == 12 then 64 else 0

def tyFloat (t : Nat) : Bool := 4 ≤ t && t ≤ 8
def tyQB (t : Nat) : Bool := 9 ≤ t && t ≤ 11
def tyInt (t : Nat) : Bool := t ≤ 3 || t == 12

/-! ## Floating-point formats (R41) -/

structure Fmt where
  eb : Nat
  fb : Nat
  bias : Nat
  /-- false for E4M3: no infinity and one NaN pattern -/
  ieee : Bool
  deriving DecidableEq, Repr

def fmtOf (t : Nat) : Fmt :=
  if t == 4 then ⟨4, 3, 7, false⟩ else if t == 5 then ⟨5, 2, 15, true⟩ else if t == 6 then ⟨5, 10, 15, true⟩
  else if t == 7 then ⟨8, 7, 127, true⟩ else ⟨8, 23, 127, true⟩

/-- FP32. -/
def fp32 : Fmt := ⟨8, 23, 127, true⟩

/-- A floating-point value: NaN, an infinity, or (−1)^neg × m × 2^e. -/
inductive FV where
  | nan
  | inf (neg : Bool)
  | fin (neg : Bool) (m : Nat) (e : Int)
  deriving DecidableEq, Repr

def Fmt.signBit (f : Fmt) : Nat := 2 ^ (f.eb + f.fb)
/-- The pattern of the largest finite magnitude. -/
def Fmt.maxFin (f : Fmt) : Nat := if f.ieee then (2 ^ f.eb - 1) * 2 ^ f.fb - 1 else 2 ^ (f.eb + f.fb) - 2
/-- The canonical NaN. -/
def Fmt.nanBits (f : Fmt) : Nat := if f.ieee then (2 ^ f.eb - 1) * 2 ^ f.fb + 2 ^ (f.fb - 1) else 2 ^ (f.eb + f.fb) - 1
def Fmt.infBits (f : Fmt) : Nat := (2 ^ f.eb - 1) * 2 ^ f.fb

/-- The value of a bit pattern (R41, R42). -/
def Fmt.dec (f : Fmt) (b : Nat) : FV :=
  let neg := b / f.signBit % 2 == 1
  let u := b % f.signBit
  let ex := u / 2 ^ f.fb
  let fr := u % 2 ^ f.fb
  if f.ieee && ex == 2 ^ f.eb - 1 then (if fr == 0 then .inf neg else .nan)
  else if !f.ieee && u == f.nanBits then .nan
  else if ex == 0 then .fin neg fr (1 - (f.bias : Int) - f.fb)
  else .fin neg (2 ^ f.fb + fr) ((ex : Int) - f.bias - f.fb)

/-! ## Flags (R49): NV 16, DZ 8, OF 4, UF 2, NX 1 -/

abbrev Flags := BitVec 5
def flNV : Flags := 16
def flDZ : Flags := 8
def flOF : Flags := 4
def flUF : Flags := 2
def flNX : Flags := 1

/-- m / 2^k to nearest, ties to even (R44). -/
def rneShift (m k : Nat) : Nat :=
  let q := m / 2 ^ k
  let r := m % 2 ^ k
  if k == 0 then m
  else if 2 * r < 2 ^ k then q else if 2 * r > 2 ^ k then q + 1 else q + q % 2

/-- m × 2^e as an integer, rounded (R44). -/
def roundMag (tz : Bool) (m : Nat) (e : Int) : Nat :=
  if 0 ≤ e then m * 2 ^ e.toNat else if tz then m / 2 ^ (-e).toNat else rneShift m (-e).toNat

/-- Does m × 2^e need rounding to be an integer? -/
def magInexact (m : Nat) (e : Int) : Bool := decide (e < 0) && m % 2 ^ (-e).toNat != 0

/-- round_rne or round_tz of m × 2^e (m ≠ 0 or zero) to a format, with range limits and flags (R44 to R46, R50). -/
def Fmt.round (f : Fmt) (tz : Bool) (neg : Bool) (m : Nat) (e : Int) : Nat × Flags :=
  let s := if neg then f.signBit else 0
  if m == 0 then (s, 0) else
  let k : Int := (Nat.log2 m : Int) + e
  let qn := k - f.fb
  let qmin : Int := 1 - (f.bias : Int) - f.fb
  let q := max qn qmin
  let mant := roundMag tz m (e - q)
  let inex := magInexact m (e - q)
  let bits := (q - qmin).toNat * 2 ^ f.fb + mant
  if bits > f.maxFin then (s + f.maxFin, flOF ||| flNX) else
  let tiny := decide (qn < qmin) && decide ((roundMag tz m (e - qn) : Int) * 2 ^ (qn - qmin + f.fb + 1).toNat < 2 ^ (2 * f.fb + 1)
    ∨ qn < qmin - f.fb - 1)
  (s + bits, (if inex then flNX else 0) ||| (if inex && tiny then flUF else 0))

/-- A value into a format (R43, R46, R47). -/
def Fmt.enc (f : Fmt) (tz : Bool) : FV → Nat × Flags
  | .nan => (f.nanBits, 0)
  | .inf neg =>
    if f.ieee then (f.infBits + (if neg then f.signBit else 0), 0)
    else (f.maxFin + (if neg then f.signBit else 0), flOF ||| flNX)
  | .fin neg m e => f.round tz neg m e

/-- Range of an integer reading of w bits. -/
def intMin (w : Nat) (uns : Bool) : Int := if uns then 0 else -(2 ^ (w - 1) : Int)
def intMax (w : Nat) (uns : Bool) : Int := if uns then 2 ^ w - 1 else 2 ^ (w - 1) - 1
def satInt (w : Nat) (uns : Bool) (i : Int) : Int := max (intMin w uns) (min (intMax w uns) i)

/-- A value into an integer of w bits (R47). -/
def encInt (w : Nat) (uns tz : Bool) : FV → Nat × Flags
  | .nan => (0, flNV)
  | .inf neg => (wrapN w (if neg then intMin w uns else intMax w uns), flNV)
  | .fin neg m e =>
    let r : Int := if neg then -(roundMag tz m e : Int) else roundMag tz m e
    let s := satInt w uns r
    (wrapN w s, if s != r then flNV else if magInexact m e then flNX else 0)

/-! ## Exact arithmetic -/

def FV.neg : FV → FV
  | .nan => .nan
  | .inf n => .inf (!n)
  | .fin n m e => .fin (!n) m e

def FV.abs : FV → FV
  | .nan => .nan
  | .inf _ => .inf false
  | .fin _ m e => .fin false m e

def FV.isNeg : FV → Bool
  | .nan => false
  | .inf n => n
  | .fin n _ _ => n

/-- The signed integer of a finite value at power e (e at most its own). -/
def finInt (neg : Bool) (m : Nat) (e0 e : Int) : Int := (if neg then -(m : Int) else m) * 2 ^ (e0 - e).toNat

/-- A signed integer at a power of two, a zero taking the given sign. -/
def ofInt (i : Int) (e : Int) (zneg : Bool) : FV := if i == 0 then .fin zneg 0 0 else .fin (decide (i < 0)) i.natAbs e

/-- Sum, exact; ∞ − ∞ is invalid (R42, R43). -/
def FV.add : FV → FV → FV × Flags
  | .nan, _ => (.nan, 0)
  | _, .nan => (.nan, 0)
  | .inf a, .inf b => if a == b then (.inf a, 0) else (.nan, flNV)
  | .inf a, _ => (.inf a, 0)
  | _, .inf b => (.inf b, 0)
  | .fin na ma ea, .fin nb mb eb =>
    let e := min ea eb
    (ofInt (finInt na ma ea e + finInt nb mb eb e) e (na && nb && ma == 0 && mb == 0), 0)

/-- Product, exact; 0 × ∞ is invalid. -/
def FV.mul : FV → FV → FV × Flags
  | .nan, _ => (.nan, 0)
  | _, .nan => (.nan, 0)
  | .inf a, .inf b => (.inf (a != b), 0)
  | .inf a, .fin b m _ => if m == 0 then (.nan, flNV) else (.inf (a != b), 0)
  | .fin a m _, .inf b => if m == 0 then (.nan, flNV) else (.inf (a != b), 0)
  | .fin na ma ea, .fin nb mb eb => (.fin (na != nb) (ma * mb) (ea + eb), 0)

/-- a < b on non-NaN values; zeros are ordered −0 < +0 when zsign (R142), equal otherwise (R149). -/
def FV.lt (zsign : Bool) : FV → FV → Bool
  | .nan, _ => false
  | _, .nan => false
  | .inf a, .inf b => a && !b
  | .inf a, _ => a
  | _, .inf b => !b
  | .fin na ma ea, .fin nb mb eb =>
    let e := min ea eb
    let x := finInt na ma ea e
    let y := finInt nb mb eb e
    decide (x < y) || (zsign && x == 0 && y == 0 && na && !nb)

def FV.isNan : FV → Bool
  | .nan => true
  | _ => false

/-- VMIN and VMAX (R142). -/
def FV.minmax (mx : Bool) (a b : FV) : FV :=
  if a.isNan || b.isNan then .nan
  else if mx then (if FV.lt true a b then b else a) else (if FV.lt true b a then b else a)

/-- The exact value of an element of a non-QB type; an unsigned reading where uns. -/
def elemVal (t : Nat) (uns : Bool) (b : Nat) : FV :=
  if tyFloat t then (fmtOf t).dec b
  else
    let w := tyWidth t
    let i : Int := if uns || t == 1 then (b % 2 ^ w : Nat) else sInt w b
    ofInt i 0 false

/-- A value into an element of a non-QB type (R47). -/
def elemEnc (t : Nat) (uns tz : Bool) (v : FV) : Nat × Flags :=
  if tyFloat t then (fmtOf t).enc tz v else encInt (tyWidth t) (uns || t == 1) tz v

/-! ## Silsar block float -/

def qbBits (t : Nat) : Nat := tyWidth t

/-- qbexp in its closed form (R56). -/
def qbexp (n : Nat) : FV → Nat
  | .nan => 0
  | .inf _ => 254
  | .fin neg m e =>
    if m == 0 then 0 else
    let F : Int := n - 2
    let k : Int := (Nat.log2 m : Int) + e
    let r : Int :=
      if neg then (if (roundMag false m (e + F - k) : Int) == 2 ^ F.toNat then k + 127 else k + 128)
      else (if (roundMag false m (e + F - k - 1) : Int) == 2 ^ F.toNat then k + 129 else k + 128)
    (max 1 (min 254 r)).toNat

/-- The value of a QB element (R52). -/
def qbVal (n : Nat) (e0 e1 : Nat) (el : Nat) : FV :=
  let es := if el / 2 ^ (n - 1) % 2 == 1 then e1 else e0
  if es == 0 then .fin false 0 0 else if es == 255 then .nan
  else ofInt (sInt (n - 1) el) ((es : Int) - 127 - (n - 2 : Nat)) false

/-- One mantissa: the selected exponent, the value; the element bits and the flags (R57). -/
def qbMant (n : Nat) (s : Bool) (es : Nat) (v : FV) : Nat × Flags :=
  let sel := if s then 2 ^ (n - 1) else 0
  match v with
  | .fin neg m e =>
    if es == 0 || es == 255 then (sel, if m != 0 then flNX ||| (if es == 0 then flUF else 0) else 0) else
    let sh : Int := e + (n - 2 : Nat) + 127 - es
    let t : Int := if neg then -(roundMag false m sh : Int) else roundMag false m sh
    let lim : Int := 2 ^ (n - 2)
    let mm := max (-lim) (min (lim - 1) t)
    (sel + wrapN (n - 1) mm,
     (if mm != t then flOF ||| flNX else if magInexact m sh then flNX else 0) ||| (if m != 0 && mm == 0 then flUF else 0))
  | _ => (sel, 0)

/-- qb_encode of a block of values: E0, E1, elements, flags (R57). -/
def qbEncode (n : Nat) (xs : List FV) : Nat × Nat × List Nat × Flags :=
  let big (neg : Bool) : FV := .fin neg (2 ^ 24 - 1) 104
  let fl0 : Flags := if xs.any (fun x => match x with | .inf _ => true | _ => false) then flOF ||| flNX else 0
  let xs := xs.map (fun x => match x with | .inf s => big s | y => y)
  let es := xs.map (qbexp n)
  let e0 := es.foldl max 0
  let hasNan := xs.any FV.isNan
  let g1 (x : FV) (e : Nat) : Bool := if hasNan then x.isNan else e != 0 && decide (e + 2 ≤ e0)
  let e1 := if hasNan then 255 else ((xs.zip es).filter (fun p => g1 p.1 p.2)).foldl (fun a p => max a p.2) 0
  let ms := (xs.zip es).map (fun p => qbMant n (g1 p.1 p.2) (if g1 p.1 p.2 then e1 else e0) p.1)
  (e0, e1, ms.map (·.1), ms.foldl (fun a p => a ||| p.2) fl0)

/-- Requantisation of one block to n2 bits (R59): source block, targets or automatic mode. -/
def qbRequant (n n2 : Nat) (e0 e1 : Nat) (els : List Nat) (tgt : Option (Nat × Nat)) : Nat × Nat × List Nat × Flags :=
  let selOf (el : Nat) : Bool := el / 2 ^ (n - 1) % 2 == 1
  let auto (g : Bool) : Nat := (els.filter (fun el => selOf el == g)).foldl (fun a el => max a (qbexp n2 (qbVal n e0 e1 el))) 0
  let newE (g : Bool) (e : Nat) : Nat :=
    if e == 0 || e == 255 then e else
    match tgt with
    | some (t0, t1) => if g then t1 else t0
    | none => auto g
  let f0 := newE false e0
  let f1 := newE true e1
  let conv (el : Nat) : Nat × Flags :=
    let s := selOf el
    let es := if s then e1 else e0
    let es' := if s then f1 else f0
    let sel := if s then 2 ^ (n2 - 1) else 0
    let m := sInt (n - 1) el
    if es == 0 || es == 255 then (sel, 0)
    else if es' == 0 then (sel, if m != 0 then flNX ||| flUF else 0)
    else if es' == 255 then (sel, flNX)
    else
      let sh : Int := (n2 : Int) - n + es - es'
      let t : Int := if m < 0 then -(roundMag false m.natAbs sh : Int) else roundMag false m.natAbs sh
      let lim : Int := 2 ^ (n2 - 2)
      let mm := max (-lim) (min (lim - 1) t)
      (sel + wrapN (n2 - 1) mm,
       (if mm != t then flOF ||| flNX else if magInexact m.natAbs sh then flNX else 0) ||| (if m != 0 && mm == 0 then flUF else 0))
  let r := els.map conv
  (f0, f1, r.map (·.1), r.foldl (fun a p => a ||| p.2) 0)

/-! ## Accumulator arithmetic -/

/-- sat40 with its indication (R60). -/
def sat40 (v : Int) : Int × Bool := let s := max (-(2 ^ 39)) (min (2 ^ 39 - 1) v); (s, s != v)

/-- round_rne of a signed integer over 2^k. -/
def rneInt (v : Int) (k : Nat) : Int := if v < 0 then -(rneShift v.natAbs k : Int) else rneShift v.natAbs k

/-- The exact value of an accumulator element (R60). -/
def accVal (a : Int) (x : Nat) : FV := ofInt a ((x : Int) - 151) false

/-- A group sum aligned and added (R61): new element and overflow. -/
def accAdd (a p : Int) (sh : Int) : Int × Bool :=
  let (t, c1) := if 0 ≤ sh then sat40 (p * 2 ^ sh.toNat) else (rneInt p (-sh).toNat, false)
  let (b, c2) := sat40 (a + t)
  (b, c1 || c2)

/-- VWACC's value for an element: element, overflow, NV (R62). -/
def accWrite (x : Nat) : FV → Int × Bool × Bool
  | .nan => (0, true, true)
  | .inf neg =>
    let (t, c) := sat40 (let m := roundMag false (2 ^ 24 - 1) (104 + 151 - (x : Int)); if neg then -(m : Int) else m)
    (t, c, false)
  | .fin neg m e =>
    let r := roundMag false m (e + 151 - (x : Int))
    let (t, c) := sat40 (if neg then -(r : Int) else r)
    (t, c, false)

/-! ## Integer division (R40), on w-bit patterns -/

def divS (w : Nat) (a b : Int) : Int := if b == 0 then -1 else if a == -(2 ^ (w - 1)) && b == -1 then a else a.tdiv b
def remS (w : Nat) (a b : Int) : Int := if b == 0 then a else if a == -(2 ^ (w - 1)) && b == -1 then 0 else a.tmod b
def divU (w a b : Nat) : Nat := if b == 0 then 2 ^ w - 1 else a / b
def remU (a b : Nat) : Nat := if b == 0 then a else a % b

end Sys2Proof.Machine
end

