-- ==== Sys2Proof/Machine/Approx.lean ====
section
/-! DEFINITION. VRCP, VRSQ, VEXP2, VLOG2, VSIG and VTANH (05, R145, R146): the exact cases, the functions computed well beyond FP32, and the implementation's proposals kept only where they meet the bounds and are monotone (log 8). -/
namespace Sys2Proof.Machine

/-- Fraction bits of the fixed-point numbers below. -/
def fxBits : Nat := 256
def fxOne : Nat := 2 ^ fxBits
/-- ln 2 and log2 e, times 2^256. -/
def fxLn2 : Nat := 80260960185991308862233904206310070533990667611589946606122867505419956976172
def fxLog2e : Nat := 167052672916848388242985626561247531987276682633131050150846402744536260568208

/-- The square root of n, rounded down, from its top n-bit candidate bit. -/
def isqrtFrom : Nat → Nat → Nat → Nat
  | 0, _, r => r
  | b + 1, n, r => let c := r + 2 ^ b; isqrtFrom b n (if c * c ≤ n then c else r)

/-- Terms of the series added one by one: fuel, index, u, the last term, the sum. -/
def expSum : Nat → Nat → Nat → Nat → Nat → Nat
  | 0, _, _, _, acc => acc
  | fuel + 1, n, u, term, acc => let t := term * u / fxOne / n; expSum fuel (n + 1) u t (acc + t)
/-- 2^t for a fraction t. -/
def exp2Frac (t : Nat) : Nat := expSum 64 1 (t * fxLn2 / fxOne) fxOne fxOne
/-- 2^(−a) for a ≥ 0. -/
def exp2Neg (a : Nat) : Nat := if 400 ≤ a / fxOne then 0 else exp2Frac (fxOne - a % fxOne) / 2 ^ (a / fxOne + 1)

/-- Fraction bits of log2 r for 1 ≤ r < 2, by squaring. -/
def log2Bits : Nat → Nat → Nat → Nat
  | 0, _, acc => acc
  | fuel + 1, r, acc => let q := r * r / fxOne; if 2 * fxOne ≤ q then log2Bits fuel (q / 2) (2 * acc + 1) else log2Bits fuel q (2 * acc)

/-- A finite magnitude in fixed point. -/
def fxOf (m : Nat) (e : Int) : Nat := if 0 ≤ e + fxBits then m * 2 ^ (e + fxBits).toNat else m / 2 ^ (-(e + fxBits)).toNat

/-- Is m a power of two? -/
def isPow2 (m : Nat) : Bool := m != 0 && m == 2 ^ Nat.log2 m

/-- The value 2^k. -/
def pow2 (neg : Bool) (k : Int) : FV := .fin neg 1 k
def fpMax : FV := .fin false (2 ^ 24 - 1) 104

/-- The exact cases of R146. -/
def approxExact (op : Nat) (v : FV) : Option (FV × Flags) :=
  match op, v with
  | _, .nan => some (.nan, 0)
  | 0x0A, .inf n => some (.fin n 0 0, 0)
  | 0x0A, .fin n m e =>
    if m == 0 then some (.inf n, flDZ) else
    let k := (Nat.log2 m : Int) + e
    if isPow2 m && decide (-126 ≤ -k) && decide (-k ≤ 127) then some (pow2 n (-k), 0) else none
  | 0x0B, .inf n => if n then some (.nan, flNV) else some (.fin false 0 0, 0)
  | 0x0B, .fin n m e =>
    if m == 0 then some (.inf n, flDZ) else if n then some (.nan, flNV) else
    let k := (Nat.log2 m : Int) + e
    if isPow2 m && k % 2 == 0 then some (pow2 false (-(k / 2)), 0) else none
  | 0x0C, .inf n => some (if n then .fin false 0 0 else .inf false, 0)
  | 0x0C, .fin n m e =>
    let fl := fxOf m e
    if !n && decide (128 * fxOne ≤ fl) then some (fpMax, flOF ||| flNX)
    else if n && decide (150 * fxOne < fl) then some (.fin false 0 0, flUF ||| flNX)
    else if fl % fxOne == 0 && (!n || decide (fl ≤ 126 * fxOne)) then some (pow2 false (if n then -((fl / fxOne : Nat) : Int) else (fl / fxOne : Nat)), 0) else none
  | 0x0D, .inf n => if n then some (.nan, flNV) else some (.inf false, 0)
  | 0x0D, .fin n m e =>
    if m == 0 then some (.inf true, flDZ) else if n then some (.nan, flNV)
    else if isPow2 m then some (ofInt ((Nat.log2 m : Int) + e) 0 false, 0) else none
  | 0x0E, .inf n => some (if n then .fin false 0 0 else pow2 false 0, 0)
  | 0x0E, .fin _ m _ => if m == 0 then some (pow2 false (-1), 0) else none
  | _, .inf n => some (pow2 n 0, 0)
  | _, .fin n m _ => if m == 0 then some (.fin n 0 0, 0) else none

/-- f(x) times 2^256 for the operands that are no exact case (R145). -/
def approxRef (op : Nat) (n : Bool) (m : Nat) (e : Int) : Int :=
  let x := fxOf m e
  match op with
  | 0x0A => let q : Nat := if 0 ≤ e then fxOne / (m * 2 ^ e.toNat) else fxOne * 2 ^ (-e).toNat / m
            if n then -(q : Int) else q
  | 0x0B => (isqrtFrom 400 (if 0 ≤ e then fxOne * fxOne / (m * 2 ^ e.toNat) else fxOne * fxOne * 2 ^ (-e).toNat / m) 0 : Nat)
  | 0x0C => if n then (exp2Neg x : Nat) else (exp2Frac (x % fxOne) * 2 ^ (x / fxOne) : Nat)
  | 0x0D =>
    let k := (Nat.log2 m : Int) + e
    let r := m * fxOne / 2 ^ Nat.log2 m
    k * fxOne + (log2Bits 80 r 0 * 2 ^ 176 : Nat)
  | 0x0E =>
    let z := exp2Neg (x * fxLog2e / fxOne)
    ((if n then z else fxOne) * fxOne / (fxOne + z) : Nat)
  | _ =>
    let z := exp2Neg (2 * x * fxLog2e / fxOne)
    let q : Nat := (fxOne - z) * fxOne / (fxOne + z)
    if n then -(q : Int) else q

/-- ulp(v) times 2^256 (R145). -/
def fxUlp (v : Nat) : Nat := 2 ^ (max (Nat.log2 v) (fxBits - 126) - 23)

/-- The bound of R145 times 2^256, with room of one part in 2^40 for the error of the reference. -/
def approxRoom (op : Nat) (f : Nat) : Nat :=
  let b := if op == 0x0A || op == 0x0B then fxUlp f else if op == 0x0C then 2 * fxUlp f else max (2 * fxUlp f) (2 ^ 230)
  b + b / 2 ^ 40

/-- A value's magnitude with its sign in fixed point, where it is finite. -/
def fxVal : FV → Option Int
  | .fin n m e => some (if n then -(fxOf m e : Int) else fxOf m e)
  | _ => none

/-- y for an operand that is no exact case: the proposal where `own` asks for it and it meets the bound, else f(x) rounded. -/
def approxPoint (own : Bool) (op : Nat) (bits : Nat) (f : Int) : FV × Flags :=
  let r := fp32.round false (decide (f < 0)) f.natAbs (-(fxBits : Int))
  if r.2 &&& flOF != 0 then (fp32.dec r.1, r.2)
  else
    let p := fp32.dec (Config.approx op (BitVec.ofNat 32 bits)).toNat
    match fxVal p with
    | some y => if own && decide ((y - f).natAbs ≤ approxRoom op f.natAbs) then (p, flNX) else (fp32.dec r.1, flNX)
    | none => (fp32.dec r.1, flNX)

/-- y for any FP32 operand, with the proposals. -/
def approxAt (op bits : Nat) : FV :=
  match approxExact op (fp32.dec bits), fp32.dec bits with
  | some y, _ => y.1
  | none, .fin n m e => (approxPoint true op bits (approxRef op n m e)).1
  | none, v => v

/-- The i-th FP32 operand from −∞ up to +∞. -/
def approxBits (i : Nat) : Nat := if i < 0x7F800001 then 0xFF800000 - i else i - 0x7F800001

/-- Does y never fall over the n operands from −∞ and the next (R145)? -/
def risesTo (op : Nat) : Nat → Bool
  | 0 => true
  | n + 1 => !(FV.lt false (approxAt op (approxBits (n + 1))) (approxAt op (approxBits n))) && risesTo op n

/-- VEXP2, VLOG2, VSIG and VTANH are monotone non-decreasing (R145): an implementation's proposals are kept only where they are. -/
def approxOwn (op : Nat) : Bool := op == 0x0A || op == 0x0B || risesTo op (2 * 0x7F800001 - 1)

/-- y for an operand that is no exact case, within the bounds of R145. -/
def approxPick (op : Nat) (bits : Nat) (f : Int) : FV × Flags := approxPoint (approxOwn op) op bits f

/-- y narrowed to a type (R48), UF where the inexact result is below the type's normal range (R50). -/
def approxEnc (t : Nat) (y : FV) (fl : Flags) : Nat × Flags :=
  let f := fmtOf t
  let r := f.enc false y
  let small := r.1 % f.signBit / 2 ^ f.fb == 0
  let fl1 := fl ||| r.2
  (r.1, if fl &&& flNX != 0 && small then fl1 ||| flUF else fl1)

/-- One element of an approximation op (R145, R146). -/
def approxElem (op t : Nat) (v : FV) : Nat × Flags :=
  match approxExact op v with
  | some (y, fl) => let r := (fmtOf t).enc false y; (r.1, r.2 ||| fl)
  | none =>
    match v with
    | .fin n m e => let y := approxPick op (fp32.enc false v).1 (approxRef op n m e); approxEnc t y.1 y.2
    | _ => ((fmtOf t).nanBits, 0)

end Sys2Proof.Machine
end

