-- ==== Sys2Proof/Machine/SMap.lean ====
section
/-! DEFINITION. Plain-data maps: tables keyed by number, and memory as a list of cells in one canonical form. -/
namespace Sys2Proof.Machine

/-- A table: a list of key and value pairs, the first entry of a key counting. -/
structure Tab (α : Type) where
  l : List (Nat × α)
  deriving DecidableEq, Repr

/-- The empty table. -/
def Tab.empty {α : Type} : Tab α := ⟨[]⟩

def Tab.findL {α : Type} : List (Nat × α) → Nat → Option α
  | [], _ => none
  | (j, v) :: r, k => if j == k then some v else Tab.findL r k

def Tab.setL {α : Type} : List (Nat × α) → Nat → α → List (Nat × α)
  | [], k, v => [(k, v)]
  | (j, u) :: r, k, v => if j == k then (k, v) :: r else (j, u) :: Tab.setL r k v

/-- The entry of a key, if there is one. -/
def Tab.find {α : Type} (t : Tab α) (k : Nat) : Option α := Tab.findL t.l k
/-- The entry of a key, or a default. -/
def Tab.get {α : Type} (t : Tab α) (k : Nat) (d : α) : α := (t.find k).getD d
/-- A table with one entry replaced or added. -/
def Tab.set {α : Type} (t : Tab α) (k : Nat) (v : α) : Tab α := ⟨Tab.setL t.l k v⟩
/-- A table without a key. -/
def Tab.del {α : Type} (t : Tab α) (k : Nat) : Tab α := ⟨t.l.filter (fun p => p.1 != k)⟩

/-- A list without repeats, the first of each kept. -/
def nub {α : Type} [DecidableEq α] (l : List α) : List α := (l.foldl (fun a x => if x ∈ a then a else x :: a) []).reverse

/-! ## Memory: cells at strictly rising addresses, none of them 0, which is what an unlisted address reads as (log 1, 2, 3) -/

/-- Bytes of memory by address. -/
abbrev Memory := List Host.Cell

/-- What an address that nothing lists reads as. -/
def Memory.unlisted : BitVec 8 := 0

/-- Every address of m is above a, addresses rise and no byte is the unlisted one. -/
def Memory.wfFrom : Memory → Nat → Bool
  | [], _ => true
  | (b, v) :: r, a => decide (a ≤ b) && v != Memory.unlisted && Memory.wfFrom r (b + 1)

/-- The canonical form. -/
def Memory.wf (m : Memory) : Bool := Memory.wfFrom m 0

/-- The byte at an address. -/
def Memory.read : Memory → Nat → BitVec 8
  | [], _ => Memory.unlisted
  | (b, v) :: r, a => if a < b then Memory.unlisted else if a == b then v else Memory.read r a

/-- One byte written, keeping the canonical form. -/
def Memory.write : Memory → Nat → BitVec 8 → Memory
  | [], a, x => if x == Memory.unlisted then [] else [(a, x)]
  | (b, v) :: r, a, x =>
    if a < b then (if x == Memory.unlisted then (b, v) :: r else (a, x) :: (b, v) :: r)
    else if a == b then (if x == Memory.unlisted then r else (a, x) :: r)
    else (b, v) :: Memory.write r a x

/-- n bytes from an address. -/
def Memory.readN (m : Memory) (a : Nat) : Nat → Bytes
  | 0 => []
  | n + 1 => m.read a :: Memory.readN m (a + 1) n

/-- Bytes written from an address. -/
def Memory.writeN : Memory → Nat → Bytes → Memory
  | m, _, [] => m
  | m, a, x :: r => Memory.writeN (m.write a x) (a + 1) r

/-- Bytes written each at its own address, in list order. -/
def Memory.writeAll : Memory → List (Nat × BitVec 8) → Memory
  | m, [] => m
  | m, (a, x) :: r => Memory.writeAll (m.write a x) r

/-- The bytes of a run with their addresses. -/
def cellsAt : Nat → Bytes → List (Nat × BitVec 8)
  | _, [] => []
  | a, x :: r => (a, x) :: cellsAt (a + 1) r

/-! ## A core's scratchpad -/

/-- A scratchpad: its bytes, each as the difference from what an unwritten byte reads as: 0, or a free value once its contents have become
undefined (R405, log 8). -/
structure Spad where
  cells : Memory := []
  free : Option Nat := none
  deriving DecidableEq, Repr

/-- What an unwritten byte reads as. -/
def Spad.base (m : Spad) (a : Nat) : BitVec 8 :=
  match m.free with
  | none => 0
  | some n => Config.freeByte n a

def Spad.read (m : Spad) (a : Nat) : BitVec 8 := m.cells.read a ^^^ m.base a
def Spad.write (m : Spad) (a : Nat) (x : BitVec 8) : Spad := { m with cells := m.cells.write a (x ^^^ m.base a) }

/-- n bytes from an address. -/
def Spad.readN (m : Spad) (a : Nat) : Nat → Bytes
  | 0 => []
  | n + 1 => m.read a :: Spad.readN m (a + 1) n

/-- Bytes written each at its own address, in list order. -/
def Spad.writeAll : Spad → List (Nat × BitVec 8) → Spad
  | m, [] => m
  | m, (a, x) :: r => Spad.writeAll (m.write a x) r

/-- Bytes written from an address. -/
def Spad.writeN (m : Spad) (a : Nat) (b : Bytes) : Spad := m.writeAll (cellsAt a b)

end Sys2Proof.Machine
end

