-- ==== Sys2Proof/Machine/Forms.lean ====
section
/-! DEFINITION. The instructions of the Silsar Q4 as data: operand forms, the payloads of the package's steps, and
the steps that are no op words. Register numbers and encoded fields are bit vectors; ids, positions and times are numbers. -/
namespace Sys2Proof

/-- A queue source specifier (R80): block bit, queue, offset from the head. -/
structure QSpec where
  b : Bool
  q : BitVec 3
  k : BitVec 5
  deriving DecidableEq, Repr

/-- Format S.R (R80). -/
structure SR where
  d : BitVec 6
  ba : Bool
  a : BitVec 6
  bb : Bool
  b : BitVec 6
  g : BitVec 5
  w : Bool
  deriving DecidableEq, Repr

/-- Format S.R of the unary ops (R101). -/
structure SR1 where
  d : BitVec 6
  ba : Bool
  a : BitVec 6
  g : BitVec 5
  w : Bool
  deriving DecidableEq, Repr

/-- Format S.I with its short immediate (R80). -/
structure SI where
  d : BitVec 6
  ba : Bool
  a : BitVec 6
  imm : BitVec 13
  deriving DecidableEq, Repr

/-- Format S.I with a LIMM extension (R85). -/
structure SIL where
  d : BitVec 6
  ba : Bool
  a : BitVec 6
  imm : BitVec 32
  deriving DecidableEq, Repr

/-- Format S.M with its short offset (R80, R83). -/
structure SM where
  d : BitVec 6
  ba : Bool
  a : BitVec 6
  size : BitVec 3
  off : BitVec 10
  deriving DecidableEq, Repr

/-- Format S.M with an OFF32 extension (R85). -/
structure SMX where
  d : BitVec 6
  ba : Bool
  a : BitVec 6
  size : BitVec 3
  off : BitVec 32
  deriving DecidableEq, Repr

/-- LDF, STE and LDFF with the short offset; the size is 0b110 (R233). -/
structure SF where
  d : BitVec 6
  ba : Bool
  a : BitVec 6
  off : BitVec 10
  deriving DecidableEq, Repr

/-- LDF, STE and LDFF with an OFF32 extension (R233). -/
structure SFX where
  d : BitVec 6
  ba : Bool
  a : BitVec 6
  off : BitVec 32
  deriving DecidableEq, Repr

/-- ATOM, ATOMG and RADD: the S.M word and its OWN extension (R236). -/
structure SA where
  d : BitVec 6
  ba : Bool
  a : BitVec 6
  size : BitVec 3
  off : BitVec 10
  aop : BitVec 4
  rem : Bool
  die : BitVec 2
  core : BitVec 5
  bv : Bool
  v : BitVec 6
  bc : Bool
  c : BitVec 6
  deriving DecidableEq, Repr

/-- Format S.B (R80). -/
structure SB where
  g : BitVec 5
  n : Bool
  disp : BitVec 20
  deriving DecidableEq, Repr

/-- LOOP: its word and its OWN extension (R118). -/
structure SL where
  ba : Bool
  a : BitVec 6
  imm : BitVec 13
  ii : BitVec 8
  sm1 : BitVec 3
  deriving DecidableEq, Repr

/-- Format V.T (R80). -/
structure VT where
  q : BitVec 3
  a : QSpec
  b : QSpec
  g : BitVec 5
  deriving DecidableEq, Repr

/-- Format V.T with field B unused (R144). -/
structure VU where
  q : BitVec 3
  a : QSpec
  g : BitVec 5
  deriving DecidableEq, Repr

/-- Format V.T of the conversions, OPT in field B (R150). -/
structure VC where
  q : BitVec 3
  a : QSpec
  usrc : Bool
  udst : Bool
  g : BitVec 5
  deriving DecidableEq, Repr

/-- Format V.S with field A unused (R152). -/
structure VN where
  q : BitVec 3
  s : BitVec 6
  bs : Bool
  g : BitVec 5
  deriving DecidableEq, Repr

/-- Format V.S with every field (R155; for VSCAT, q is the index queue, R159). -/
structure VS where
  q : BitVec 3
  a : QSpec
  s : BitVec 6
  bs : Bool
  g : BitVec 5
  deriving DecidableEq, Repr

/-- Format V.S with field dq unused (R157). -/
structure VW where
  a : QSpec
  s : BitVec 6
  bs : Bool
  g : BitVec 5
  deriving DecidableEq, Repr

/-- Format C.T with a queue or second layout register in q (R307). -/
structure CQ where
  l : BitVec 3
  q : BitVec 3
  s : BitVec 6
  c : BitVec 6
  acq : Bool
  rel : Bool
  np : Bool
  sg : BitVec 4
  deriving DecidableEq, Repr

/-- Format C.T with field q unused (R307). -/
structure CN where
  l : BitVec 3
  s : BitVec 6
  c : BitVec 6
  acq : Bool
  rel : Bool
  np : Bool
  sg : BitVec 4
  deriving DecidableEq, Repr

/-- A result or fill that arrives for a reserved queue entry (R20). `data = none`: the bytes already stand in the entry
(R312). `seq` is the issuing op's place in program order; `pos` a channel position whose delivery it is. -/
structure QArr where
  core : Nat
  q : Nat
  idx : Nat
  data : Option Bytes
  flags : BitVec 5
  seq : Nat
  deriving DecidableEq, Repr

/-- A rejection that returns to a sender (R243, R329, R447). -/
structure Reject where
  tk : Option Nat
  code : Nat
  detail : Nat
  pc : W64
  slot : Nat
  addr : W64
  deriving DecidableEq, Repr

/-- A splice message to end (core, q) from peer (pcore, pq): acceptance, credit count, close or refusal (R221). -/
structure SplMsg where
  core : Nat
  q : Nat
  pcore : Nat
  pq : Nat
  ty : Nat
  n : Nat
  refuse : Bool
  deriving DecidableEq, Repr

/-- An exported write: source die, its clock, the bytes by physical address, its owner-order position once placed (R263). -/
structure Export where
  src : Nat
  clk : List Nat
  data : List (Nat × BitVec 8)
  pos : Option Nat
  deriving DecidableEq, Repr

/-- Who gets the answer to an access. `scalar`: ticket, bytes wanted, sign extension, and the bytes of the core's own withheld stores that the
load saw when it started (R111). `host`: an access through the aperture of a function (R454). -/
inductive Reply where
  | none
  | scalar (core tk : Nat) (size : Nat) (signed : Bool) (own : List (Nat × BitVec 8))
  | copy (core id k : Nat)
  | host (fn off : Nat)
  deriving DecidableEq, Repr

/-- A global access on its way to its home slice (R245): the agent's core, physical address, bytes
to write by physical address or none; `l1` fills the core's L1. -/
structure Access where
  die : Nat
  core : Nat
  id : Nat
  va : W64
  pa : Nat
  len : Nat
  wr : Option (List (Nat × BitVec 8))
  l1 : Bool
  pc : W64
  slot : Nat
  reply : Reply
  deriving DecidableEq, Repr

/-- An atomic on its way (R237 to R240): target address, operation, width, operands. `pa` is a scratchpad address for ATOM. -/
structure AtomReq where
  core : Nat
  tgt : Nat
  id : Nat
  tk : Option Nat
  pa : Nat
  ea : W64
  aop : Nat
  size : BitVec 3
  v : W64
  c : W64
  pc : W64
  slot : Nat
  part : Nat
  pasid : Nat
  clk : List Nat
  deriving DecidableEq, Repr

/-- A page walk asked for by a TLB miss (R253): requester, page address, access kind (0 read, 1 write, 2 fetch, 3 read-write). -/
structure WalkReq where
  core : Nat
  tlb : Nat
  fn : Nat
  pasid : Nat
  va : W64
  deriving DecidableEq, Repr

/-- A post to a counter (R324): target core, counter, bytes; sender, and what a rejection or fault names. -/
structure Post where
  tgt : Nat
  ctr : Nat
  n : Nat
  src : Nat
  tent : Bool
  ival : Nat
  seq : Nat
  id : Nat
  part : Nat
  pasid : Nat
  pc : W64
  slot : Nat
  addr : W64
  deriving DecidableEq, Repr

/-- A write by address into a core's scratchpad (CRWR R316, CBCAST R319). -/
structure RWrite where
  bc : Bool
  tgt : Nat
  src : Nat
  id : Nat
  data : List (Nat × BitVec 8)
  post : Option (Nat × Nat)
  part : Nat
  pasid : Nat
  pc : W64
  slot : Nat
  addr : W64
  deriving DecidableEq, Repr

/-- A released CHWR on its way to the channel controller (R288). -/
structure ChAppend where
  core : Nat
  id : Nat
  ch : Nat
  ents : List Bytes
  pc : W64
  slot : Nat
  deriving DecidableEq, Repr

/-- A CHRD position to deliver into a reserved entry (R289); with `ask` not 0, the request on its way to the table for so many positions. -/
structure ChRead where
  core : Nat
  ch : Nat
  pos : Nat
  q : Nat
  idx : Nat
  acq : Option Nat
  seq : Nat
  pc : W64
  slot : Nat
  ask : Nat := 0
  deriving DecidableEq, Repr

/-- A channel report to the writer core (R292). -/
inductive ChReport where
  | tailw (v m : Nat)
  | heado (v : Nat)
  | cap (v : Nat)
  deriving DecidableEq, Repr

/-- A write to a write view, on its way to the collection buffer (R356). -/
structure CollWrite where
  arr : Nat
  ent : Nat
  data : List (Nat × BitVec 8)
  acc : Access
  deriving DecidableEq, Repr

/-- What a directed packet does where it is performed (R263). -/
inductive DirBody where
  | atomg (a : AtomReq)
  | atom (a : AtomReq)
  | post (p : Post)
  | rwrite (w : RWrite)
  | append (a : ChAppend)
  | coll (w : CollWrite)
  deriving DecidableEq, Repr

/-- A directed packet: source die, destination die and unit, its clock and its place in the order sent (R263). -/
structure Directed where
  src : Nat
  dst : Nat
  unit : Nat
  clk : List Nat
  ord : Nat
  body : DirBody
  deriving DecidableEq, Repr

/-- A Tuinil flit (R472). -/
structure Flit where
  seq : Nat
  kind : Nat
  ack : Nat
  cred : Nat
  stream : Bytes
  fcrc : BitVec 32
  deriving DecidableEq, Repr

/-- A fabric packet (R476). -/
structure FabPkt where
  kind : Nat
  owner : Bool
  swgrp : Nat
  src : Nat
  dst : Nat
  epoch : Nat
  chunk : Nat
  rank : Nat
  nm : Nat
  op : Nat
  dtype : Nat
  token : W64
  data : Bytes
  deriving DecidableEq, Repr

/-- A layout of the package (R450): partition of each quadrant; per partition HBM window (start, length), channel
reserve (base, total in MiB quanta); per partition and die weight-store window (base, length in 64 KiB); work-queue owners. -/
structure LayoutRec where
  quad : List Nat
  hbm : List (Nat × Nat)
  res : List (Nat × Nat)
  ws : List (Nat × Nat)
  wqOwner : List Nat
  deriving DecidableEq, Repr

/-- Where a Knead cell stands (R336): array, column, row. -/
structure CellLoc where
  arr : Nat
  col : Nat
  row : Nat
  deriving DecidableEq, Repr

/-- The fields of a cell instruction word below OP (R341). -/
structure CellWord where
  oe : Bool
  re : Bool
  regd : BitVec 3
  sa : BitVec 4
  sb : BitVec 4
  sc : BitVec 4
  tag : BitVec 4
  tkeep : Bool
  w : BitVec 2
  mode : BitVec 4
  immh : Bool
  imm : BitVec 16
  deriving DecidableEq, Repr


/-- What a loss of stored state names: the partition whose state it is, or the Knead array that failed (R398, R369). -/
inductive Loss where
  | part (p : Nat)
  | array (a : Nat)
  deriving DecidableEq, Repr


/-- A step of the package that is no op word: what stands in flight or comes from outside. One constructor for each event row of the
table; `Instr` has the same steps, and `exec` gives both one meaning. -/
inductive Ev where
  /-- WIDE_BUNDLE_ISSUE (R22). -/
  | wideBundleIssue (core : Nat)
  /-- SINGLE_OP_BUNDLE_ISSUE (R33). -/
  | singleOpBundleIssue (core : Nat)
  /-- CHECKPOINT_BUNDLE (R378). -/
  | checkpointBundle (core : Nat)
  /-- OPERATOR_BOUNDARY_BUNDLE (R403). -/
  | operatorBoundaryBundle (core : Nat)
  /-- QUEUE_ENTRY_ARRIVAL (R20). -/
  | queueEntryArrival (a : QArr)
  /-- SCALAR_RESULT_ARRIVAL (R13). -/
  | scalarResultArrival (core tk : Nat) (v : W64)
  /-- ATOMIC_RESULT_ARRIVAL (R241). -/
  | atomicResultArrival (core tk : Nat) (v : W64) (clk : List Nat)
  /-- ROLLBACK_COMPLETE (R384). -/
  | rollbackComplete (core : Nat)
  /-- ASYNC_FAULT_TAKEN (R243). -/
  | asyncFaultTaken (core : Nat)
  /-- REMOTE_ATOM_REJECTION (R243). -/
  | remoteAtomRejection (core : Nat) (r : Reject)
  /-- ABANDONMENT_REPORT (R390). -/
  | abandonmentReport (die : Nat)
  /-- HANG_WATCHDOG (R391). -/
  | hangWatchdog (core : Nat)
  /-- OPERATOR_BOUND_EXCEEDED (R392). -/
  | operatorBoundExceeded (core : Nat)
  /-- MACHINE_ROLLBACK (R399). -/
  | machineRollback (core : Nat)
  /-- SINGLE_OP_ERROR_RETRY (R400). -/
  | singleOpErrorRetry (core : Nat)
  /-- CORRECTABLE_ERROR (R397). -/
  | correctableError (word : Nat)
  /-- LOSS_OF_STORED_STATE (R398). -/
  | lossOfStoredState (what : Loss)
  /-- PARTITION_RESET (R401). -/
  | partitionReset (part cause : Nat) (failed : List Nat)
  /-- GANG_PLACEMENT (R208). -/
  | gangPlacement (die : Nat)
  /-- SCOREBOARD_AGE_LIMIT (R208). -/
  | scoreboardAgeLimit (die e : Nat)
  /-- DEPENDENCE_SATISFIED (R203). -/
  | dependenceSatisfied (die e k : Nat)
  /-- WORK_ITEM_START (R206). -/
  | workItemStart (cores : List Nat)
  /-- WORK_ITEM_END (R204). -/
  | workItemEnd (core : Nat)
  /-- CORE_FREE (R204). -/
  | coreFree (core : Nat)
  /-- LAUNCH_SUBMISSION_ACCEPT (R200). -/
  | launchSubmissionAccept (core : Nat)
  /-- SYNC_LINE_COMPLETE (R212). -/
  | syncLineComplete (die line : Nat)
  /-- SYNC_RESTART (R213). -/
  | syncRestart (die line : Nat)
  /-- SPLICE_ACCEPTANCE_ARRIVAL (R221). -/
  | spliceAcceptanceArrival (m : SplMsg)
  /-- SPLICE_CREDIT_ARRIVAL (R221). -/
  | spliceCreditArrival (m : SplMsg)
  /-- SPLICE_CLOSE_ARRIVAL (R221). -/
  | spliceCloseArrival (m : SplMsg)
  /-- SPLICE_ENTRY_SHIP (R222). -/
  | spliceEntryShip (core q : Nat)
  /-- SPLICE_ENTRY_DELIVERY (R223). -/
  | spliceEntryDelivery (m : SplMsg) (data : Bytes)
  /-- SPLICE_CLOSE_SEND (R221). -/
  | spliceCloseSend (core q : Nat)
  /-- EXPORTED_WRITE_APPLY (R263). -/
  | exportedWriteApply (die : Nat) (w : Export)
  /-- DIRECTED_PACKET_PERFORM (R263). -/
  | directedPacketPerform (p : Directed)
  /-- HOME_SLICE_ACCESS (R245). -/
  | homeSliceAccess (a : Access)
  /-- HOME_SLICE_ATOMIC (R240). -/
  | homeSliceAtomic (a : AtomReq)
  /-- REMOTE_ATOM_APPLY (R238). -/
  | remoteAtomApply (a : AtomReq)
  /-- RELEASE_COMPLETE (R266). -/
  | releaseComplete (core : Nat)
  /-- PAGE_WALK_COMPLETE (R253). -/
  | pageWalkComplete (w : WalkReq)
  /-- INVALIDATION_COMPLETE (R256). -/
  | invalidationComplete (fn : Nat)
  /-- REFRESH_WINDOW_START (R248). -/
  | refreshWindowStart
  /-- REFRESH_WINDOW_END (R248). -/
  | refreshWindowEnd
  /-- WEIGHT_STORE_WRITE_PERFORM (R249). -/
  | weightStoreWritePerform (die : Nat)
  /-- BANK_LOAD_COMPLETE (R164). -/
  | bankLoadComplete (core bank : Nat)
  /-- BANK_COMPUTE_COMPLETE (R164). -/
  | bankComputeComplete (core bank : Nat)
  /-- TILE_WRITE_COMPLETE (R32). -/
  | tileWriteComplete (core tile : Nat)
  /-- REPEAT_ITERATION_START (R180). -/
  | repeatIterationStart (core : Nat)
  /-- COPY_COMMAND_START (R309). -/
  | copyCommandStart (core id : Nat)
  /-- COPY_DATA_RETURN (R304). -/
  | copyDataReturn (core id k : Nat)
  /-- COPY_COMMAND_COMPLETE (R310). -/
  | copyCommandComplete (core id : Nat)
  /-- COUNTER_POST (R324). -/
  | counterPost (p : Post)
  /-- REMOTE_WRITE_DELIVERY (R316). -/
  | remoteWriteDelivery (w : RWrite)
  /-- BROADCAST_DELIVERY (R319). -/
  | broadcastDelivery (w : RWrite)
  /-- CHANNEL_APPEND (R291). -/
  | channelAppend (a : ChAppend)
  /-- CHANNEL_DELIVERY (R289). -/
  | channelDelivery (d : ChRead)
  /-- SPILL_REFILL (R291). -/
  | spillRefill (ch : Nat)
  /-- CHANNEL_REPORT_ARRIVAL (R292). -/
  | channelReportArrival (core ch : Nat) (r : ChReport)
  /-- CHANNEL_CLOSE_NOTICE (R285). -/
  | channelCloseNotice (core ch : Nat)
  /-- PROOFER_DETECTION (R295). -/
  | prooferDetection (part : Nat)
  /-- CHANNEL_GROWTH (R295). -/
  | channelGrowth (part ch lowest : Nat)
  /-- PEEL_DECISION (R414). -/
  | peelDecision (post : Nat)
  /-- PEEL_CONVERSION (R416). -/
  | peelConversion (group : Nat)
  /-- PEEL_RUN_PARK (R417). -/
  | peelRunPark (core : Nat)
  /-- DRAIN_POINT (R418). -/
  | drainPoint (core : Nat)
  /-- CKPT_SAVE_COMPLETE (R418). -/
  | ckptSaveComplete (core : Nat)
  /-- DISCARD_COMPLETE (R419). -/
  | discardComplete (core : Nat)
  /-- GROUP_RESUME_PLACEMENT (R420). -/
  | groupResumePlacement (group : Nat)
  /-- RESTORE_COMPLETE (R420). -/
  | restoreComplete (group : Nat)
  /-- FLIT_ROUTE (R338). -/
  | flitRoute (arr col row port : Nat)
  /-- RECORD_START (R344). -/
  | recordStart (arr ent : Nat)
  /-- RECORD_QUIESCENCE (R344). -/
  | recordQuiescence (arr ent col : Nat)
  /-- RECORD_TIME_LIMIT (R345). -/
  | recordTimeLimit (arr ent col : Nat)
  /-- KNEAD_RECORD_REQUEST (R355). -/
  | kneadRecordRequest (a : Access)
  /-- KNEAD_VIEW_LINE_DELIVERY (R355). -/
  | kneadViewLineDelivery (arr ent rcd : Nat) (data : Bytes)
  /-- COLLECTION_WRITE (R356). -/
  | collectionWrite (w : CollWrite)
  /-- KNEAD_WINDOW_START (R352). -/
  | kneadWindowStart
  /-- KNEAD_WINDOW_END (R352). -/
  | kneadWindowEnd
  /-- SLOT_LOAD_COMPLETE (R351). -/
  | slotLoadComplete (arr slot : Nat)
  /-- BINDING_ACTIVATE (R358). -/
  | bindingActivate (arr ent : Nat)
  /-- BINDING_DRAIN_COMPLETE (R358). -/
  | bindingDrainComplete (arr ent : Nat)
  /-- PACKET_GRANT (R439). -/
  | packetGrant (unit port : Nat)
  /-- VC_AGE_PROMOTION (R439). -/
  | vcAgePromotion (unit port : Nat)
  /-- LANE_GROUP_DROP (R443). -/
  | laneGroupDrop (die port : Nat)
  /-- TUINIL_FLIT_RECEIVE (R473). -/
  | tuinilFlitReceive (port : Nat) (f : Flit)
  /-- TUINIL_NAK_RECEIVE (R473). -/
  | tuinilNakReceive (port ack : Nat)
  /-- TUINIL_LANE_DROP (R473). -/
  | tuinilLaneDrop (port : Nat)
  /-- FABRIC_RESULT_DELIVERY (R481). -/
  | fabricResultDelivery (p : FabPkt)
  /-- FABRIC_DONE_ARRIVAL (R482). -/
  | fabricDoneArrival (p : FabPkt)
  /-- LAYOUT_SHADOW_WRITE (R450). -/
  | layoutShadowWrite (l : LayoutRec)
  /-- LGEN_WRITE (R451). -/
  | lgenWrite (v : Nat)
  /-- LAYOUT_FLIP (R451). -/
  | layoutFlip
  /-- MGP_WATCHDOG_RESET (R452). -/
  | mgpWatchdogReset
  /-- FREQ_ANNOUNCE (R490). -/
  | freqAnnounce (island level : Nat)
  /-- FREQ_STEP (R490). -/
  | freqStep (island : Nat)
  /-- FREQ_PAUSE_END (R442). -/
  | freqPauseEnd (island : Nat)
  /-- THERMAL_LIMIT (R488). -/
  | thermalLimit (island temp : Nat)
  /-- THERMAL_SHUTDOWN (R488). -/
  | thermalShutdown (temp : Nat)
  /-- POWER_LOSS (R487). -/
  | powerLoss
  /-- COLD_START (R492). -/
  | coldStart (signed : Bool)
  /-- SCHEDULER_GO (R492). -/
  | schedulerGo (fn : Nat) (v : W64)
  /-- FUNCTION_LEVEL_RESET (R468). -/
  | functionLevelReset (fn : Nat)
  /-- NOTIFY_WRITE (R458). -/
  | notifyWrite (q off : Nat) (data : Bytes)
  /-- NOTIFY_DEFERRABLE_WRITE (R458). -/
  | notifyDeferrableWrite (q off : Nat) (data : Bytes)
  /-- APERTURE_ACCESS (R454). -/
  | apertureAccess (fn off : Nat) (len : Nat) (wr : Option Bytes)
  /-- WQCFG_WRITE (R457). -/
  | wqcfgWrite (fn q word : Nat) (v : W64)
  /-- FCTL_WRITE (R466). -/
  | fctlWrite (fn : Nat) (v : W64)
  /-- INVALIDATE_PASID (R256). -/
  | invalidatePasid (fn : Nat) (v : W64)
  /-- INVALIDATE_FUNCTION (R256). -/
  | invalidateFunction (fn : Nat) (v : W64)
  /-- INVALIDATE_RANGE (R256). -/
  | invalidateRange (fn : Nat) (v : W64)
  /-- FRMADD (R408). -/
  | frmadd (fn : Nat) (v : W64)
  /-- PEELREC_POST (R412). -/
  | peelrecPost (fn : Nat) (v : W64)
  /-- PEELREC_PARTITION_EVICTION (R425). -/
  | peelrecPartitionEviction (fn : Nat) (v : W64)
  /-- ATTREQ (R470). -/
  | attreq (fn : Nat) (v : W64)
  /-- ATTESTATION_COMPLETE (R470). -/
  | attestationComplete (fn : Nat)
  /-- INTERRUPT_EVENT (R466). -/
  | interruptEvent (fn vec rgen : Nat)
  /-- REGISTER_WRITE (R6). -/
  | registerWrite (fn off : Nat) (v : W64)
  /-- SCQUANT_WRITE (R208). -/
  | scquantWrite (die : Nat) (v : W64)
  /-- HINT_WRITE (R465). -/
  | hintWrite (die : Nat) (v : W64)
  /-- WQTAKE_WAKE (R197). -/
  | wqtakeWake (die : Nat)
  /-- HBM_CHANNEL_FAILURE (R250). -/
  | hbmChannelFailure (stack ch : Nat)
  /-- CHANNEL_TABLE_ANSWER (R287). -/
  | channelTableAnswer (core slot : Nat)
  /-- SCHEDULER_CONTEXT_SAVED (R425). -/
  | schedulerContextSaved (die : Nat)
  /-- DIE_TO_DIE_LINK_ERROR (R442). -/
  | dieToDieLinkError (die port cycles : Nat)
  /-- MSIX_VECTOR_UNMASK (R466). -/
  | msixVectorUnmask (fn ent : Nat)
  deriving DecidableEq, Repr

end Sys2Proof
end

