-- ==== Sys2Proof/Syntax.lean ====
section
/-! DEFINITION. The one inductive of instructions and steps: op words first, then Knead cell words, then the steps of the package
(an order the runtime asks for: it bounds the tags of constructors that code builds). -/
namespace Sys2Proof

/-- One constructor per row of spec/opcode_table.json. -/
inductive Instr where
  /-- ADD (R101). -/
  | add (o : SR)
  /-- SUB (R101). -/
  | sub (o : SR)
  /-- AND (R101). -/
  | and (o : SR)
  /-- OR (R101). -/
  | or (o : SR)
  /-- XOR (R101). -/
  | xor (o : SR)
  /-- SHL (R101). -/
  | shl (o : SR)
  /-- SHR (R101). -/
  | shr (o : SR)
  /-- SAR (R101). -/
  | sar (o : SR)
  /-- MUL (R101). -/
  | mul (o : SR)
  /-- MULH (R101). -/
  | mulh (o : SR)
  /-- MULHZ (R101). -/
  | mulhz (o : SR)
  /-- DIV (R102). -/
  | div (o : SR)
  /-- DIVZ (R102). -/
  | divz (o : SR)
  /-- REM (R102). -/
  | rem (o : SR)
  /-- REMZ (R102). -/
  | remz (o : SR)
  /-- MIN (R101). -/
  | min (o : SR)
  /-- MAX (R101). -/
  | max (o : SR)
  /-- MINZ (R101). -/
  | minz (o : SR)
  /-- MAXZ (R101). -/
  | maxz (o : SR)
  /-- SEL (R103). -/
  | sel (o : SR)
  /-- BCNT (R101). -/
  | bcnt (o : SR1)
  /-- CLZ (R101). -/
  | clz (o : SR1)
  /-- CTZ (R101). -/
  | ctz (o : SR1)
  /-- CMPEQ (R104). -/
  | cmpeq (o : SR)
  /-- CMPNE (R104). -/
  | cmpne (o : SR)
  /-- CMPLT (R104). -/
  | cmplt (o : SR)
  /-- CMPLE (R104). -/
  | cmple (o : SR)
  /-- CMPLTZ (R104). -/
  | cmpltz (o : SR)
  /-- CMPLEZ (R104). -/
  | cmplez (o : SR)
  /-- ADDI (R105). -/
  | addi (o : SI)
  /-- ADDI_LIMM (R105). -/
  | addiLimm (o : SIL)
  /-- ANDI (R105). -/
  | andi (o : SI)
  /-- ANDI_LIMM (R105). -/
  | andiLimm (o : SIL)
  /-- ORI (R105). -/
  | ori (o : SI)
  /-- ORI_LIMM (R105). -/
  | oriLimm (o : SIL)
  /-- XORI (R105). -/
  | xori (o : SI)
  /-- XORI_LIMM (R105). -/
  | xoriLimm (o : SIL)
  /-- SHLI (R105). -/
  | shli (o : SI)
  /-- SHLI_LIMM (R105). -/
  | shliLimm (o : SIL)
  /-- SHRI (R105). -/
  | shri (o : SI)
  /-- SHRI_LIMM (R105). -/
  | shriLimm (o : SIL)
  /-- SARI (R105). -/
  | sari (o : SI)
  /-- SARI_LIMM (R105). -/
  | sariLimm (o : SIL)
  /-- MULI (R105). -/
  | muli (o : SI)
  /-- MULI_LIMM (R105). -/
  | muliLimm (o : SIL)
  /-- MOVL (R106). -/
  | movl (d : BitVec 6) (imm : BitVec 13)
  /-- MOVL_LIMM (R106). -/
  | movlLimm (d : BitVec 6) (imm : BitVec 32)
  /-- MOVH (R106). -/
  | movh (o : SI)
  /-- MOVH_LIMM (R106). -/
  | movhLimm (o : SIL)
  /-- CMPEQI (R107). -/
  | cmpeqi (o : SI)
  /-- CMPEQI_LIMM (R107). -/
  | cmpeqiLimm (o : SIL)
  /-- CMPLTI (R107). -/
  | cmplti (o : SI)
  /-- CMPLTI_LIMM (R107). -/
  | cmpltiLimm (o : SIL)
  /-- LDG (R110). -/
  | ldg (o : SM)
  /-- LDG_OFF32 (R110). -/
  | ldgOff32 (o : SMX)
  /-- STG (R111). -/
  | stg (o : SM)
  /-- STG_OFF32 (R111). -/
  | stgOff32 (o : SMX)
  /-- LDS (R109). -/
  | lds (o : SM)
  /-- LDS_OFF32 (R109). -/
  | ldsOff32 (o : SMX)
  /-- STS (R109). -/
  | sts (o : SM)
  /-- STS_OFF32 (R109). -/
  | stsOff32 (o : SMX)
  /-- LDF (R233). -/
  | ldf (o : SF)
  /-- LDF_OFF32 (R233). -/
  | ldfOff32 (o : SFX)
  /-- STE (R233). -/
  | ste (o : SF)
  /-- STE_OFF32 (R233). -/
  | steOff32 (o : SFX)
  /-- LDFF (R233). -/
  | ldff (o : SF)
  /-- LDFF_OFF32 (R233). -/
  | ldffOff32 (o : SFX)
  /-- ATOM (R238). -/
  | atom (o : SA)
  /-- ATOMG (R239). -/
  | atomg (o : SA)
  /-- RADD (R240). -/
  | radd (o : SA)
  /-- BR (R114). -/
  | br (o : SB)
  /-- CALL (R115). -/
  | call (o : SB)
  /-- JR (R116). -/
  | jr (ba : Bool) (a : BitVec 6) (g : BitVec 5)
  /-- LOOP (R119). -/
  | loop (o : SL)
  /-- LAUNCH (R198). -/
  | launch (d : BitVec 6) (ba : Bool) (a : BitVec 6) (g : BitVec 5)
  /-- NOP (R131). -/
  | nop
  /-- HALT (R132). -/
  | halt
  /-- TRAP (R389). -/
  | trap (n : BitVec 8)
  /-- ERET (R389). -/
  | eret (t : Bool)
  /-- SYSR (R128). -/
  | sysr (d : BitVec 6) (f : BitVec 8)
  /-- SYSW (R128). -/
  | sysw (a : BitVec 6) (f : BitVec 8)
  /-- FENCE (R268). -/
  | fence (r c : Bool)
  /-- SYNC (R213). -/
  | sync
  /-- WAITC (R330). -/
  | waitc (p : Bool) (c : BitVec 6)
  /-- WAITC_POLL (R330). -/
  | waitcPoll (d : BitVec 6) (c : BitVec 6)
  /-- CTRINIT (R327). -/
  | ctrinit (a : BitVec 6) (m : Bool) (c : BitVec 6)
  /-- CTRPOST (R328). -/
  | ctrpost (a : BitVec 6) (c : BitVec 6)
  /-- QCFG (R123). -/
  | qcfg (a : BitVec 6) (q : BitVec 3)
  /-- QRESET (R124). -/
  | qreset (q : BitVec 3)
  /-- QSPLICE (R219). -/
  | qsplice (a : BitVec 6) (q : BitVec 3)
  /-- QACCEPT (R219). -/
  | qaccept (a : BitVec 6) (q : BitVec 3)
  /-- QUNSPLICE (R220). -/
  | qunsplice (q : BitVec 3)
  /-- QOCC (R125). -/
  | qocc (d : BitVec 6) (q : BitVec 3)
  /-- QRD (R126). -/
  | qrd (d : BitVec 6) (q : BitVec 3)
  /-- QWR (R127). -/
  | qwr (a : BitVec 6) (q : BitVec 3)
  /-- LSET (R301). -/
  | lset (a : BitVec 6) (l : BitVec 3) (f : BitVec 5)
  /-- LGET (R301). -/
  | lget (d : BitVec 6) (l : BitVec 3) (f : BitVec 5)
  /-- LDLAY (R302). -/
  | ldlay (a : BitVec 6) (l : BitVec 3)
  /-- STLAY (R302). -/
  | stlay (a : BitVec 6) (l : BitVec 3)
  /-- RTSET (R331). -/
  | rtset (a : BitVec 6) (e : BitVec 5)
  /-- RTCLR (R331). -/
  | rtclr (e : BitVec 5)
  /-- RTWM (R334). -/
  | rtwm (d : BitVec 6) (e : BitVec 5)
  /-- PAND (R121). -/
  | pand (d a : BitVec 6) (b : BitVec 5)
  /-- POR (R121). -/
  | por (d a : BitVec 6) (b : BitVec 5)
  /-- PXOR (R121). -/
  | pxor (d a : BitVec 6) (b : BitVec 5)
  /-- PNOT (R121). -/
  | pnot (d a : BitVec 6)
  /-- PMOVS (R121). -/
  | pmovs (d a : BitVec 6)
  /-- PMOVP (R121). -/
  | pmovp (d a : BitVec 6)
  /-- PSETA (R121). -/
  | pseta (d a : BitVec 6)
  /-- CHOPEN (R283). -/
  | chopen (d a : BitVec 6)
  /-- CHCLOSE (R285). -/
  | chclose (d a : BitVec 6) (f : Bool)
  /-- CHSTAT (R286). -/
  | chstat (d a : BitVec 6) (n : BitVec 3)
  /-- FENCEREC (R428). -/
  | fencerec (d a : BitVec 6)
  /-- PEELPOST (R410). -/
  | peelpost (d a : BitVec 6)
  /-- WQTAKE (R197). -/
  | wqtake (d a : BitVec 6) (any wait : Bool)
  /-- KNBIND (R362). -/
  | knbind (d a : BitVec 6) (h : Bool)
  /-- KNLOAD (R361). -/
  | knload (d a : BitVec 6) (n : BitVec 2) (h : Bool)
  /-- KNDICT (R360). -/
  | kndict (d a : BitVec 6) (h : Bool)
  /-- KNUNBIND (R363). -/
  | knunbind (d a : BitVec 6) (x h : Bool)
  /-- VADD (R142). -/
  | vadd (o : VT)
  /-- VSUB (R142). -/
  | vsub (o : VT)
  /-- VMUL (R142). -/
  | vmul (o : VT)
  /-- VMIN (R142). -/
  | vmin (o : VT)
  /-- VMAX (R142). -/
  | vmax (o : VT)
  /-- VFMA (R143). -/
  | vfma (o : VT) (c : QSpec)
  /-- VFMS (R143). -/
  | vfms (o : VT) (c : QSpec)
  /-- VABS (R144). -/
  | vabs (o : VU)
  /-- VNEG (R144). -/
  | vneg (o : VU)
  /-- VRCP (R145). -/
  | vrcp (o : VU)
  /-- VRSQ (R145). -/
  | vrsq (o : VU)
  /-- VEXP2 (R145). -/
  | vexp2 (o : VU)
  /-- VLOG2 (R145). -/
  | vlog2 (o : VU)
  /-- VSIG (R145). -/
  | vsig (o : VU)
  /-- VTANH (R145). -/
  | vtanh (o : VU)
  /-- VIADD (R147). -/
  | viadd (o : VT)
  /-- VISUB (R147). -/
  | visub (o : VT)
  /-- VIMUL (R147). -/
  | vimul (o : VT)
  /-- VIMIN (R147). -/
  | vimin (o : VT)
  /-- VIMAX (R147). -/
  | vimax (o : VT)
  /-- VAND (R147). -/
  | vand (o : VT)
  /-- VOR (R147). -/
  | vor (o : VT)
  /-- VXOR (R147). -/
  | vxor (o : VT)
  /-- VSHL (R147). -/
  | vshl (o : VT)
  /-- VSHR (R147). -/
  | vshr (o : VT)
  /-- VSAR (R147). -/
  | vsar (o : VT)
  /-- VIADDS (R147). -/
  | viadds (o : VT)
  /-- VCMPEQ (R149). -/
  | vcmpeq (p : BitVec 5) (a b : QSpec)
  /-- VCMPLT (R149). -/
  | vcmplt (p : BitVec 5) (a b : QSpec)
  /-- VCMPLE (R149). -/
  | vcmple (p : BitVec 5) (a b : QSpec)
  /-- VSEL (R148). -/
  | vsel (o : VT)
  /-- VMOV (R151). -/
  | vmov (o : VC)
  /-- VCVTZ (R151). -/
  | vcvtz (o : VC)
  /-- VPACK (R151). -/
  | vpack (o : VC)
  /-- VUNPK (R151). -/
  | vunpk (o : VC)
  /-- VBCAST (R152). -/
  | vbcast (o : VN)
  /-- VIOTA (R153). -/
  | viota (o : VN)
  /-- VSHUF (R154). -/
  | vshuf (o : VT)
  /-- VROT (R155). -/
  | vrot (o : VS)
  /-- VRSUM (R156). -/
  | vrsum (o : VU)
  /-- VRMAX (R156). -/
  | vrmax (o : VU)
  /-- VRMIN (R156). -/
  | vrmin (o : VU)
  /-- VLDS (R157). -/
  | vlds (o : VN)
  /-- VSTS (R157). -/
  | vsts (o : VW)
  /-- VGATH (R158). -/
  | vgath (o : VS)
  /-- VSCAT (R159). -/
  | vscat (o : VS)
  /-- VRACC (R160). -/
  | vracc (o : VN)
  /-- VWACC (R160). -/
  | vwacc (o : VW)
  /-- MLDB (R170). -/
  | mldb (a : QSpec) (b : BitVec 2) (sg : BitVec 4)
  /-- MLDBW (R171). -/
  | mldbw (bs : Bool) (r : BitVec 6) (t : BitVec 4) (b : BitVec 2) (sg : BitVec 4)
  /-- MMUL (R172). -/
  | mmul (a : QSpec) (c : BitVec 9) (b : BitVec 2) (sg : BitVec 4)
  /-- MMAC (R172). -/
  | mmac (a : QSpec) (c : BitVec 9) (b : BitVec 2) (sg : BitVec 4)
  /-- MZERO (R173). -/
  | mzero (c : BitVec 9) (sg : BitVec 4)
  /-- MSETX (R173). -/
  | msetx (x : BitVec 8) (c : BitVec 9) (sg : BitVec 4)
  /-- MSCL (R174). -/
  | mscl (x : BitVec 8) (c : BitVec 9) (sg : BitVec 4)
  /-- MRDOUT (R176). -/
  | mrdout (q : BitVec 3) (c : BitVec 9) (sg : BitVec 4)
  /-- MCVT (R177). -/
  | mcvt (a : QSpec) (q : BitVec 3) (sg : BitVec 4)
  /-- MREQ (R178). -/
  | mreq (a : QSpec) (q : BitVec 3) (t : Bool) (sg : BitVec 4)
  /-- MTRN (R179). -/
  | mtrn (a : QSpec) (q : BitVec 3) (sg : BitVec 4)
  /-- MACCCP (R175). -/
  | macccp (m c : BitVec 9) (sg : BitVec 4)
  /-- CLDQ (R312). -/
  | cldq (o : CQ)
  /-- CSTQ (R312). -/
  | cstq (o : CQ)
  /-- CLDS (R313). -/
  | clds (o : CN)
  /-- CSTS (R313). -/
  | csts (o : CN)
  /-- CCPY (R314). -/
  | ccpy (o : CQ)
  /-- CRED (R315). -/
  | cred (o : CQ)
  /-- CRWR (R316). -/
  | crwr (o : CQ)
  /-- CHWR (R288). -/
  | chwr (l q : BitVec 3) (s : BitVec 6) (rel : Bool) (sg : BitVec 4)
  /-- CHRD (R289). -/
  | chrd (l q : BitVec 3) (s : BitVec 6) (acq : Bool) (sg : BitVec 4)
  /-- CPREF (R317). -/
  | cpref (o : CN)
  /-- CWS (R318). -/
  | cws (o : CN)
  /-- CFRED (R480). -/
  | cfred (l q : BitVec 3) (s c : BitVec 6) (rel np : Bool) (sg : BitVec 4)
  /-- CBCAST (R319). -/
  | cbcast (o : CN)
  /-- CZERO (R320). -/
  | czero (o : CN)
  /-- KN_NOP (R343). -/
  | knNop (at_ : CellLoc) (w : CellWord)
  /-- KN_PASS (R343). -/
  | knPass (at_ : CellLoc) (w : CellWord)
  /-- KN_ADD (R343). -/
  | knAdd (at_ : CellLoc) (w : CellWord)
  /-- KN_SUB (R343). -/
  | knSub (at_ : CellLoc) (w : CellWord)
  /-- KN_MUL (R343). -/
  | knMul (at_ : CellLoc) (w : CellWord)
  /-- KN_ADDS (R343). -/
  | knAdds (at_ : CellLoc) (w : CellWord)
  /-- KN_AND (R343). -/
  | knAnd (at_ : CellLoc) (w : CellWord)
  /-- KN_OR (R343). -/
  | knOr (at_ : CellLoc) (w : CellWord)
  /-- KN_XOR (R343). -/
  | knXor (at_ : CellLoc) (w : CellWord)
  /-- KN_SHL (R343). -/
  | knShl (at_ : CellLoc) (w : CellWord)
  /-- KN_SHR (R343). -/
  | knShr (at_ : CellLoc) (w : CellWord)
  /-- KN_SAR (R343). -/
  | knSar (at_ : CellLoc) (w : CellWord)
  /-- KN_MIN (R343). -/
  | knMin (at_ : CellLoc) (w : CellWord)
  /-- KN_MAX (R343). -/
  | knMax (at_ : CellLoc) (w : CellWord)
  /-- KN_SEL (R343). -/
  | knSel (at_ : CellLoc) (w : CellWord)
  /-- KN_CMPEQ (R343). -/
  | knCmpeq (at_ : CellLoc) (w : CellWord)
  /-- KN_CMPLT (R343). -/
  | knCmplt (at_ : CellLoc) (w : CellWord)
  /-- KN_LUTL (R343). -/
  | knLutl (at_ : CellLoc) (w : CellWord)
  /-- KN_LUTH (R343). -/
  | knLuth (at_ : CellLoc) (w : CellWord)
  /-- KN_LUTN (R343). -/
  | knLutn (at_ : CellLoc) (w : CellWord)
  /-- KN_PERM (R343). -/
  | knPerm (at_ : CellLoc) (w : CellWord)
  /-- KN_FCVT (R343). -/
  | knFcvt (at_ : CellLoc) (w : CellWord)
  /-- KN_FADD (R343). -/
  | knFadd (at_ : CellLoc) (w : CellWord)
  /-- KN_FMUL (R343). -/
  | knFmul (at_ : CellLoc) (w : CellWord)
  /-- KN_FMAX (R343). -/
  | knFmax (at_ : CellLoc) (w : CellWord)
  /-- KN_TAKE (R343). -/
  | knTake (at_ : CellLoc) (w : CellWord)
  /-- WIDE_BUNDLE_ISSUE (R22). -/
  | wideBundleIssue (core : Nat)
  /-- SINGLE_OP_BUNDLE_ISSUE (R33). -/
  | singleOpBundleIssue (core : Nat)
  /-- CHECKPOINT_BUNDLE (R378). -/
  | checkpointBundle (core : Nat)
  /-- OPERATOR_BOUNDARY_BUNDLE (R403). -/
  | operatorBoundaryBundle (core : Nat)
  /-- QUEUE_ENTRY_ARRIVAL (R20). -/
  | queueEntryArrival (a : QArr)
  /-- SCALAR_RESULT_ARRIVAL (R13). -/
  | scalarResultArrival (core tk : Nat) (v : W64)
  /-- ATOMIC_RESULT_ARRIVAL (R241). -/
  | atomicResultArrival (core tk : Nat) (v : W64) (clk : List Nat)
  /-- ROLLBACK_COMPLETE (R384). -/
  | rollbackComplete (core : Nat)
  /-- ASYNC_FAULT_TAKEN (R243). -/
  | asyncFaultTaken (core : Nat)
  /-- REMOTE_ATOM_REJECTION (R243). -/
  | remoteAtomRejection (core : Nat) (r : Reject)
  /-- ABANDONMENT_REPORT (R390). -/
  | abandonmentReport (die : Nat)
  /-- HANG_WATCHDOG (R391). -/
  | hangWatchdog (core : Nat)
  /-- OPERATOR_BOUND_EXCEEDED (R392). -/
  | operatorBoundExceeded (core : Nat)
  /-- MACHINE_ROLLBACK (R399). -/
  | machineRollback (core : Nat)
  /-- SINGLE_OP_ERROR_RETRY (R400). -/
  | singleOpErrorRetry (core : Nat)
  /-- CORRECTABLE_ERROR (R397). -/
  | correctableError (word : Nat)
  /-- LOSS_OF_STORED_STATE (R398). -/
  | lossOfStoredState (what : Loss)
  /-- PARTITION_RESET (R401). -/
  | partitionReset (part cause : Nat) (failed : List Nat)
  /-- GANG_PLACEMENT (R208). -/
  | gangPlacement (die : Nat)
  /-- SCOREBOARD_AGE_LIMIT (R208). -/
  | scoreboardAgeLimit (die e : Nat)
  /-- DEPENDENCE_SATISFIED (R203). -/
  | dependenceSatisfied (die e k : Nat)
  /-- WORK_ITEM_START (R206). -/
  | workItemStart (cores : List Nat)
  /-- WORK_ITEM_END (R204). -/
  | workItemEnd (core : Nat)
  /-- CORE_FREE (R204). -/
  | coreFree (core : Nat)
  /-- LAUNCH_SUBMISSION_ACCEPT (R200). -/
  | launchSubmissionAccept (core : Nat)
  /-- SYNC_LINE_COMPLETE (R212). -/
  | syncLineComplete (die line : Nat)
  /-- SYNC_RESTART (R213). -/
  | syncRestart (die line : Nat)
  /-- SPLICE_ACCEPTANCE_ARRIVAL (R221). -/
  | spliceAcceptanceArrival (m : SplMsg)
  /-- SPLICE_CREDIT_ARRIVAL (R221). -/
  | spliceCreditArrival (m : SplMsg)
  /-- SPLICE_CLOSE_ARRIVAL (R221). -/
  | spliceCloseArrival (m : SplMsg)
  /-- SPLICE_ENTRY_SHIP (R222). -/
  | spliceEntryShip (core q : Nat)
  /-- SPLICE_ENTRY_DELIVERY (R223). -/
  | spliceEntryDelivery (m : SplMsg) (data : Bytes)
  /-- SPLICE_CLOSE_SEND (R221). -/
  | spliceCloseSend (core q : Nat)
  /-- EXPORTED_WRITE_APPLY (R263). -/
  | exportedWriteApply (die : Nat) (w : Export)
  /-- DIRECTED_PACKET_PERFORM (R263). -/
  | directedPacketPerform (p : Directed)
  /-- HOME_SLICE_ACCESS (R245). -/
  | homeSliceAccess (a : Access)
  /-- HOME_SLICE_ATOMIC (R240). -/
  | homeSliceAtomic (a : AtomReq)
  /-- REMOTE_ATOM_APPLY (R238). -/
  | remoteAtomApply (a : AtomReq)
  /-- RELEASE_COMPLETE (R266). -/
  | releaseComplete (core : Nat)
  /-- PAGE_WALK_COMPLETE (R253). -/
  | pageWalkComplete (w : WalkReq)
  /-- INVALIDATION_COMPLETE (R256). -/
  | invalidationComplete (fn : Nat)
  /-- REFRESH_WINDOW_START (R248). -/
  | refreshWindowStart
  /-- REFRESH_WINDOW_END (R248). -/
  | refreshWindowEnd
  /-- WEIGHT_STORE_WRITE_PERFORM (R249). -/
  | weightStoreWritePerform (die : Nat)
  /-- BANK_LOAD_COMPLETE (R164). -/
  | bankLoadComplete (core bank : Nat)
  /-- BANK_COMPUTE_COMPLETE (R164). -/
  | bankComputeComplete (core bank : Nat)
  /-- TILE_WRITE_COMPLETE (R32). -/
  | tileWriteComplete (core tile : Nat)
  /-- REPEAT_ITERATION_START (R180). -/
  | repeatIterationStart (core : Nat)
  /-- COPY_COMMAND_START (R309). -/
  | copyCommandStart (core id : Nat)
  /-- COPY_DATA_RETURN (R304). -/
  | copyDataReturn (core id k : Nat)
  /-- COPY_COMMAND_COMPLETE (R310). -/
  | copyCommandComplete (core id : Nat)
  /-- COUNTER_POST (R324). -/
  | counterPost (p : Post)
  /-- REMOTE_WRITE_DELIVERY (R316). -/
  | remoteWriteDelivery (w : RWrite)
  /-- BROADCAST_DELIVERY (R319). -/
  | broadcastDelivery (w : RWrite)
  /-- CHANNEL_APPEND (R291). -/
  | channelAppend (a : ChAppend)
  /-- CHANNEL_DELIVERY (R289). -/
  | channelDelivery (d : ChRead)
  /-- SPILL_REFILL (R291). -/
  | spillRefill (ch : Nat)
  /-- CHANNEL_REPORT_ARRIVAL (R292). -/
  | channelReportArrival (core ch : Nat) (r : ChReport)
  /-- CHANNEL_CLOSE_NOTICE (R285). -/
  | channelCloseNotice (core ch : Nat)
  /-- PROOFER_DETECTION (R295). -/
  | prooferDetection (part : Nat)
  /-- CHANNEL_GROWTH (R295). -/
  | channelGrowth (part ch lowest : Nat)
  /-- PEEL_DECISION (R414). -/
  | peelDecision (post : Nat)
  /-- PEEL_CONVERSION (R416). -/
  | peelConversion (group : Nat)
  /-- PEEL_RUN_PARK (R417). -/
  | peelRunPark (core : Nat)
  /-- DRAIN_POINT (R418). -/
  | drainPoint (core : Nat)
  /-- CKPT_SAVE_COMPLETE (R418). -/
  | ckptSaveComplete (core : Nat)
  /-- DISCARD_COMPLETE (R419). -/
  | discardComplete (core : Nat)
  /-- GROUP_RESUME_PLACEMENT (R420). -/
  | groupResumePlacement (group : Nat)
  /-- RESTORE_COMPLETE (R420). -/
  | restoreComplete (group : Nat)
  /-- FLIT_ROUTE (R338). -/
  | flitRoute (arr col row port : Nat)
  /-- RECORD_START (R344). -/
  | recordStart (arr ent : Nat)
  /-- RECORD_QUIESCENCE (R344). -/
  | recordQuiescence (arr ent col : Nat)
  /-- RECORD_TIME_LIMIT (R345). -/
  | recordTimeLimit (arr ent col : Nat)
  /-- KNEAD_RECORD_REQUEST (R355). -/
  | kneadRecordRequest (a : Access)
  /-- KNEAD_VIEW_LINE_DELIVERY (R355). -/
  | kneadViewLineDelivery (arr ent rcd : Nat) (data : Bytes)
  /-- COLLECTION_WRITE (R356). -/
  | collectionWrite (w : CollWrite)
  /-- KNEAD_WINDOW_START (R352). -/
  | kneadWindowStart
  /-- KNEAD_WINDOW_END (R352). -/
  | kneadWindowEnd
  /-- SLOT_LOAD_COMPLETE (R351). -/
  | slotLoadComplete (arr slot : Nat)
  /-- BINDING_ACTIVATE (R358). -/
  | bindingActivate (arr ent : Nat)
  /-- BINDING_DRAIN_COMPLETE (R358). -/
  | bindingDrainComplete (arr ent : Nat)
  /-- PACKET_GRANT (R439). -/
  | packetGrant (unit port : Nat)
  /-- VC_AGE_PROMOTION (R439). -/
  | vcAgePromotion (unit port : Nat)
  /-- LANE_GROUP_DROP (R443). -/
  | laneGroupDrop (die port : Nat)
  /-- TUINIL_FLIT_RECEIVE (R473). -/
  | tuinilFlitReceive (port : Nat) (f : Flit)
  /-- TUINIL_NAK_RECEIVE (R473). -/
  | tuinilNakReceive (port ack : Nat)
  /-- TUINIL_LANE_DROP (R473). -/
  | tuinilLaneDrop (port : Nat)
  /-- FABRIC_RESULT_DELIVERY (R481). -/
  | fabricResultDelivery (p : FabPkt)
  /-- FABRIC_DONE_ARRIVAL (R482). -/
  | fabricDoneArrival (p : FabPkt)
  /-- LAYOUT_SHADOW_WRITE (R450). -/
  | layoutShadowWrite (l : LayoutRec)
  /-- LGEN_WRITE (R451). -/
  | lgenWrite (v : Nat)
  /-- LAYOUT_FLIP (R451). -/
  | layoutFlip
  /-- MGP_WATCHDOG_RESET (R452). -/
  | mgpWatchdogReset
  /-- FREQ_ANNOUNCE (R490). -/
  | freqAnnounce (island level : Nat)
  /-- FREQ_STEP (R490). -/
  | freqStep (island : Nat)
  /-- FREQ_PAUSE_END (R442). -/
  | freqPauseEnd (island : Nat)
  /-- THERMAL_LIMIT (R488). -/
  | thermalLimit (island temp : Nat)
  /-- THERMAL_SHUTDOWN (R488). -/
  | thermalShutdown (temp : Nat)
  /-- POWER_LOSS (R487). -/
  | powerLoss
  /-- COLD_START (R492). -/
  | coldStart (signed : Bool)
  /-- SCHEDULER_GO (R492). -/
  | schedulerGo (fn : Nat) (v : W64)
  /-- FUNCTION_LEVEL_RESET (R468). -/
  | functionLevelReset (fn : Nat)
  /-- NOTIFY_WRITE (R458). -/
  | notifyWrite (q off : Nat) (data : Bytes)
  /-- NOTIFY_DEFERRABLE_WRITE (R458). -/
  | notifyDeferrableWrite (q off : Nat) (data : Bytes)
  /-- APERTURE_ACCESS (R454). -/
  | apertureAccess (fn off : Nat) (len : Nat) (wr : Option Bytes)
  /-- WQCFG_WRITE (R457). -/
  | wqcfgWrite (fn q word : Nat) (v : W64)
  /-- FCTL_WRITE (R466). -/
  | fctlWrite (fn : Nat) (v : W64)
  /-- INVALIDATE_PASID (R256). -/
  | invalidatePasid (fn : Nat) (v : W64)
  /-- INVALIDATE_FUNCTION (R256). -/
  | invalidateFunction (fn : Nat) (v : W64)
  /-- INVALIDATE_RANGE (R256). -/
  | invalidateRange (fn : Nat) (v : W64)
  /-- FRMADD (R408). -/
  | frmadd (fn : Nat) (v : W64)
  /-- PEELREC_POST (R412). -/
  | peelrecPost (fn : Nat) (v : W64)
  /-- PEELREC_PARTITION_EVICTION (R425). -/
  | peelrecPartitionEviction (fn : Nat) (v : W64)
  /-- ATTREQ (R470). -/
  | attreq (fn : Nat) (v : W64)
  /-- ATTESTATION_COMPLETE (R470). -/
  | attestationComplete (fn : Nat)
  /-- INTERRUPT_EVENT (R466). -/
  | interruptEvent (fn vec rgen : Nat)
  /-- REGISTER_WRITE (R6). -/
  | registerWrite (fn off : Nat) (v : W64)
  /-- SCQUANT_WRITE (R208). -/
  | scquantWrite (die : Nat) (v : W64)
  /-- HINT_WRITE (R465). -/
  | hintWrite (die : Nat) (v : W64)
  /-- WQTAKE_WAKE (R197). -/
  | wqtakeWake (die : Nat)
  /-- HBM_CHANNEL_FAILURE (R250). -/
  | hbmChannelFailure (stack ch : Nat)
  /-- CHANNEL_TABLE_ANSWER (R287). -/
  | channelTableAnswer (core slot : Nat)
  /-- SCHEDULER_CONTEXT_SAVED (R425). -/
  | schedulerContextSaved (die : Nat)
  /-- DIE_TO_DIE_LINK_ERROR (R442). -/
  | dieToDieLinkError (die port cycles : Nat)
  /-- MSIX_VECTOR_UNMASK (R466). -/
  | msixVectorUnmask (fn ent : Nat)
  deriving DecidableEq, Repr

end Sys2Proof
end

