-- ==== Sys2Proof/Decode.lean ====
section
/-! DEFINITION. The decoder and encoder of op words (R79 to R86) and of Knead cell words (R341). A decode error is
the fault code that R79 reports; within a word the reserved-field checks (0x03) come before the operand checks (0x04). -/
namespace Sys2Proof

/-- A Bool as one bit. -/
abbrev bit1 (b : Bool) : BitVec 1 := BitVec.ofBool b

/-- The queue source specifier in the nine bits from lo (R80). -/
def decQ (w : W32) (lo : Nat) : QSpec :=
  { b := w.getLsbD (lo + 8), q := w.extractLsb' (lo + 5) 3, k := w.extractLsb' lo 5 }

/-- A guard is p0 to p23, or 31 for always (R80). -/
def guardOk (g : BitVec 5) : Bool := g.toNat < 24 || g.toNat == 31

/-- A predicate register number (R104, R121). -/
def predOk (d : BitVec 6) : Bool := d.toNat < 24

/-- An extension on an op that takes none is fault 0x04 (R85). -/
def noExt (x : Option W32) (k : Except Nat Instr) : Except Nat Instr :=
  match x with
  | none => k
  | some _ => .error 0x04

def decSRo (w : W32) : SR :=
  { d := w.extractLsb' 20 6, ba := w.getLsbD 19, a := w.extractLsb' 13 6, bb := w.getLsbD 12,
    b := w.extractLsb' 6 6, g := w.extractLsb' 1 5, w := w.getLsbD 0 }

def decSR (c : SR → Instr) (w : W32) (x : Option W32) : Except Nat Instr :=
  if guardOk (w.extractLsb' 1 5) then noExt x (.ok (c (decSRo w))) else .error 0x04

def decCmp (c : SR → Instr) (w : W32) (x : Option W32) : Except Nat Instr :=
  if predOk (w.extractLsb' 20 6) && guardOk (w.extractLsb' 1 5) then noExt x (.ok (c (decSRo w))) else .error 0x04

def decSR1 (c : SR1 → Instr) (w : W32) (x : Option W32) : Except Nat Instr :=
  if w.extractLsb' 6 7 != 0 then .error 0x03
  else if guardOk (w.extractLsb' 1 5) then
    noExt x (.ok (c { d := w.extractLsb' 20 6, ba := w.getLsbD 19, a := w.extractLsb' 13 6, g := w.extractLsb' 1 5, w := w.getLsbD 0 }))
  else .error 0x04

def decSIo (w : W32) : SI :=
  { d := w.extractLsb' 20 6, ba := w.getLsbD 19, a := w.extractLsb' 13 6, imm := w.extractLsb' 0 13 }

def decSILo (w x : W32) : SIL :=
  { d := w.extractLsb' 20 6, ba := w.getLsbD 19, a := w.extractLsb' 13 6, imm := x }

/-- S.I: the short immediate, or a LIMM beside a zero short field (R85). -/
def decSI (c : SI → Instr) (cl : SIL → Instr) (w : W32) (x : Option W32) : Except Nat Instr :=
  match x with
  | none => .ok (c (decSIo w))
  | some e => if w.extractLsb' 0 13 != 0 then .error 0x03 else .ok (cl (decSILo w e))

/-- Shift immediates lie from 0 to 63 (R105). -/
def shImmOk (i : Int) : Bool := decide (0 ≤ i) && decide (i ≤ 63)

def decSISh (c : SI → Instr) (cl : SIL → Instr) (w : W32) (x : Option W32) : Except Nat Instr :=
  match x with
  | none => if shImmOk (w.extractLsb' 0 13).toInt then .ok (c (decSIo w)) else .error 0x04
  | some e =>
    if w.extractLsb' 0 13 != 0 then .error 0x03
    else if shImmOk e.toInt then .ok (cl (decSILo w e)) else .error 0x04

def decSICmp (c : SI → Instr) (cl : SIL → Instr) (w : W32) (x : Option W32) : Except Nat Instr :=
  match x with
  | none => if predOk (w.extractLsb' 20 6) then .ok (c (decSIo w)) else .error 0x04
  | some e =>
    if w.extractLsb' 0 13 != 0 then .error 0x03
    else if predOk (w.extractLsb' 20 6) then .ok (cl (decSILo w e)) else .error 0x04

def decMovl (w : W32) (x : Option W32) : Except Nat Instr :=
  if w.extractLsb' 13 7 != 0 then .error 0x03 else
  match x with
  | none => .ok (.movl (w.extractLsb' 20 6) (w.extractLsb' 0 13))
  | some e => if w.extractLsb' 0 13 != 0 then .error 0x03 else .ok (.movlLimm (w.extractLsb' 20 6) e)

def decSM (c : SM → Instr) (cx : SMX → Instr) (w : W32) (x : Option W32) : Except Nat Instr :=
  if w.extractLsb' 10 3 == 7#3 then .error 0x03 else
  match x with
  | none => .ok (c { d := w.extractLsb' 20 6, ba := w.getLsbD 19, a := w.extractLsb' 13 6, size := w.extractLsb' 10 3, off := w.extractLsb' 0 10 })
  | some e =>
    if w.extractLsb' 0 10 != 0 then .error 0x03
    else .ok (cx { d := w.extractLsb' 20 6, ba := w.getLsbD 19, a := w.extractLsb' 13 6, size := w.extractLsb' 10 3, off := e })

def decSF (c : SF → Instr) (cx : SFX → Instr) (w : W32) (x : Option W32) : Except Nat Instr :=
  if w.extractLsb' 10 3 == 7#3 then .error 0x03 else
  match x with
  | none =>
    if w.extractLsb' 10 3 != 6#3 then .error 0x04
    else .ok (c { d := w.extractLsb' 20 6, ba := w.getLsbD 19, a := w.extractLsb' 13 6, off := w.extractLsb' 0 10 })
  | some e =>
    if w.extractLsb' 0 10 != 0 then .error 0x03
    else if w.extractLsb' 10 3 != 6#3 then .error 0x04
    else .ok (cx { d := w.extractLsb' 20 6, ba := w.getLsbD 19, a := w.extractLsb' 13 6, off := e })

/-- Sizes 0b100, 0b101 and 0b110 (R236). -/
def atomSizeOk (z : BitVec 3) : Bool := z == 4#3 || z == 5#3 || z == 6#3

/-- The AOPs an op of the kind (0 ATOM, 1 ATOMG, 2 RADD) takes at a size (R237). -/
def aopOk (kind : Nat) (aop : BitVec 4) (z : BitVec 3) : Bool :=
  (aop.toNat < 11) && (kind != 2 || aop == 2#4 || aop == 10#4) && (aop != 10#4 || z == 4#3)

/-- REM, DIE and CORE belong to ATOM with REM = 1, c and Bc to CAS, d not to RADD (R236, R237). -/
def atomReservedOk (kind : Nat) (d : BitVec 6) (e : W32) : Bool :=
  e.extractLsb' 0 6 == 0 && (e.extractLsb' 20 8 == 0 || (kind == 0 && e.getLsbD 27)) &&
  (e.extractLsb' 6 7 == 0 || e.extractLsb' 28 4 == 1#4) && (kind != 2 || d == 0)

def decAtom (c : SA → Instr) (kind : Nat) (w : W32) (x : Option W32) : Except Nat Instr :=
  if w.extractLsb' 10 3 == 7#3 then .error 0x03 else
  match x with
  | none => if kind == 2 && w.extractLsb' 20 6 != 0 then .error 0x03 else .error 0x04
  | some e =>
    if !atomReservedOk kind (w.extractLsb' 20 6) e then .error 0x03
    else if !(atomSizeOk (w.extractLsb' 10 3) && aopOk kind (e.extractLsb' 28 4) (w.extractLsb' 10 3)) then .error 0x04
    else .ok (c { d := w.extractLsb' 20 6, ba := w.getLsbD 19, a := w.extractLsb' 13 6, size := w.extractLsb' 10 3,
                  off := w.extractLsb' 0 10, aop := e.extractLsb' 28 4, rem := e.getLsbD 27, die := e.extractLsb' 25 2,
                  core := e.extractLsb' 20 5, bv := e.getLsbD 19, v := e.extractLsb' 13 6, bc := e.getLsbD 12, c := e.extractLsb' 6 6 })

def decSB (c : SB → Instr) (w : W32) (x : Option W32) : Except Nat Instr :=
  if guardOk (w.extractLsb' 21 5) && !(w.getLsbD 20 && w.extractLsb' 21 5 == 31#5) then
    noExt x (.ok (c { g := w.extractLsb' 21 5, n := w.getLsbD 20, disp := w.extractLsb' 0 20 }))
  else .error 0x04

def decJr (w : W32) (x : Option W32) : Except Nat Instr :=
  if w.extractLsb' 20 6 != 0 || w.extractLsb' 6 7 != 0 || w.getLsbD 0 then .error 0x03
  else if guardOk (w.extractLsb' 1 5) then noExt x (.ok (.jr (w.getLsbD 19) (w.extractLsb' 13 6) (w.extractLsb' 1 5)))
  else .error 0x04

def decLaunch (w : W32) (x : Option W32) : Except Nat Instr :=
  if w.extractLsb' 6 7 != 0 || w.getLsbD 0 then .error 0x03
  else if guardOk (w.extractLsb' 1 5) then
    noExt x (.ok (.launch (w.extractLsb' 20 6) (w.getLsbD 19) (w.extractLsb' 13 6) (w.extractLsb' 1 5)))
  else .error 0x04

/-- imm13 from 1 to 4,095 (R118). -/
def loopImmOk (i : BitVec 13) : Bool := decide (1 ≤ i.toNat) && decide (i.toNat ≤ 4095)

def decLoop (w : W32) (x : Option W32) : Except Nat Instr :=
  if w.extractLsb' 20 6 != 0 then .error 0x03 else
  match x with
  | none => .error 0x04
  | some e =>
    if e.extractLsb' 0 21 != 0 then .error 0x03
    else if loopImmOk (w.extractLsb' 0 13) && e.extractLsb' 24 8 != 0 then
      .ok (.loop { ba := w.getLsbD 19, a := w.extractLsb' 13 6, imm := w.extractLsb' 0 13, ii := e.extractLsb' 24 8, sm1 := e.extractLsb' 21 3 })
    else .error 0x04

/-- System registers of each kind of core (R129). -/
def sysRegOk (ctl : Bool) (f : BitVec 8) : Bool :=
  let n := f.toNat
  n ≤ 4 || n == 6 || (8 ≤ n && n ≤ 13) || (0x10 ≤ n && n ≤ 0x12) || (0x18 ≤ n && n ≤ 0x1D) || n == 0x20 ||
  (!ctl && n == 0x21) || (ctl && 0x30 ≤ n && n ≤ 0x3F)

/-- LSET and LGET fields that exist (R301). -/
def layFieldOk (f : BitVec 5) : Bool := f.toNat != 7 && f.toNat < 26

/-- A SYS op body: zero checks on d, a and the given bits of f8, then its operand check (R81, R79). -/
def sysBody (ok3 ok4 : Bool) (x : Option W32) (i : Instr) : Except Nat Instr :=
  if !ok3 then .error 0x03 else if !ok4 then .error 0x04 else noExt x (.ok i)

/-- The SYS sub-ops (R86). -/
def decSys (ctl : Bool) (w : W32) (x : Option W32) : Except Nat Instr :=
  let d : BitVec 6 := w.extractLsb' 20 6
  let a : BitVec 6 := w.extractLsb' 14 6
  let f : BitVec 8 := w.extractLsb' 0 8
  let q : BitVec 3 := w.extractLsb' 0 3
  let c : BitVec 6 := w.extractLsb' 0 6
  let hi5 := w.extractLsb' 3 5 == 0#5
  match (w.extractLsb' 8 6).toNat with
  | 0x00 => sysBody (d == 0 && a == 0 && f == 0) true x .nop
  | 0x01 => sysBody (d == 0 && a == 0 && f == 0) true x .halt
  | 0x02 => sysBody (d == 0 && a == 0) true x (.trap f)
  | 0x03 => sysBody (d == 0 && a == 0 && w.extractLsb' 1 7 == 0#7) true x (.eret (w.getLsbD 0))
  | 0x04 => sysBody (a == 0) (sysRegOk ctl f) x (.sysr d f)
  | 0x05 => sysBody (d == 0) (sysRegOk ctl f) x (.sysw a f)
  | 0x06 => sysBody (d == 0 && a == 0 && w.extractLsb' 2 6 == 0#6) (w.extractLsb' 0 2 != 0#2) x (.fence (w.getLsbD 1) (w.getLsbD 0))
  | 0x07 => if ctl then .error 0x02 else sysBody (d == 0 && a == 0 && f == 0) true x .sync
  | 0x08 =>
    if w.getLsbD 7 then sysBody (a == 0 && !w.getLsbD 6) true x (.waitcPoll d c)
    else sysBody (d == 0 && a == 0) true x (.waitc (w.getLsbD 6) c)
  | 0x09 => sysBody (d == 0 && !w.getLsbD 7) (!(ctl && w.getLsbD 6)) x (.ctrinit a (w.getLsbD 6) c)
  | 0x0A => sysBody (d == 0 && w.extractLsb' 6 2 == 0#2) true x (.ctrpost a c)
  | 0x0B => sysBody (d == 0 && hi5) true x (.qcfg a q)
  | 0x0C => sysBody (d == 0 && a == 0 && hi5) true x (.qreset q)
  | 0x0D => sysBody (d == 0 && hi5) true x (.qsplice a q)
  | 0x0E => sysBody (d == 0 && hi5) true x (.qaccept a q)
  | 0x0F => sysBody (d == 0 && a == 0 && hi5) true x (.qunsplice q)
  | 0x10 => sysBody (a == 0 && hi5) true x (.qocc d q)
  | 0x11 => sysBody (a == 0 && hi5) true x (.qrd d q)
  | 0x12 => sysBody (d == 0 && hi5) true x (.qwr a q)
  | 0x13 => sysBody (d == 0) (layFieldOk (w.extractLsb' 0 5)) x (.lset a (w.extractLsb' 5 3) (w.extractLsb' 0 5))
  | 0x14 => sysBody (a == 0) (layFieldOk (w.extractLsb' 0 5)) x (.lget d (w.extractLsb' 5 3) (w.extractLsb' 0 5))
  | 0x15 => sysBody (d == 0 && w.extractLsb' 0 5 == 0#5) true x (.ldlay a (w.extractLsb' 5 3))
  | 0x16 => sysBody (d == 0 && w.extractLsb' 0 5 == 0#5) true x (.stlay a (w.extractLsb' 5 3))
  | 0x17 => sysBody (d == 0 && w.extractLsb' 5 3 == 0#3) true x (.rtset a (w.extractLsb' 0 5))
  | 0x18 => sysBody (d == 0 && a == 0 && w.extractLsb' 5 3 == 0#3) true x (.rtclr (w.extractLsb' 0 5))
  | 0x19 => sysBody (a == 0 && w.extractLsb' 5 3 == 0#3) true x (.rtwm d (w.extractLsb' 0 5))
  | 0x1A => sysBody (w.extractLsb' 5 3 == 0#3) (predOk d && predOk a && (w.extractLsb' 0 5).toNat < 24) x (.pand d a (w.extractLsb' 0 5))
  | 0x1B => sysBody (w.extractLsb' 5 3 == 0#3) (predOk d && predOk a && (w.extractLsb' 0 5).toNat < 24) x (.por d a (w.extractLsb' 0 5))
  | 0x1C => sysBody (w.extractLsb' 5 3 == 0#3) (predOk d && predOk a && (w.extractLsb' 0 5).toNat < 24) x (.pxor d a (w.extractLsb' 0 5))
  | 0x1D => sysBody (f == 0) (predOk d && predOk a) x (.pnot d a)
  | 0x1E => sysBody (f == 0) (predOk a) x (.pmovs d a)
  | 0x1F => sysBody (f == 0) (predOk d) x (.pmovp d a)
  | 0x20 => sysBody (f == 0) (predOk d) x (.pseta d a)
  | 0x21 => if !ctl then .error 0x02 else sysBody (f == 0) true x (.chopen d a)
  | 0x22 => if !ctl then .error 0x02 else sysBody (w.extractLsb' 1 7 == 0#7) true x (.chclose d a (w.getLsbD 0))
  | 0x23 => sysBody hi5 true x (.chstat d a q)
  | 0x24 => if !ctl then .error 0x02 else sysBody (f == 0) true x (.fencerec d a)
  | 0x25 => if !ctl then .error 0x02 else sysBody (f == 0) true x (.peelpost d a)
  | 0x26 => if !ctl then .error 0x02 else sysBody (w.extractLsb' 2 6 == 0#6) true x (.wqtake d a (w.getLsbD 1) (w.getLsbD 0))
  | 0x27 => if !ctl then .error 0x02 else sysBody (w.extractLsb' 1 7 == 0#7) true x (.knbind d a (w.getLsbD 0))
  | 0x28 => if !ctl then .error 0x02 else sysBody hi5 true x (.knload d a (w.extractLsb' 1 2) (w.getLsbD 0))
  | 0x29 => if !ctl then .error 0x02 else sysBody (w.extractLsb' 1 7 == 0#7) true x (.kndict d a (w.getLsbD 0))
  | 0x2A => if !ctl then .error 0x02 else sysBody (w.extractLsb' 2 6 == 0#6) true x (.knunbind d a (w.getLsbD 1) (w.getLsbD 0))
  | _ => .error 0x02

def decVTo (w : W32) : VT :=
  { q := w.extractLsb' 23 3, a := decQ w 14, b := decQ w 5, g := w.extractLsb' 0 5 }

def decVT (c : VT → Instr) (w : W32) (x : Option W32) : Except Nat Instr :=
  if guardOk (w.extractLsb' 0 5) then noExt x (.ok (c (decVTo w))) else .error 0x04

/-- VFMA and VFMS require a QSRC extension whose bits [31:9] are zero (R85, R143). -/
def decVF (c : VT → QSpec → Instr) (w : W32) (x : Option W32) : Except Nat Instr :=
  match x with
  | none => .error 0x04
  | some e =>
    if e.extractLsb' 9 23 != 0 then .error 0x03
    else if guardOk (w.extractLsb' 0 5) then .ok (c (decVTo w) (decQ e 0)) else .error 0x04

def decVU (c : VU → Instr) (w : W32) (x : Option W32) : Except Nat Instr :=
  if w.extractLsb' 5 9 != 0 then .error 0x03
  else if guardOk (w.extractLsb' 0 5) then noExt x (.ok (c { q := w.extractLsb' 23 3, a := decQ w 14, g := w.extractLsb' 0 5 }))
  else .error 0x04

def decVC (c : VC → Instr) (w : W32) (x : Option W32) : Except Nat Instr :=
  if w.extractLsb' 7 7 != 0 then .error 0x03
  else if guardOk (w.extractLsb' 0 5) then
    noExt x (.ok (c { q := w.extractLsb' 23 3, a := decQ w 14, usrc := w.getLsbD 6, udst := w.getLsbD 5, g := w.extractLsb' 0 5 }))
  else .error 0x04

def decVP (c : BitVec 5 → QSpec → QSpec → Instr) (w : W32) (x : Option W32) : Except Nat Instr :=
  if w.extractLsb' 0 3 != 0 then .error 0x03
  else if (w.extractLsb' 21 5).toNat < 24 then noExt x (.ok (c (w.extractLsb' 21 5) (decQ w 12) (decQ w 3)))
  else .error 0x04

def decVN (c : VN → Instr) (w : W32) (x : Option W32) : Except Nat Instr :=
  if w.extractLsb' 14 9 != 0 || w.extractLsb' 5 2 != 0 then .error 0x03
  else if guardOk (w.extractLsb' 0 5) then
    noExt x (.ok (c { q := w.extractLsb' 23 3, s := w.extractLsb' 8 6, bs := w.getLsbD 7, g := w.extractLsb' 0 5 }))
  else .error 0x04

def decVS (c : VS → Instr) (w : W32) (x : Option W32) : Except Nat Instr :=
  if w.extractLsb' 5 2 != 0 then .error 0x03
  else if guardOk (w.extractLsb' 0 5) then
    noExt x (.ok (c { q := w.extractLsb' 23 3, a := decQ w 14, s := w.extractLsb' 8 6, bs := w.getLsbD 7, g := w.extractLsb' 0 5 }))
  else .error 0x04

def decVW (c : VW → Instr) (w : W32) (x : Option W32) : Except Nat Instr :=
  if w.extractLsb' 23 3 != 0 || w.extractLsb' 5 2 != 0 then .error 0x03
  else if guardOk (w.extractLsb' 0 5) then
    noExt x (.ok (c { a := decQ w 14, s := w.extractLsb' 8 6, bs := w.getLsbD 7, g := w.extractLsb' 0 5 }))
  else .error 0x04

/-- MLDBW type codes (R169). -/
def mldbwTypeOk (t : BitVec 4) : Bool := t == 6#4 || t == 7#4 || t == 9#4 || t == 10#4 || t == 11#4

/-- M-class words (R86, R169). -/
def decodeM (w : W32) (x : Option W32) : Except Nat Instr :=
  let c : BitVec 9 := w.extractLsb' 8 9
  let b : BitVec 2 := w.extractLsb' 6 2
  let sg : BitVec 4 := w.extractLsb' 0 4
  let r45 := w.extractLsb' 4 2 == 0#2
  let r47 := w.extractLsb' 4 4 == 0#4
  match (w.extractLsb' 26 6).toNat with
  | 0x01 => sysBody (r45 && c == 0) true x (.mldb (decQ w 17) b sg)
  | 0x02 => sysBody (r45 && w.extractLsb' 12 7 == 0#7) (mldbwTypeOk (w.extractLsb' 8 4)) x
      (.mldbw (w.getLsbD 25) (w.extractLsb' 19 6) (w.extractLsb' 8 4) b sg)
  | 0x03 => sysBody r45 true x (.mmul (decQ w 17) c b sg)
  | 0x04 => sysBody r45 true x (.mmac (decQ w 17) c b sg)
  | 0x05 => sysBody (r47 && w.extractLsb' 17 9 == 0#9) true x (.mzero c sg)
  | 0x06 => sysBody (r47 && !w.getLsbD 25) true x (.msetx (w.extractLsb' 17 8) c sg)
  | 0x07 => sysBody (r47 && !w.getLsbD 25) true x (.mscl (w.extractLsb' 17 8) c sg)
  | 0x08 => sysBody (r47 && !w.getLsbD 25 && w.extractLsb' 17 5 == 0#5) true x (.mrdout (w.extractLsb' 22 3) c sg)
  | 0x09 => sysBody (w.extractLsb' 4 10 == 0#10) true x (.mcvt (decQ w 17) (w.extractLsb' 14 3) sg)
  | 0x0A => sysBody (w.extractLsb' 4 9 == 0#9) true x (.mreq (decQ w 17) (w.extractLsb' 14 3) (w.getLsbD 13) sg)
  | 0x0B => sysBody (w.extractLsb' 4 10 == 0#10) true x (.mtrn (decQ w 17) (w.extractLsb' 14 3) sg)
  | 0x0C => sysBody r47 (w.extractLsb' 17 9 != c) x (.macccp (w.extractLsb' 17 9) c sg)
  | _ => .error 0x02

/-- Bit [5] is reserved, and NP = 1 leaves ctr zero (R307). -/
def cReservedOk (w : W32) : Bool := !w.getLsbD 5 && (!w.getLsbD 4 || w.extractLsb' 8 6 == 0#6)

def decCQo (w : W32) : CQ :=
  { l := w.extractLsb' 23 3, q := w.extractLsb' 20 3, s := w.extractLsb' 14 6, c := w.extractLsb' 8 6,
    acq := w.getLsbD 7, rel := w.getLsbD 6, np := w.getLsbD 4, sg := w.extractLsb' 0 4 }

def decCQ (c : CQ → Instr) (w : W32) (x : Option W32) : Except Nat Instr :=
  sysBody (cReservedOk w) true x (c (decCQo w))

def decCNo (w : W32) : CN :=
  { l := w.extractLsb' 23 3, s := w.extractLsb' 14 6, c := w.extractLsb' 8 6,
    acq := w.getLsbD 7, rel := w.getLsbD 6, np := w.getLsbD 4, sg := w.extractLsb' 0 4 }

def decCN (c : CN → Instr) (w : W32) (x : Option W32) : Except Nat Instr :=
  sysBody (cReservedOk w && w.extractLsb' 20 3 == 0#3) true x (c (decCNo w))

/-- On a tile core CWS has NP = 1 (R318). -/
def decCws (ctl : Bool) (w : W32) (x : Option W32) : Except Nat Instr :=
  sysBody (cReservedOk w && w.extractLsb' 20 3 == 0#3) (ctl || w.getLsbD 4) x (.cws (decCNo w))

def decChwr (w : W32) (x : Option W32) : Except Nat Instr :=
  sysBody (w.extractLsb' 4 2 == 0#2 && w.extractLsb' 8 6 == 0#6) (!w.getLsbD 7) x
    (.chwr (w.extractLsb' 23 3) (w.extractLsb' 20 3) (w.extractLsb' 14 6) (w.getLsbD 6) (w.extractLsb' 0 4))

def decChrd (w : W32) (x : Option W32) : Except Nat Instr :=
  sysBody (w.extractLsb' 4 2 == 0#2 && w.extractLsb' 8 6 == 0#6) (!w.getLsbD 6) x
    (.chrd (w.extractLsb' 23 3) (w.extractLsb' 20 3) (w.extractLsb' 14 6) (w.getLsbD 7) (w.extractLsb' 0 4))

def decCfred (w : W32) (x : Option W32) : Except Nat Instr :=
  sysBody (cReservedOk w) (!w.getLsbD 7) x
    (.cfred (w.extractLsb' 23 3) (w.extractLsb' 20 3) (w.extractLsb' 14 6) (w.extractLsb' 8 6) (w.getLsbD 6) (w.getLsbD 4) (w.extractLsb' 0 4))

/-- S-class words by major opcode (R86). -/
def decodeS (ctl : Bool) (w : W32) (x : Option W32) : Except Nat Instr :=
  match (w.extractLsb' 26 6).toNat with
  | 0x00 => decSys ctl w x
  | 0x01 => decSR .add w x
  | 0x02 => decSR .sub w x
  | 0x03 => decSR .and w x
  | 0x04 => decSR .or w x
  | 0x05 => decSR .xor w x
  | 0x06 => decSR .shl w x
  | 0x07 => decSR .shr w x
  | 0x08 => decSR .sar w x
  | 0x09 => decSR .mul w x
  | 0x0A => decSR .mulh w x
  | 0x0B => decSR .mulhz w x
  | 0x0C => decSR .div w x
  | 0x0D => decSR .divz w x
  | 0x0E => decSR .rem w x
  | 0x0F => decSR .remz w x
  | 0x10 => decSR .min w x
  | 0x11 => decSR .max w x
  | 0x12 => decSR .minz w x
  | 0x13 => decSR .maxz w x
  | 0x14 => decSR .sel w x
  | 0x15 => decSR1 .bcnt w x
  | 0x16 => decSR1 .clz w x
  | 0x17 => decSR1 .ctz w x
  | 0x18 => decCmp .cmpeq w x
  | 0x19 => decCmp .cmpne w x
  | 0x1A => decCmp .cmplt w x
  | 0x1B => decCmp .cmple w x
  | 0x1C => decCmp .cmpltz w x
  | 0x1D => decCmp .cmplez w x
  | 0x20 => decSI .addi .addiLimm w x
  | 0x21 => decSI .andi .andiLimm w x
  | 0x22 => decSI .ori .oriLimm w x
  | 0x23 => decSI .xori .xoriLimm w x
  | 0x24 => decSISh .shli .shliLimm w x
  | 0x25 => decSISh .shri .shriLimm w x
  | 0x26 => decSISh .sari .sariLimm w x
  | 0x27 => decSI .muli .muliLimm w x
  | 0x28 => decMovl w x
  | 0x29 => decSI .movh .movhLimm w x
  | 0x2A => decSICmp .cmpeqi .cmpeqiLimm w x
  | 0x2B => decSICmp .cmplti .cmpltiLimm w x
  | 0x30 => decSM .ldg .ldgOff32 w x
  | 0x31 => decSM .stg .stgOff32 w x
  | 0x32 => decSM .lds .ldsOff32 w x
  | 0x33 => decSM .sts .stsOff32 w x
  | 0x34 => decSF .ldf .ldfOff32 w x
  | 0x35 => decSF .ste .steOff32 w x
  | 0x36 => decSF .ldff .ldffOff32 w x
  | 0x37 => decAtom .atom 0 w x
  | 0x38 => decAtom .atomg 1 w x
  | 0x39 => decAtom .radd 2 w x
  | 0x3A => decSB .br w x
  | 0x3B => decSB .call w x
  | 0x3C => decJr w x
  | 0x3D => decLoop w x
  | 0x3E => decLaunch w x
  | _ => .error 0x02

/-- V-class words (R86). -/
def decodeV (_ctl : Bool) (w : W32) (x : Option W32) : Except Nat Instr :=
  match (w.extractLsb' 26 6).toNat with
  | 0x01 => decVT .vadd w x
  | 0x02 => decVT .vsub w x
  | 0x03 => decVT .vmul w x
  | 0x04 => decVT .vmin w x
  | 0x05 => decVT .vmax w x
  | 0x06 => decVF .vfma w x
  | 0x07 => decVF .vfms w x
  | 0x08 => decVU .vabs w x
  | 0x09 => decVU .vneg w x
  | 0x0A => decVU .vrcp w x
  | 0x0B => decVU .vrsq w x
  | 0x0C => decVU .vexp2 w x
  | 0x0D => decVU .vlog2 w x
  | 0x0E => decVU .vsig w x
  | 0x0F => decVU .vtanh w x
  | 0x10 => decVT .viadd w x
  | 0x11 => decVT .visub w x
  | 0x12 => decVT .vimul w x
  | 0x13 => decVT .vimin w x
  | 0x14 => decVT .vimax w x
  | 0x15 => decVT .vand w x
  | 0x16 => decVT .vor w x
  | 0x17 => decVT .vxor w x
  | 0x18 => decVT .vshl w x
  | 0x19 => decVT .vshr w x
  | 0x1A => decVT .vsar w x
  | 0x1B => decVT .viadds w x
  | 0x1C => decVP .vcmpeq w x
  | 0x1D => decVP .vcmplt w x
  | 0x1E => decVP .vcmple w x
  | 0x1F => decVT .vsel w x
  | 0x20 => decVC .vmov w x
  | 0x21 => decVC .vcvtz w x
  | 0x22 => decVC .vpack w x
  | 0x23 => decVN .vbcast w x
  | 0x24 => decVN .viota w x
  | 0x25 => decVT .vshuf w x
  | 0x26 => decVS .vrot w x
  | 0x27 => decVU .vrsum w x
  | 0x28 => decVU .vrmax w x
  | 0x29 => decVU .vrmin w x
  | 0x2A => decVN .vlds w x
  | 0x2B => decVW .vsts w x
  | 0x2C => decVS .vgath w x
  | 0x2D => decVS .vscat w x
  | 0x2E => decVN .vracc w x
  | 0x2F => decVW .vwacc w x
  | 0x30 => decVC .vunpk w x
  | _ => .error 0x02

/-- C-class words (R86). -/
def decodeC (ctl : Bool) (w : W32) (x : Option W32) : Except Nat Instr :=
  match (w.extractLsb' 26 6).toNat with
  | 0x01 => decCQ .cldq w x
  | 0x02 => decCQ .cstq w x
  | 0x03 => decCN .clds w x
  | 0x04 => decCN .csts w x
  | 0x05 => decCQ .ccpy w x
  | 0x06 => decCQ .cred w x
  | 0x07 => decCQ .crwr w x
  | 0x08 => decChwr w x
  | 0x09 => decChrd w x
  | 0x0A => decCN .cpref w x
  | 0x0B => decCws ctl w x
  | 0x0C => decCfred w x
  | 0x0D => decCN .cbcast w x
  | 0x0E => decCN .czero w x
  | _ => .error 0x02

/-- An op word of class 0 S, 1 V, 2 M, 3 C (R69, R76) with its extension word if one stands beside it. -/
def decodeOp (ctl : Bool) (cls : Nat) (w : W32) (x : Option W32) : Except Nat Instr :=
  match cls with
  | 0 => decodeS ctl w x
  | 1 => if ctl then .error 0x02 else decodeV ctl w x
  | 2 => if ctl then .error 0x02 else decodeM w x
  | _ => decodeC ctl w x

/-! ## The encoder -/

def encQ (q : QSpec) : BitVec 9 := bit1 q.b ++ q.q ++ q.k

def encSR (op : BitVec 6) (o : SR) : W32 × Option W32 :=
  (op ++ o.d ++ bit1 o.ba ++ o.a ++ bit1 o.bb ++ o.b ++ o.g ++ bit1 o.w, none)
def encSR1 (op : BitVec 6) (o : SR1) : W32 × Option W32 := (op ++ o.d ++ bit1 o.ba ++ o.a ++ 0#7 ++ o.g ++ bit1 o.w, none)
def encSI (op : BitVec 6) (o : SI) : W32 × Option W32 := (op ++ o.d ++ bit1 o.ba ++ o.a ++ o.imm, none)
def encSIL (op : BitVec 6) (o : SIL) : W32 × Option W32 := (op ++ o.d ++ bit1 o.ba ++ o.a ++ 0#13, some o.imm)
def encSM (op : BitVec 6) (o : SM) : W32 × Option W32 := (op ++ o.d ++ bit1 o.ba ++ o.a ++ o.size ++ o.off, none)
def encSMX (op : BitVec 6) (o : SMX) : W32 × Option W32 := (op ++ o.d ++ bit1 o.ba ++ o.a ++ o.size ++ 0#10, some o.off)
def encSF (op : BitVec 6) (o : SF) : W32 × Option W32 := (op ++ o.d ++ bit1 o.ba ++ o.a ++ 6#3 ++ o.off, none)
def encSFX (op : BitVec 6) (o : SFX) : W32 × Option W32 := (op ++ o.d ++ bit1 o.ba ++ o.a ++ 6#3 ++ 0#10, some o.off)
def encSA (op : BitVec 6) (o : SA) : W32 × Option W32 :=
  (op ++ o.d ++ bit1 o.ba ++ o.a ++ o.size ++ o.off,
   some (o.aop ++ bit1 o.rem ++ o.die ++ o.core ++ bit1 o.bv ++ o.v ++ bit1 o.bc ++ o.c ++ 0#6))
def encSB (op : BitVec 6) (o : SB) : W32 × Option W32 := (op ++ o.g ++ bit1 o.n ++ o.disp, none)
def encSL (op : BitVec 6) (o : SL) : W32 × Option W32 := (op ++ 0#6 ++ bit1 o.ba ++ o.a ++ o.imm, some (o.ii ++ o.sm1 ++ 0#21))
def encSys (sub : BitVec 6) (d a : BitVec 6) (f : BitVec 8) : W32 × Option W32 := (0#6 ++ d ++ a ++ sub ++ f, none)
def encVT (op : BitVec 6) (o : VT) : W32 × Option W32 := (op ++ o.q ++ encQ o.a ++ encQ o.b ++ o.g, none)
def encVF (op : BitVec 6) (o : VT) (c : QSpec) : W32 × Option W32 := (op ++ o.q ++ encQ o.a ++ encQ o.b ++ o.g, some (0#23 ++ encQ c))
def encVU (op : BitVec 6) (o : VU) : W32 × Option W32 := (op ++ o.q ++ encQ o.a ++ 0#9 ++ o.g, none)
def encVC (op : BitVec 6) (o : VC) : W32 × Option W32 := (op ++ o.q ++ encQ o.a ++ 0#7 ++ bit1 o.usrc ++ bit1 o.udst ++ o.g, none)
def encVP (op : BitVec 6) (p : BitVec 5) (a b : QSpec) : W32 × Option W32 := (op ++ p ++ encQ a ++ encQ b ++ 0#3, none)
def encVN (op : BitVec 6) (o : VN) : W32 × Option W32 := (op ++ o.q ++ 0#9 ++ o.s ++ bit1 o.bs ++ 0#2 ++ o.g, none)
def encVS (op : BitVec 6) (o : VS) : W32 × Option W32 := (op ++ o.q ++ encQ o.a ++ o.s ++ bit1 o.bs ++ 0#2 ++ o.g, none)
def encVW (op : BitVec 6) (o : VW) : W32 × Option W32 := (op ++ 0#3 ++ encQ o.a ++ o.s ++ bit1 o.bs ++ 0#2 ++ o.g, none)
def encCQ (op : BitVec 6) (o : CQ) : W32 × Option W32 :=
  (op ++ o.l ++ o.q ++ o.s ++ o.c ++ bit1 o.acq ++ bit1 o.rel ++ 0#1 ++ bit1 o.np ++ o.sg, none)
def encCN (op : BitVec 6) (o : CN) : W32 × Option W32 :=
  (op ++ o.l ++ 0#3 ++ o.s ++ o.c ++ bit1 o.acq ++ bit1 o.rel ++ 0#1 ++ bit1 o.np ++ o.sg, none)

/-- The slot class, op word and extension word of an op (R80, R85, R86); none for a step that is no op word. -/
def encode : Instr → Option (Nat × W32 × Option W32)
  | .add o => some (0, encSR 0x01 o)
  | .sub o => some (0, encSR 0x02 o)
  | .and o => some (0, encSR 0x03 o)
  | .or o => some (0, encSR 0x04 o)
  | .xor o => some (0, encSR 0x05 o)
  | .shl o => some (0, encSR 0x06 o)
  | .shr o => some (0, encSR 0x07 o)
  | .sar o => some (0, encSR 0x08 o)
  | .mul o => some (0, encSR 0x09 o)
  | .mulh o => some (0, encSR 0x0A o)
  | .mulhz o => some (0, encSR 0x0B o)
  | .div o => some (0, encSR 0x0C o)
  | .divz o => some (0, encSR 0x0D o)
  | .rem o => some (0, encSR 0x0E o)
  | .remz o => some (0, encSR 0x0F o)
  | .min o => some (0, encSR 0x10 o)
  | .max o => some (0, encSR 0x11 o)
  | .minz o => some (0, encSR 0x12 o)
  | .maxz o => some (0, encSR 0x13 o)
  | .sel o => some (0, encSR 0x14 o)
  | .bcnt o => some (0, encSR1 0x15 o)
  | .clz o => some (0, encSR1 0x16 o)
  | .ctz o => some (0, encSR1 0x17 o)
  | .cmpeq o => some (0, encSR 0x18 o)
  | .cmpne o => some (0, encSR 0x19 o)
  | .cmplt o => some (0, encSR 0x1A o)
  | .cmple o => some (0, encSR 0x1B o)
  | .cmpltz o => some (0, encSR 0x1C o)
  | .cmplez o => some (0, encSR 0x1D o)
  | .addi o => some (0, encSI 0x20 o)
  | .addiLimm o => some (0, encSIL 0x20 o)
  | .andi o => some (0, encSI 0x21 o)
  | .andiLimm o => some (0, encSIL 0x21 o)
  | .ori o => some (0, encSI 0x22 o)
  | .oriLimm o => some (0, encSIL 0x22 o)
  | .xori o => some (0, encSI 0x23 o)
  | .xoriLimm o => some (0, encSIL 0x23 o)
  | .shli o => some (0, encSI 0x24 o)
  | .shliLimm o => some (0, encSIL 0x24 o)
  | .shri o => some (0, encSI 0x25 o)
  | .shriLimm o => some (0, encSIL 0x25 o)
  | .sari o => some (0, encSI 0x26 o)
  | .sariLimm o => some (0, encSIL 0x26 o)
  | .muli o => some (0, encSI 0x27 o)
  | .muliLimm o => some (0, encSIL 0x27 o)
  | .movl d i => some (0, ((0x28#6 ++ d ++ 0#7 ++ i), none))
  | .movlLimm d i => some (0, ((0x28#6 ++ d ++ 0#20), some i))
  | .movh o => some (0, encSI 0x29 o)
  | .movhLimm o => some (0, encSIL 0x29 o)
  | .cmpeqi o => some (0, encSI 0x2A o)
  | .cmpeqiLimm o => some (0, encSIL 0x2A o)
  | .cmplti o => some (0, encSI 0x2B o)
  | .cmpltiLimm o => some (0, encSIL 0x2B o)
  | .ldg o => some (0, encSM 0x30 o)
  | .ldgOff32 o => some (0, encSMX 0x30 o)
  | .stg o => some (0, encSM 0x31 o)
  | .stgOff32 o => some (0, encSMX 0x31 o)
  | .lds o => some (0, encSM 0x32 o)
  | .ldsOff32 o => some (0, encSMX 0x32 o)
  | .sts o => some (0, encSM 0x33 o)
  | .stsOff32 o => some (0, encSMX 0x33 o)
  | .ldf o => some (0, encSF 0x34 o)
  | .ldfOff32 o => some (0, encSFX 0x34 o)
  | .ste o => some (0, encSF 0x35 o)
  | .steOff32 o => some (0, encSFX 0x35 o)
  | .ldff o => some (0, encSF 0x36 o)
  | .ldffOff32 o => some (0, encSFX 0x36 o)
  | .atom o => some (0, encSA 0x37 o)
  | .atomg o => some (0, encSA 0x38 o)
  | .radd o => some (0, encSA 0x39 o)
  | .br o => some (0, encSB 0x3A o)
  | .call o => some (0, encSB 0x3B o)
  | .jr ba a g => some (0, ((0x3C#6 ++ 0#6 ++ bit1 ba ++ a ++ 0#7 ++ g ++ 0#1), none))
  | .loop o => some (0, encSL 0x3D o)
  | .launch d ba a g => some (0, ((0x3E#6 ++ d ++ bit1 ba ++ a ++ 0#7 ++ g ++ 0#1), none))
  | .nop => some (0, encSys 0x00 0 0 0#8)
  | .halt => some (0, encSys 0x01 0 0 0#8)
  | .trap n => some (0, encSys 0x02 0 0 n)
  | .eret t => some (0, encSys 0x03 0 0 (0#7 ++ bit1 t))
  | .sysr d f => some (0, encSys 0x04 d 0 f)
  | .sysw a f => some (0, encSys 0x05 0 a f)
  | .fence r c => some (0, encSys 0x06 0 0 (0#6 ++ bit1 r ++ bit1 c))
  | .sync => some (0, encSys 0x07 0 0 0#8)
  | .waitc p c => some (0, encSys 0x08 0 0 (0#1 ++ bit1 p ++ c))
  | .waitcPoll d c => some (0, encSys 0x08 d 0 (2#2 ++ c))
  | .ctrinit a m c => some (0, encSys 0x09 0 a (0#1 ++ bit1 m ++ c))
  | .ctrpost a c => some (0, encSys 0x0A 0 a (0#2 ++ c))
  | .qcfg a q => some (0, encSys 0x0B 0 a (0#5 ++ q))
  | .qreset q => some (0, encSys 0x0C 0 0 (0#5 ++ q))
  | .qsplice a q => some (0, encSys 0x0D 0 a (0#5 ++ q))
  | .qaccept a q => some (0, encSys 0x0E 0 a (0#5 ++ q))
  | .qunsplice q => some (0, encSys 0x0F 0 0 (0#5 ++ q))
  | .qocc d q => some (0, encSys 0x10 d 0 (0#5 ++ q))
  | .qrd d q => some (0, encSys 0x11 d 0 (0#5 ++ q))
  | .qwr a q => some (0, encSys 0x12 0 a (0#5 ++ q))
  | .lset a l f => some (0, encSys 0x13 0 a (l ++ f))
  | .lget d l f => some (0, encSys 0x14 d 0 (l ++ f))
  | .ldlay a l => some (0, encSys 0x15 0 a (l ++ 0#5))
  | .stlay a l => some (0, encSys 0x16 0 a (l ++ 0#5))
  | .rtset a e => some (0, encSys 0x17 0 a (0#3 ++ e))
  | .rtclr e => some (0, encSys 0x18 0 0 (0#3 ++ e))
  | .rtwm d e => some (0, encSys 0x19 d 0 (0#3 ++ e))
  | .pand d a b => some (0, encSys 0x1A d a (0#3 ++ b))
  | .por d a b => some (0, encSys 0x1B d a (0#3 ++ b))
  | .pxor d a b => some (0, encSys 0x1C d a (0#3 ++ b))
  | .pnot d a => some (0, encSys 0x1D d a 0#8)
  | .pmovs d a => some (0, encSys 0x1E d a 0#8)
  | .pmovp d a => some (0, encSys 0x1F d a 0#8)
  | .pseta d a => some (0, encSys 0x20 d a 0#8)
  | .chopen d a => some (0, encSys 0x21 d a 0#8)
  | .chclose d a f => some (0, encSys 0x22 d a (0#7 ++ bit1 f))
  | .chstat d a n => some (0, encSys 0x23 d a (0#5 ++ n))
  | .fencerec d a => some (0, encSys 0x24 d a 0#8)
  | .peelpost d a => some (0, encSys 0x25 d a 0#8)
  | .wqtake d a y w => some (0, encSys 0x26 d a (0#6 ++ bit1 y ++ bit1 w))
  | .knbind d a h => some (0, encSys 0x27 d a (0#7 ++ bit1 h))
  | .knload d a n h => some (0, encSys 0x28 d a (0#5 ++ n ++ bit1 h))
  | .kndict d a h => some (0, encSys 0x29 d a (0#7 ++ bit1 h))
  | .knunbind d a x h => some (0, encSys 0x2A d a (0#6 ++ bit1 x ++ bit1 h))
  | .vadd o => some (1, encVT 0x01 o)
  | .vsub o => some (1, encVT 0x02 o)
  | .vmul o => some (1, encVT 0x03 o)
  | .vmin o => some (1, encVT 0x04 o)
  | .vmax o => some (1, encVT 0x05 o)
  | .vfma o c => some (1, encVF 0x06 o c)
  | .vfms o c => some (1, encVF 0x07 o c)
  | .vabs o => some (1, encVU 0x08 o)
  | .vneg o => some (1, encVU 0x09 o)
  | .vrcp o => some (1, encVU 0x0A o)
  | .vrsq o => some (1, encVU 0x0B o)
  | .vexp2 o => some (1, encVU 0x0C o)
  | .vlog2 o => some (1, encVU 0x0D o)
  | .vsig o => some (1, encVU 0x0E o)
  | .vtanh o => some (1, encVU 0x0F o)
  | .viadd o => some (1, encVT 0x10 o)
  | .visub o => some (1, encVT 0x11 o)
  | .vimul o => some (1, encVT 0x12 o)
  | .vimin o => some (1, encVT 0x13 o)
  | .vimax o => some (1, encVT 0x14 o)
  | .vand o => some (1, encVT 0x15 o)
  | .vor o => some (1, encVT 0x16 o)
  | .vxor o => some (1, encVT 0x17 o)
  | .vshl o => some (1, encVT 0x18 o)
  | .vshr o => some (1, encVT 0x19 o)
  | .vsar o => some (1, encVT 0x1A o)
  | .viadds o => some (1, encVT 0x1B o)
  | .vcmpeq p a b => some (1, encVP 0x1C p a b)
  | .vcmplt p a b => some (1, encVP 0x1D p a b)
  | .vcmple p a b => some (1, encVP 0x1E p a b)
  | .vsel o => some (1, encVT 0x1F o)
  | .vmov o => some (1, encVC 0x20 o)
  | .vcvtz o => some (1, encVC 0x21 o)
  | .vpack o => some (1, encVC 0x22 o)
  | .vunpk o => some (1, encVC 0x30 o)
  | .vbcast o => some (1, encVN 0x23 o)
  | .viota o => some (1, encVN 0x24 o)
  | .vshuf o => some (1, encVT 0x25 o)
  | .vrot o => some (1, encVS 0x26 o)
  | .vrsum o => some (1, encVU 0x27 o)
  | .vrmax o => some (1, encVU 0x28 o)
  | .vrmin o => some (1, encVU 0x29 o)
  | .vlds o => some (1, encVN 0x2A o)
  | .vsts o => some (1, encVW 0x2B o)
  | .vgath o => some (1, encVS 0x2C o)
  | .vscat o => some (1, encVS 0x2D o)
  | .vracc o => some (1, encVN 0x2E o)
  | .vwacc o => some (1, encVW 0x2F o)
  | .mldb a b sg => some (2, ((0x01#6 ++ encQ a ++ 0#9 ++ b ++ 0#2 ++ sg), none))
  | .mldbw bs r ty b sg => some (2, ((0x02#6 ++ bit1 bs ++ r ++ 0#7 ++ ty ++ b ++ 0#2 ++ sg), none))
  | .mmul a c b sg => some (2, ((0x03#6 ++ encQ a ++ c ++ b ++ 0#2 ++ sg), none))
  | .mmac a c b sg => some (2, ((0x04#6 ++ encQ a ++ c ++ b ++ 0#2 ++ sg), none))
  | .mzero c sg => some (2, ((0x05#6 ++ 0#9 ++ c ++ 0#4 ++ sg), none))
  | .msetx x c sg => some (2, ((0x06#6 ++ 0#1 ++ x ++ c ++ 0#4 ++ sg), none))
  | .mscl x c sg => some (2, ((0x07#6 ++ 0#1 ++ x ++ c ++ 0#4 ++ sg), none))
  | .mrdout q c sg => some (2, ((0x08#6 ++ 0#1 ++ q ++ 0#5 ++ c ++ 0#4 ++ sg), none))
  | .mcvt a q sg => some (2, ((0x09#6 ++ encQ a ++ q ++ 0#10 ++ sg), none))
  | .mreq a q ti sg => some (2, ((0x0A#6 ++ encQ a ++ q ++ bit1 ti ++ 0#9 ++ sg), none))
  | .mtrn a q sg => some (2, ((0x0B#6 ++ encQ a ++ q ++ 0#10 ++ sg), none))
  | .macccp m c sg => some (2, ((0x0C#6 ++ m ++ c ++ 0#4 ++ sg), none))
  | .cldq o => some (3, encCQ 0x01 o)
  | .cstq o => some (3, encCQ 0x02 o)
  | .clds o => some (3, encCN 0x03 o)
  | .csts o => some (3, encCN 0x04 o)
  | .ccpy o => some (3, encCQ 0x05 o)
  | .cred o => some (3, encCQ 0x06 o)
  | .crwr o => some (3, encCQ 0x07 o)
  | .chwr l q s r sg => some (3, ((0x08#6 ++ l ++ q ++ s ++ 0#7 ++ bit1 r ++ 0#2 ++ sg), none))
  | .chrd l q s a sg => some (3, ((0x09#6 ++ l ++ q ++ s ++ 0#6 ++ bit1 a ++ 0#3 ++ sg), none))
  | .cpref o => some (3, encCN 0x0A o)
  | .cws o => some (3, encCN 0x0B o)
  | .cfred l q s c r np sg => some (3, ((0x0C#6 ++ l ++ q ++ s ++ c ++ 0#1 ++ bit1 r ++ 0#1 ++ bit1 np ++ sg), none))
  | .cbcast o => some (3, encCN 0x0D o)
  | .czero o => some (3, encCN 0x0E o)
  | _ => none

/-! ## Knead cell words -/

/-- The fields of a cell word (R341). -/
def decCellFields (w : W64) : CellWord :=
  { oe := w.getLsbD 57, re := w.getLsbD 56, regd := w.extractLsb' 53 3, sa := w.extractLsb' 49 4, sb := w.extractLsb' 45 4,
    sc := w.extractLsb' 41 4, tag := w.extractLsb' 37 4, tkeep := w.getLsbD 36, w := w.extractLsb' 34 2, mode := w.extractLsb' 30 4,
    immh := w.getLsbD 29, imm := w.extractLsb' 0 16 }

/-- The cell op a word names (R343); none for OP 0x1A to 0x3F. -/
def cellInstr (at_ : CellLoc) (op : Nat) (f : CellWord) : Option Instr :=
  match op with
  | 0x00 => some (.knNop at_ f)
  | 0x01 => some (.knPass at_ f)
  | 0x02 => some (.knAdd at_ f)
  | 0x03 => some (.knSub at_ f)
  | 0x04 => some (.knMul at_ f)
  | 0x05 => some (.knAdds at_ f)
  | 0x06 => some (.knAnd at_ f)
  | 0x07 => some (.knOr at_ f)
  | 0x08 => some (.knXor at_ f)
  | 0x09 => some (.knShl at_ f)
  | 0x0A => some (.knShr at_ f)
  | 0x0B => some (.knSar at_ f)
  | 0x0C => some (.knMin at_ f)
  | 0x0D => some (.knMax at_ f)
  | 0x0E => some (.knSel at_ f)
  | 0x0F => some (.knCmpeq at_ f)
  | 0x10 => some (.knCmplt at_ f)
  | 0x11 => some (.knLutl at_ f)
  | 0x12 => some (.knLuth at_ f)
  | 0x13 => some (.knLutn at_ f)
  | 0x14 => some (.knPerm at_ f)
  | 0x15 => some (.knFcvt at_ f)
  | 0x16 => some (.knFadd at_ f)
  | 0x17 => some (.knFmul at_ f)
  | 0x18 => some (.knFmax at_ f)
  | 0x19 => some (.knTake at_ f)
  | _ => none

/-- How many of SA, SB, SC an op reads, the widths W it permits, and whether MODE has a use (R343). -/
def cellArity (op : Nat) : Nat :=
  if op == 0 then 0
  else if op == 1 || op == 0x11 || op == 0x12 || op == 0x13 || op == 0x19 then 1
  else if op == 0x0E || op == 0x14 then 3 else 2

def cellWidthOk (op : Nat) (w : BitVec 2) : Bool :=
  if op == 0x16 || op == 0x17 || op == 0x18 then w == 2#2
  else if (2 ≤ op && op ≤ 5) || (9 ≤ op && op ≤ 0x10) then w != 3#2
  else w == 0#2

def cellModeOk (op : Nat) (m : BitVec 4) : Bool :=
  if op == 0x13 then m.toNat ≤ 1 else if op == 0x15 then m.toNat ≤ 5 else m == 0#4

/-- FCVT reads B only to narrow (R343). -/
def cellReads (op : Nat) (m : BitVec 4) : Nat := if op == 0x15 && 2 ≤ m.toNat then 1 else cellArity op

/-- A cell word that R350 case 0x04 accepts. -/
def cellWordOk (w : W64) : Bool :=
  let op := (w.extractLsb' 58 6).toNat
  let f := decCellFields w
  let n := cellReads op f.mode
  op ≤ 0x19 && cellWidthOk op f.w && cellModeOk op f.mode && w.extractLsb' 16 13 == 0#13 &&
  f.sa.toNat ≤ 10 && f.sb.toNat ≤ 10 && f.sc.toNat ≤ 10 &&
  (1 ≤ n || f.sa == 0) && (2 ≤ n || f.sb == 0) && (3 ≤ n || f.sc == 0) &&
  (f.re || f.regd == 0) && (f.oe || (f.tag == 0 && !f.tkeep)) && (!f.tkeep || f.tag == 0) &&
  (op != 0x19 || f.sa.toNat ≤ 7) && (op != 0 || w == 0)

/-- The cell instruction of a word that R350 accepts. -/
def decodeCell (at_ : CellLoc) (w : W64) : Option Instr :=
  if cellWordOk w then cellInstr at_ (w.extractLsb' 58 6).toNat (decCellFields w) else none

def encCellWord (op : BitVec 6) (f : CellWord) : W64 :=
  op ++ bit1 f.oe ++ bit1 f.re ++ f.regd ++ f.sa ++ f.sb ++ f.sc ++ f.tag ++ bit1 f.tkeep ++ f.w ++ f.mode ++ bit1 f.immh ++ 0#13 ++ f.imm

/-- The 64-bit word of a cell instruction (R341). -/
def encodeCell : Instr → Option W64
  | .knNop _ f => some (encCellWord 0x00 f)
  | .knPass _ f => some (encCellWord 0x01 f)
  | .knAdd _ f => some (encCellWord 0x02 f)
  | .knSub _ f => some (encCellWord 0x03 f)
  | .knMul _ f => some (encCellWord 0x04 f)
  | .knAdds _ f => some (encCellWord 0x05 f)
  | .knAnd _ f => some (encCellWord 0x06 f)
  | .knOr _ f => some (encCellWord 0x07 f)
  | .knXor _ f => some (encCellWord 0x08 f)
  | .knShl _ f => some (encCellWord 0x09 f)
  | .knShr _ f => some (encCellWord 0x0A f)
  | .knSar _ f => some (encCellWord 0x0B f)
  | .knMin _ f => some (encCellWord 0x0C f)
  | .knMax _ f => some (encCellWord 0x0D f)
  | .knSel _ f => some (encCellWord 0x0E f)
  | .knCmpeq _ f => some (encCellWord 0x0F f)
  | .knCmplt _ f => some (encCellWord 0x10 f)
  | .knLutl _ f => some (encCellWord 0x11 f)
  | .knLuth _ f => some (encCellWord 0x12 f)
  | .knLutn _ f => some (encCellWord 0x13 f)
  | .knPerm _ f => some (encCellWord 0x14 f)
  | .knFcvt _ f => some (encCellWord 0x15 f)
  | .knFadd _ f => some (encCellWord 0x16 f)
  | .knFmul _ f => some (encCellWord 0x17 f)
  | .knFmax _ f => some (encCellWord 0x18 f)
  | .knTake _ f => some (encCellWord 0x19 f)
  | _ => none

/-! ## The table's words -/

/-- The first class, in slot order S, V, M, C and tile core before control core, whose decoder takes the word. -/
def classOf (w : W32) (x : Option W32) : Option (Bool × Nat × Instr) :=
  match decodeOp false 0 w x with
  | .ok i => some (false, 0, i)
  | .error _ =>
  match decodeOp true 0 w x with
  | .ok i => some (true, 0, i)
  | .error _ =>
  match decodeOp false 1 w x with
  | .ok i => some (false, 1, i)
  | .error _ =>
  match decodeOp false 2 w x with
  | .ok i => some (false, 2, i)
  | .error _ =>
  match decodeOp false 3 w x with
  | .ok i => some (false, 3, i)
  | .error _ => none

/-- The class of a table word: a row of one word as a lone op word; a longer row, or a word no class takes alone, with the
bits above the first 32 as its extension word (log 5). -/
def tableClass (nbits w : Nat) : Option (Bool × Nat × Instr × Option W32) :=
  let op := BitVec.ofNat 32 w
  let x := BitVec.ofNat 32 (w / 2 ^ 32)
  match (if nbits ≤ 32 then classOf op none else none) with
  | some (c, k, i) => some (c, k, i, none)
  | none =>
    match classOf op (some x) with
    | some (c, k, i) => some (c, k, i, some x)
    | none => (classOf op none).map (fun r => (r.1, r.2.1, r.2.2, none))

/-- The instruction the decoder reads from a table row's bits. -/
def decodeTableWord (nbits w : Nat) : Option Instr := (tableClass nbits w).map (fun r => r.2.2.1)

end Sys2Proof
end

