-- ==== Sys2Proof/WellFormed.lean ====
section
/-! DEFINITION. Which instructions a decoder may answer on a tile core (ctl = false) or a control core (ctl = true):
the static limits of R79 checks 4 and 5 that the fields' widths do not already enforce. -/
namespace Sys2Proof

/-- ATOM (kind 0), ATOMG (1) and RADD (2): the reserved and operand limits of R236 and R237. -/
def atomWf (kind : Nat) (o : SA) : Bool :=
  o.size != 7#3 && atomSizeOk o.size && aopOk kind o.aop o.size &&
  ((o.rem == false && o.die == 0 && o.core == 0) || (kind == 0 && o.rem)) &&
  ((o.c == 0 && o.bc == false) || o.aop == 1#4) && (kind != 2 || o.d == 0)

/-- The limits of R341 and R343 on a cell word's fields. -/
def cellWf (op : Nat) (f : CellWord) : Bool :=
  let n := cellReads op f.mode
  cellWidthOk op f.w && cellModeOk op f.mode && f.sa.toNat ≤ 10 && f.sb.toNat ≤ 10 && f.sc.toNat ≤ 10 &&
  (1 ≤ n || f.sa == 0) && (2 ≤ n || f.sb == 0) && (3 ≤ n || f.sc == 0) && (f.re || f.regd == 0) &&
  (f.oe || (f.tag == 0 && !f.tkeep)) && (!f.tkeep || f.tag == 0) && (op != 0x19 || f.sa.toNat ≤ 7) &&
  (op != 0 || (!f.oe && !f.re && !f.immh && f.imm == 0))

/-- An instruction within its static limits. -/
def Instr.wf (ctl : Bool) : Instr → Bool
  | .cmpeq o | .cmpne o | .cmplt o | .cmple o | .cmpltz o | .cmplez o => guardOk o.g && predOk o.d
  | .add o | .sub o | .and o | .or o | .xor o | .shl o | .shr o | .sar o | .mul o | .mulh o | .mulhz o | .div o | .divz o | .rem o | .remz o | .min o | .max o | .minz o | .maxz o | .sel o => guardOk o.g
  | .bcnt o | .clz o | .ctz o => guardOk o.g
  | .shli o | .shri o | .sari o => shImmOk o.imm.toInt
  | .cmpeqi o | .cmplti o => predOk o.d
  | .shliLimm o | .shriLimm o | .sariLimm o => shImmOk o.imm.toInt
  | .cmpeqiLimm o | .cmpltiLimm o => predOk o.d
  | .ldg o | .stg o | .lds o | .sts o => o.size != 7#3
  | .ldgOff32 o | .stgOff32 o | .ldsOff32 o | .stsOff32 o => o.size != 7#3
  | .atom o => atomWf 0 o
  | .atomg o => atomWf 1 o
  | .radd o => atomWf 2 o
  | .br o | .call o => guardOk o.g && !(o.n && o.g == 31#5)
  | .jr _ _ g => guardOk g
  | .launch _ _ _ g => guardOk g
  | .loop o => loopImmOk o.imm && o.ii != 0#8
  | .sysr _ f => sysRegOk ctl f
  | .sysw _ f => sysRegOk ctl f
  | .fence r c => r || c
  | .sync => !ctl
  | .ctrinit _ m _ => !(ctl && m)
  | .lset _ _ f => layFieldOk f
  | .lget _ _ f => layFieldOk f
  | .pand d a b | .por d a b | .pxor d a b => predOk d && predOk a && b.toNat < 24
  | .pnot d a => predOk d && predOk a
  | .pmovs _ a => predOk a
  | .pmovp d _ => predOk d
  | .pseta d _ => predOk d
  | .chopen _ _ | .fencerec _ _ | .peelpost _ _ => ctl
  | .chclose _ _ _ | .knbind _ _ _ | .kndict _ _ _ => ctl
  | .wqtake _ _ _ _ | .knload _ _ _ _ | .knunbind _ _ _ _ => ctl
  | .vadd o | .vsub o | .vmul o | .vmin o | .vmax o | .viadd o | .visub o | .vimul o | .vimin o | .vimax o | .vand o | .vor o | .vxor o | .vshl o | .vshr o | .vsar o | .viadds o | .vsel o | .vshuf o => !ctl && guardOk o.g
  | .vfma o _ | .vfms o _ => !ctl && guardOk o.g
  | .vabs o | .vneg o | .vrcp o | .vrsq o | .vexp2 o | .vlog2 o | .vsig o | .vtanh o | .vrsum o | .vrmax o | .vrmin o => !ctl && guardOk o.g
  | .vmov o | .vcvtz o | .vpack o | .vunpk o => !ctl && guardOk o.g
  | .vbcast o | .viota o | .vlds o | .vracc o => !ctl && guardOk o.g
  | .vrot o | .vgath o | .vscat o => !ctl && guardOk o.g
  | .vsts o | .vwacc o => !ctl && guardOk o.g
  | .vcmpeq p _ _ | .vcmplt p _ _ | .vcmple p _ _ => !ctl && p.toNat < 24
  | .mldb _ _ _ | .mcvt _ _ _ | .mtrn _ _ _ | .mrdout _ _ _ | .msetx _ _ _ | .mscl _ _ _ => !ctl
  | .mldbw _ _ t _ _ => !ctl && mldbwTypeOk t
  | .mmul _ _ _ _ | .mmac _ _ _ _ | .mreq _ _ _ _ => !ctl
  | .mzero _ _ => !ctl
  | .macccp m c _ => !ctl && m != c
  | .cldq o | .cstq o | .ccpy o | .cred o | .crwr o => !o.np || o.c == 0#6
  | .clds o | .csts o | .cpref o | .cbcast o | .czero o => !o.np || o.c == 0#6
  | .cws o => (!o.np || o.c == 0#6) && (ctl || o.np)
  | .cfred _ _ _ c _ np _ => !np || c == 0#6
  | .knNop _ f => cellWf 0x00 f
  | .knPass _ f => cellWf 0x01 f
  | .knAdd _ f => cellWf 0x02 f
  | .knSub _ f => cellWf 0x03 f
  | .knMul _ f => cellWf 0x04 f
  | .knAdds _ f => cellWf 0x05 f
  | .knAnd _ f => cellWf 0x06 f
  | .knOr _ f => cellWf 0x07 f
  | .knXor _ f => cellWf 0x08 f
  | .knShl _ f => cellWf 0x09 f
  | .knShr _ f => cellWf 0x0A f
  | .knSar _ f => cellWf 0x0B f
  | .knMin _ f => cellWf 0x0C f
  | .knMax _ f => cellWf 0x0D f
  | .knSel _ f => cellWf 0x0E f
  | .knCmpeq _ f => cellWf 0x0F f
  | .knCmplt _ f => cellWf 0x10 f
  | .knLutl _ f => cellWf 0x11 f
  | .knLuth _ f => cellWf 0x12 f
  | .knLutn _ f => cellWf 0x13 f
  | .knPerm _ f => cellWf 0x14 f
  | .knFcvt _ f => cellWf 0x15 f
  | .knFadd _ f => cellWf 0x16 f
  | .knFmul _ f => cellWf 0x17 f
  | .knFmax _ f => cellWf 0x18 f
  | .knTake _ f => cellWf 0x19 f
  | _ => true

end Sys2Proof
end

