-- ==== Sys2Proof/Machine/State.lean ====
section
/-! DEFINITION. The state of the Silsar Q4 as plain data: everything the manual gives the package, and the model's own fields that
hold the order of steps (log 4). A tile core of die D with number c has id 32 D + c; the control core of die D has id 128 + D. -/
namespace Sys2Proof.Machine

/-! ## Sequential core (01) -/

/-- The state of a queue entry (R20). -/
inductive EntSt where
  | free | reserved | present | draining
  deriving DecidableEq, Repr

/-- What fills a reserved entry: a vector or matrix op, a copy command, or a channel read. -/
inductive Filler where
  | op | copy | read
  deriving DecidableEq, Repr

/-- A queue entry: state, presence, readers that have not read, the interval and program-order number that reserved it (R222), what fills it,
and whether a receiving end's pop had passed it when the end became local, its last reader having read: it is FREE at the next checkpoint (R220). -/
structure Entry where
  st : EntSt := .free
  pres : Bool := false
  readers : Nat := 0
  ival : Nat := 0
  seq : Nat := 0
  filler : Filler := .op
  passed : Bool := false
  deriving DecidableEq, Repr

/-- A queue: its descriptor fields (R16), its entries by position (index mod capacity), and at a receiving end the running indices that ops
have still to read (R223). -/
structure Queue where
  tail : Nat := 0
  head : Nat := 0
  ty : Nat := 0
  spl : Nat := 0
  en : Bool := false
  logc : Nat := 0
  base : Nat := 0
  ents : Tab Entry := ⟨[]⟩
  rd : List Nat := []
  deriving DecidableEq, Repr

/-- Where a pending scalar or predicate result goes. -/
inductive Dst where
  | reg (n : Nat)
  | pred (n : Nat)
  deriving DecidableEq, Repr

/-- A result issued and not yet settled (R13, R29, R31, R139): its ticket, the bundle number from which it is visible, whether its
register is empty meanwhile (`held`: an exposed result that is empty only because its register was so, R14), the value once known, its interval (R379), whether a taken CALL overrode it (R115) and in which interval, whether it has settled and only a captured source still wants it, the value the register
held before (R243), and whether its op still counts as incomplete (R241). -/
structure Pend where
  tk : Nat
  dst : Dst
  vis : Nat
  fe : Bool
  val : Option W64
  ival : Nat
  dead : Bool := false
  deadIv : Nat := 0
  fin : Bool := false
  old : W64 := 0
  op : Bool := true
  held : Bool := false
  deriving DecidableEq, Repr

/-- A range entry (R331, R332): the bytes written since its RTSET, as disjoint rising spans from and to. -/
structure RangeEnt where
  valid : Bool := false
  start : Nat := 0
  len : Nat := 0
  mode : Bool := false
  bytes : List (Nat × Nat) := []
  deriving DecidableEq, Repr

/-- An arrival counter (R323). -/
structure Counter where
  expect : Nat := 0
  count : Nat := 0
  phase : Bool := false
  shared : Bool := false
  deriving DecidableEq, Repr

/-- An accumulator tile: elements by index 128 i + j, 0 where not listed, scale, overflow (R60). -/
structure Tile where
  el : Tab Int := ⟨[]⟩
  x : Nat := 0
  ovf : Bool := false
  deriving DecidableEq, Repr

/-- The state of a bank (R164). -/
inductive BankSt where
  | held | loading | computing
  deriving DecidableEq, Repr

/-- A B bank (R164, R165): its tile in split form (bytes past the list are 0), its format code, interval bits, the tile being loaded (format,
bytes, flags, interval of its op), and the offset and type of its last MLDBW (R418). -/
structure Bank where
  st : BankSt := .held
  ty : Nat := 10
  data : Bytes := []
  ldi : Bool := false
  rdi : Bool := false
  incoming : Option (Nat × Bytes × BitVec 5 × Nat) := none
  wsOff : Option (Nat × Nat) := none
  deriving DecidableEq, Repr

/-- The loop engine (R119). -/
structure Loop where
  act : Bool := false
  lc : Nat := 0
  s : Nat := 0
  ii : Nat := 0
  start : W64 := 0
  end_ : W64 := 0
  deriving DecidableEq, Repr

/-- System registers that hold a value of their own (R35, R130). -/
structure SysRegs where
  widv : W64 := 0
  fflags : BitVec 5 := 0
  limq : W64 := 0
  lims : W64 := 0
  lima : W64 := 0
  limk : W64 := 0
  opbmax : BitVec 32 := 0
  tcause : W64 := 0
  tpc : W64 := 0
  tinfo : W64 := 0
  taddr : W64 := 0
  tvec : W64 := 0
  trst : W64 := 0
  deriving DecidableEq, Repr

/-- A captured source (R28): a value, or the ticket of a result still to come and whether its register is empty. -/
inductive Cap where
  | val (v : W64)
  | wait (tk : Nat) (fe : Bool)
  deriving DecidableEq, Repr

/-- The prefix repeat of an M op (R75, R180). -/
structure Rep where
  n : Nat := 0
  step : Nat := 0
  alt : Bool := false
  deriving DecidableEq, Repr

/-- A channel table's answer to an op that asked it (R286, R287): the word, whether the entry is open, and its partition, writer and reader. -/
structure TableAnswer where
  word : W64
  open_ : Bool := false
  part : Nat := 0
  writer : Nat := 0
  reader : Nat := 0
  deriving DecidableEq, Repr

/-- An op in a slot or slip buffer, with what its issue fixed: place in program order, bundle address, kind, scope, interval,
captured registers, predicates and layout records, the head of each queue it names, its reserved entries (queue, first index, count),
the ticket of its result, its repeat, and whether it has started. -/
structure SlipOp where
  op : Instr := .nop
  seq : Nat := 0
  bundle : Nat := 0
  pc : W64 := 0
  next : W64 := 0
  single : Bool := true
  scope : Nat := 0
  ival : Nat := 0
  caps : List (Nat × Cap) := []
  preds : List (Nat × W64) := []
  lays : List (Nat × BitVec 768) := []
  heads : List (Nat × Nat) := []
  resv : List (Nat × Nat × Nat) := []
  srcs : List (Nat × Nat) := []
  tk : Option Nat := none
  rep : Rep := {}
  answer : Option (Option TableAnswer) := none
  waits : Bool := false
  deriving DecidableEq, Repr

/-- A fault (R393): code, slot, detail, address, bundle, whether it was a single-op bundle. -/
structure FaultRec where
  code : Nat
  detail : Nat
  addr : W64
  pc : W64
  slot : Nat
  single : Bool
  deriving DecidableEq, Repr

/-- Why a core is rolling back (R383): a fault, or a machine rollback (R399). -/
inductive TrapKind where
  | fault (f : FaultRec)
  | machine
  deriving DecidableEq, Repr

/-- A splice record (R218, R221). -/
inductive SplSt where
  | local_ | pending | open_ | closing | failed | ended | accepting | ropen | closed
  deriving DecidableEq, Repr

structure Splice where
  st : SplSt := .local_
  pcore : Nat := 0
  pq : Nat := 0
  cred : Nat := 0
  acc : Option (Nat × Nat × Nat × Nat) := none
  got : Bool := false
  inflight : Nat := 0
  unspliced : Nat := 0
  deriving DecidableEq, Repr

/-- The duplicate set and the rest of what a checkpoint captures (R378); `recon` names queues configured anew since (R380, R396);
`splices` holds splice records as they stood before an op changed them since (R226);
`target` is the target that follows the next bundle where the checkpoint bundle is itself a taken branch; `seq` is the last place in program
order before the interval. -/
structure Dup where
  regs : Tab W64 := ⟨[]⟩
  preds : Tab W64 := ⟨[]⟩
  fflags : BitVec 5 := 0
  loop : Loop := {}
  queues : Tab Queue := ⟨[]⟩
  ctrs : Tab Counter := ⟨[]⟩
  posts : List (Nat × Nat) := []
  splices : List (Nat × Splice) := []
  recon : List Nat := []
  trst : W64 := 0
  target : Option W64 := none
  seq : Nat := 0
  deriving DecidableEq, Repr

/-! ## Held items and copy commands (10, 12) -/

/-- What a copy command moves between (R311). -/
inductive CopyKind where
  | cldq | cstq | clds | csts | ccpy | cred | crwr | cpref | cws | cbcast | czero | cfred
  deriving DecidableEq, Repr

/-- A copy command (R309, R310): captured records and operands, its entries, the pages its start translated, progress by window element, its
reads on their way (access, window byte, bytes), its writes sent, and the bytes read by window byte. Phase 0 not begun, 1 reading or
sending, 2 writing, 3 every access sent and every read done. `failed`: accesses that a binding does not serve or a gate rejects
(number, VA, 256 × code + detail; R357, R447). -/
structure CopyCmd where
  id : Nat
  kind : CopyKind
  port : Nat
  seq : Nat
  ival : Nat
  pc : W64
  slot : Nat
  scope : Nat
  acq : Bool
  rel : Bool
  post : Option Nat
  lay : BitVec 768
  lay2 : BitVec 768 := 0
  org : List Int := []
  org2 : List Int := []
  a0 : Nat := 0
  q : Nat := 0
  idx : Nat := 0
  n : Nat := 0
  v : W64 := 0
  held : Bool
  sent : Bool := false
  phase : Nat := 0
  next : Nat := 0
  pas : List (Nat × Nat) := []
  rds : List (Nat × Nat × Nat) := []
  wrs : List Nat := []
  buf : Memory := []
  stopped : Bool := false
  failed : List (Nat × W64 × Nat) := []
  deriving DecidableEq, Repr

/-- What an item of a checkpoint interval does when it is sent (R269). -/
inductive ItemKind where
  | store (glob : Bool) (line : Nat) (bytes : List (Nat × Nat × BitVec 8)) (fe : List (Nat × Nat × Bool)) (vas : List (Nat × W64))
  | fence
  | atom (glob : Nat) (a : AtomReq)
  | copy (id : Nat)
  | chwr (ch : Nat) (m : Nat) (ents : List Bytes)
  | launch (hdr record : Bytes) (die : Nat) (hdrVa : W64)
  | ctrinit (ctr : Nat) (expect : Nat)
  | post (p : Post)
  | accept (m : SplMsg)
  deriving DecidableEq, Repr

/-- An item with its place in program order, its interval, the bundle and slot of its op, its scope, and whether it is a release. -/
structure Item where
  seq : Nat
  ival : Nat
  pc : W64
  slot : Nat
  scope : Nat
  rel : Bool
  kind : ItemKind
  deriving DecidableEq, Repr

/-- An access sent and not yet performed (R266): id, kind 0 read, 1 HBM write, 2 other, and the narrowest scope that covers its destination. -/
structure SentRec where
  id : Nat
  kind : Nat
  scope : Nat
  deriving DecidableEq, Repr

/-- A channel end at a core (R282, R288, R292): positions, what was last reported, and notices (R285): those on their way, and how many of them
tell of a closing before the channel was opened last. `wants` holds the operator-boundary commits of a writer some of whose CHWRs do not know
their channel yet, by their place in program order (R290). -/
structure ChanEnd where
  wpos : Nat := 0
  rpos : Nat := 0
  wpend : Nat := 0
  tailw : Nat := 0
  heado : Nat := 0
  cap : Nat := 0
  wposC : Nat := 0
  rposC : Nat := 0
  closed : Bool := false
  wants : List Nat := []
  due : Nat := 0
  stale : Nat := 0
  deriving DecidableEq, Repr

/-- The path the Peel gave a group (R414). -/
inductive PeelPath where
  | run | ckpt | disc
  deriving DecidableEq, Repr

/-- The work item on a tile core (R185, R205, R403, R413, R422). `bival` is the interval its last operator
boundary opened, `latIval` the one that its latched position opened, or its last boundary where none is latched; `after` is the bundle after END at a drain
point (R420). -/
structure WorkItem where
  part : Nat
  pasid : Nat
  tag : Nat
  die : Nat
  entry : Nat
  hdr : Bytes
  wid : W64
  arg : W64
  entryPc : W64
  costHint : Nat
  frame : Nat
  gang : List Nat
  line : Option Nat
  group : Option Nat := none
  bpos : W64 × List W64
  bival : Nat := 0
  latched : Option (W64 × List W64) := none
  latIval : Nat := 0
  rsent : Nat := 0
  suppress : Nat := 0
  drain : Option Nat := none
  parked : Bool := false
  after : W64 := 0
  started : Bool := false
  disc : Bool := false
  left : Option Nat := none
  sentAt : Nat := 0
  deriving DecidableEq, Repr

/-- A control core's context registers (R194, R196, R390, R407, R460, R491). SCQUANT and SCAGE stand in `Sel`. -/
structure Ctl where
  running : Bool := false
  saving : Bool := false
  part : Nat := 0
  wqcur : Nat := 0
  wqpas : Nat := 0
  abnst : W64 := 0
  lastQ : Option Nat := none
  abn : List (FaultRec × W64) := []
  deriving DecidableEq, Repr

/-- A write of a tile in flight (R32, R163): its op's place and interval, whether a later product may chain on it (R168), its flags. -/
structure MxJob where
  tile : Nat
  seq : Nat
  ival : Nat
  chain : Bool := false
  flags : BitVec 5 := 0
  deriving DecidableEq, Repr

/-- The repeated op of the M slot (R180): its op, the next iteration, the queue it streams with its entries per tile, whether iterations
are still to start, and the tiles popped so far. -/
structure Stream where
  op : SlipOp
  j : Nat := 0
  q : Nat := 0
  na : Nat := 0
  running : Bool := true
  popped : Nat := 0
  deriving DecidableEq, Repr

/-- A core. `ckSeq` is the last place in program order before its last checkpoint bundle (R222); `cstall` holds while a LAUNCH waits to be
accepted (R200) and `stall` while its next bundle stalls the whole core (R130); `divTk` is the ticket of the divide in service (R102); `ic`
holds code words that the fetch path keeps (R67); `jumped` says that a taken transfer led to the PC (R117);
`abandoned` says that its item's end is an abandonment (R390), `clean` that its scratchpad is a
replacement's and zero (R402), `rbFaults` when the last two faults rolled it back to its last checkpoint (R391); `opFlags` holds by place in program order the flags of ops some of whose entries have arrived (R51). -/
structure Core where
  regs : Tab W64 := ⟨[]⟩
  preds : Tab W64 := ⟨[]⟩
  pend : List Pend := []
  queues : Tab Queue := ⟨[]⟩
  lays : Tab (BitVec 768) := ⟨[]⟩
  rts : Tab RangeEnt := ⟨[]⟩
  ctrs : Tab Counter := ⟨[]⟩
  spad : Spad := {}
  empty : List Nat := []
  acc : Tab Tile := ⟨[]⟩
  shadow : Tab Tile := ⟨[]⟩
  dirty : List Nat := []
  banks : Tab Bank := ⟨[]⟩
  jobs : List MxJob := []
  bankJobs : List (Nat × Nat) := []
  conv : Option (Nat × Nat × Nat) := none
  stream : Option Stream := none
  loop : Loop := {}
  pc : W64 := 0
  handler : Bool := false
  target : Option W64 := none
  jumped : Bool := false
  sys : SysRegs := {}
  ctl : Ctl := {}
  opbBase : Nat := 0
  opbHit : Bool := false
  slots : Tab (List SlipOp) := ⟨[]⟩
  seqNo : Nat := 0
  bundleNo : Nat := 0
  rot : Nat := 0
  ival : Nat := 0
  ckSeq : Nat := 0
  dup : Dup := {}
  items : List Item := []
  sent : List SentRec := []
  relWait : Option Nat := none
  relItem : Bool := false
  expMax : List Nat := [0, 0, 0, 0]
  rcv : List Nat := [0, 0, 0, 0]
  subm : List Item := []
  cstall : Bool := false
  abandoned : Bool := false
  clean : Bool := false
  stall : Bool := false
  divTk : Option Nat := none
  opFlags : Tab (BitVec 5) := ⟨[]⟩
  ports : List CopyCmd := []
  outs : List Nat := []
  l1 : Tab Bytes := ⟨[]⟩
  splices : Tab Splice := ⟨[]⟩
  chans : Tab ChanEnd := ⟨[]⟩
  async : List FaultRec := []
  trap : Option TrapKind := none
  rbFaults : List Nat := []
  rbMach : Nat := 0
  rbBase : Nat := 0
  lastAct : Nat := 0
  ic : Tab W32 := ⟨[]⟩
  item : Option WorkItem := none
  lastOwner : Option (Nat × Nat) := none
  arrived : Bool := false
  goSync : Bool := false
  halting : Bool := false
  serial : Bool := false
  freeAt : Bool := true
  deriving DecidableEq, Repr

/-! ## Dies (07 to 11, 19) -/

/-- A sync line (R212). -/
structure SyncLine where
  held : Bool := false
  g : Nat := 0
  members : List Nat := []
  arrived : List Nat := []
  broken : Bool := false
  deriving DecidableEq, Repr

/-- The state of a launch entry (R202). -/
inductive EntryState where
  | free | waiting | ready | running
  deriving DecidableEq, Repr

/-- A launch entry (R202, R407, R460), with the writes of its ended work items, for the release of its DONE post (R272). -/
structure LEntry where
  st : EntryState := .free
  record : Bytes := []
  hdr : Bytes := []
  part : Nat := 0
  pasid : Nat := 0
  tag : Nat := 0
  hdrVa : W64 := 0
  readyAt : Nat := 0
  aged : Bool := false
  order : Nat := 0
  cursor : Nat := 0
  total : Nat := 0
  ended : Nat := 0
  deps : List Bool := []
  exp : List Nat := [0, 0, 0, 0]
  deriving DecidableEq, Repr

/-- A partition's selection state on a die, with its context's SCQUANT and SCAGE (R196, R208), the cycle it last took part in, and whether it had no
candidate then. -/
structure Sel where
  scquant : BitVec 32 := 0x04081020#32
  scage : Nat := 65536
  cls : Nat := 0
  def_ : List Nat := [32, 0, 0, 0]
  last : Nat := 0
  none_ : Bool := true
  deriving DecidableEq, Repr

/-- A channel table entry (R281) with the data its ring and spill hold by position, the requests not yet delivered, the positions delivered
since HEADR, and the commits that wait: reader positions with whether they are of an operator boundary, writer positions (R290). -/
structure Chan where
  open_ : Bool := false
  spinit : Nat := 0
  rtail : Nat := 0
  heado : Nat := 0
  headr : Nat := 0
  tailo : Nat := 0
  tailw : Nat := 0
  spfirst : Nat := 0xFFFF
  spmax : Nat := 0
  spq : Nat := 0
  part : Nat := 0
  ringoff : Nat := 0
  rslice : Nat := 0
  chnum : Nat := 0
  logring : Nat := 0
  rcore : Nat := 0
  rdie : Nat := 0
  wcore : Nat := 0
  wdie : Nat := 0
  spill : Bool := false
  ty : Nat := 0
  data : Tab Bytes := ⟨[]⟩
  reads : List ChRead := []
  delivered : List Nat := []
  headrWant : List (Nat × Bool) := []
  tailoWant : List Nat := []
  deriving DecidableEq, Repr

/-- A die and its base die; `ctx` holds by partition the control-core contexts that are saved (R425), `pwc` the table entries by PA that the
page-walk caches keep (R255). -/
structure Die where
  lines : Tab SyncLine := ⟨[]⟩
  entries : Tab LEntry := ⟨[]⟩
  order : Nat := 0
  sel : Tab Sel := ⟨[]⟩
  rot : Nat := 0
  hold : List Nat := []
  ctx : Tab Core := ⟨[]⟩
  chans : Tab Chan := ⟨[]⟩
  ws : Memory := []
  wqueue : List (Nat × List (Nat × BitVec 8) × Option (Nat × Nat)) := []
  view : Memory := []
  stamp : Tab Nat := ⟨[]⟩
  waitLn : List Nat := []
  app : List Nat := [0, 0, 0, 0]
  lanes : List Nat := [0xF, 0xF, 0xF]
  retry : List Nat := [0, 0, 0]
  nocCfg : Nat := 0x02002424
  nocNext : Option Nat := none
  spares : Nat := 2
  disabled : List Nat := []
  viewL2 : Tab Bytes := ⟨[]⟩
  pwc : Tab Nat := ⟨[]⟩
  deriving DecidableEq, Repr

/-! ## Package (13, 17, 19 to 22) -/

/-- A flit of a Knead Array (R337). -/
structure KFlit where
  data : BitVec 512
  tag : Nat
  ctl : Bool
  deriving DecidableEq, Repr

/-- A result of a cell op in flight (R340): cycles left, registers to write in order, output flit. -/
structure CellRes where
  left : Nat
  wr : List (Nat × BitVec 512)
  out : Option KFlit
  deriving DecidableEq, Repr

/-- A Knead cell (R338 to R340): registers, LUT, position, route table, words, ingress buffers by port N, S, E, W, L (0 to 4), input buffer,
results in flight; of the present cycle, the occupancy of each ingress buffer at its start and the egress ports used. -/
structure Cell where
  k : Tab (BitVec 512) := ⟨[]⟩
  lut : Tab (BitVec 16) := ⟨[]⟩
  pos : Nat := 0
  rt : List (BitVec 5) := []
  dword : W64 := 0
  cword : W64 := 0
  ing : Tab (List KFlit) := ⟨[]⟩
  inp : Option KFlit := none
  fl : List CellRes := []
  snap : List Nat := [0, 0, 0, 0, 0]
  used : List Nat := []
  deriving DecidableEq, Repr

/-- The state of a configuration slot (R351). -/
inductive KSlotSt where
  | empty | loading | loaded
  deriving DecidableEq, Repr

/-- A configuration slot (R351): owner, columns, and per column the expanded words of its eight cell records (R348); while loading, the
image, and the ticket and the bundle of the KNLOAD. -/
structure KSlot where
  st : KSlotSt := .empty
  owner : Nat := 0
  ncol : Nat := 0
  words : List (List W64) := []
  image : Bytes := []
  tk : Nat := 0
  pc : W64 := 0
  deriving DecidableEq, Repr

/-- The state of a binding entry (R358). -/
inductive BindSt where
  | free | pending | active | faulted | draining
  deriving DecidableEq, Repr

/-- A record (R355, R356, R365): its entry and number, its input (of a read record once its store bytes have been read), the accesses that wait
for it. -/
structure KRec where
  ent : Nat
  r : Nat
  inp : Option Bytes
  acc : List Access
  deriving DecidableEq, Repr

/-- A record being run on a column set (R344, R346): its columns, the cycle it is in, the flits still to be fed (per cycle, per column),
the data flits each egress took, whether one arrives there now, and whether the stock decoder runs it (R364). -/
structure KRun where
  cols : List Nat
  rcd : KRec
  t : Nat := 0
  feed : List (List (Option KFlit)) := []
  eg : List (List (BitVec 512)) := []
  moved : Bool := false
  stock : Option Bytes := none
  deriving DecidableEq, Repr

/-- A binding (R353 to R358): its record with the PAs of its ranges, open records with the bytes written, writes that wait for
room, records whose lines are being
delivered, the clock of its latest output (R363), and the tickets of KNBIND and KNUNBIND. -/
structure Binding where
  st : BindSt := .free
  part : Nat := 0
  view : Nat := 0
  store : Nat := 0
  nrec : Nat := 0
  rin : Nat := 0
  rout : Nat := 0
  slot : Nat := 0
  first : Nat := 0
  n : Nat := 1
  wr : Bool := false
  ganged : Bool := false
  adv : Nat := 0
  ctlen : Bool := false
  opened : List (Nat × List (Nat × BitVec 8)) := []
  wait : List CollWrite := []
  deliv : List KRec := []
  outClk : Nat := 0
  tkBind : Nat := 0
  tkUnbind : List Nat := []
  discard : Bool := false
  deriving DecidableEq, Repr

/-- A Knead Array (R336 to R365): cells by 8 × column + row, slots, dictionary and its partition, binding entries, the record queue, runs. -/
structure Array8 where
  cells : Tab Cell := ⟨[]⟩
  slots : Tab KSlot := ⟨[]⟩
  dict : Tab W64 := ⟨[]⟩
  dictPart : Option Nat := none
  binds : Tab Binding := ⟨[]⟩
  queue : List KRec := []
  runs : List KRun := []
  deriving DecidableEq, Repr

/-- An invalidation (R256, R456): its kind, PASID and range; accesses with a lower number, and held ops before each core's place, are those it
waits for. Phase 0 waits for the host's writes that came before it, phase 1 until every die has taken them (`clk`), phase 2 for what was translated
until then (R464). -/
structure InvReq where
  kind : Nat
  pasid : Nat
  va : Nat
  logp : Nat
  ids : Nat
  seqs : List (Nat × Nat)
  phase : Nat := 0
  clk : List Nat := []
  deriving DecidableEq, Repr

/-- A physical function's registers (R456, R475, R491); `toStart` names the dies whose context is still to start (R492), with the record
number and scheduler data of a restart (R429). -/
structure Fn where
  rgen : Nat := 0
  fctl : W64 := 0
  s2root : W64 := 0
  pastab : W64 := 0
  invaddr : W64 := 0
  inv : List InvReq := []
  fence : W64 := 0
  peelBusy : Nat := 0
  peelRes : W64 := 0
  irt : W64 := 0
  pendReg : W64 := 0
  ferr : W64 := 0
  nidrop : Nat := 0
  fgtag : Nat := 0
  rcause : Nat := 0
  attBusy : Option (Nat × Bytes) := none
  attStatus : Nat := 0
  sched : W64 := 0
  dies : Nat := 0
  toStart : Nat := 0
  seq : Nat := 0
  sdata : Bytes := []
  fgrp : Tab W64 := ⟨[]⟩
  msix : Tab W64 := ⟨[]⟩
  pba : W64 := 0
  deriving DecidableEq, Repr

/-- A work queue (R457, R458, R462), with the count of D0's writes that each packet it holds stands at (R257, R263). -/
structure WQ where
  w0 : W64 := 0
  ring : W64 := 0
  crec : W64 := 0
  rpos : Nat := 0
  wpos : Nat := 0
  nref : Nat := 0
  ndrop : Nat := 0
  lseq : Nat := 0
  lpas : Nat := 0
  clks : List Nat := []
  deriving DecidableEq, Repr

/-- Values a partition has of its own (R296, R391, R279, R408, R448). `resUsed` holds 65,536 × channel + quantum for each quantum
taken; `reports` the abandonments that wait to be reported, with the die, the fault and ABNST (R390);
`growing` by channel the marks of the cycle that its growth is to break (R295). -/
structure Part where
  prfcfg : Nat := 65536
  wdcfg : Nat := 4096
  resBase : Nat := 0
  resTotal : Nat := 0
  resUsed : List Nat := []
  frames : List Nat := []
  frmTotal : Nat := 0
  cap : Nat := 0
  reported : List Nat := []
  growing : List (Nat × List Nat) := []
  reports : List (Nat × FaultRec × W64) := []
  deriving DecidableEq, Repr

/-- A quadrant island (R490) and its share of its partition's power cap (R448). -/
structure Island where
  level : Nat := 8
  alevel : Nat := 8
  apend : Bool := false
  aperiod : Nat := 0
  paused : Bool := false
  want : Option Nat := none
  cap : Nat := 0
  deriving DecidableEq, Repr

/-- A deadline post (R410 to R412): its poster (a control core and its ticket, or a function), its effective deadline and status, its cores,
its groups once decided, and its counts. -/
structure PeelPostRec where
  id : Nat
  tk : Option (Nat × Nat)
  fn : Option Nat
  part : Nat
  whole : Bool
  d : Nat
  late : Bool := false
  cores : List Nat
  decided : Bool := false
  groups : List Nat := []
  nrun : Nat := 0
  nckpt : Nat := 0
  ndisc : Nat := 0
  merged : Bool := false
  deriving DecidableEq, Repr

/-- The state of a group (R426). -/
inductive GroupSt where
  | runb | drain | discarding | parked | resuming
  deriving DecidableEq, Repr

/-- A parked item: its former core, its saved state if checkpointed, its channel ends, faults still to be taken. -/
structure Parked where
  core : Nat
  item : WorkItem
  save : Option Core
  ends : Tab ChanEnd
  async : List FaultRec
  deriving DecidableEq, Repr

/-- A group under eviction (R413 to R426): its path, conversion point, frames taken for its save, parked items, how many items it has, the
posts that wait for it, and while it resumes its new cores. A live item names its group. -/
structure Group where
  id : Nat
  st : GroupSt
  path : PeelPath
  conv : Nat
  part : Nat
  die : Nat
  frames : List Nat := []
  parked : List Parked := []
  n : Nat := 0
  posts : List Nat := []
  newCores : List Nat := []
  deriving DecidableEq, Repr

/-- A Tuinil port (R471 to R474). -/
structure TPort where
  lanes : Nat := 4
  txSeq : Nat := 0
  rxSeq : Nat := 0
  replay : List Flit := []
  tx : Bytes := []
  rx : Bytes := []
  wire : List Flit := []
  retry : Nat := 0
  badPkts : Nat := 0
  deriving DecidableEq, Repr

/-- A combined TLB entry (R255): which TLB (0 a core's S side, 1 and 2 its ports, 3 a die's shared second level, whose `core` is the die), PASID, function, page, where it leads, permissions at
stages 1 and 2 as R W X bits. -/
structure TlbEnt where
  core : Nat
  tlb : Nat
  fn : Nat
  pasid : Nat
  va : Nat
  size : Nat
  pa : Nat
  p1 : Nat
  p2 : Nat
  deriving DecidableEq, Repr

/-- A walk fault waiting for its access to be made again: requester, function, PASID, page, code, detail. -/
structure WalkFault where
  core : Nat
  tlb : Nat
  fn : Nat
  pasid : Nat
  page : Nat
  code : Nat
  detail : Nat
  deriving DecidableEq, Repr

/-- A packet on a network (R435 to R437): channel, flits, stages left (unit, input port, output port), since when it heads its VC,
whether it entered with AGE = AGEMAX (R439), payload. -/
structure Packet where
  vc : Nat
  flits : Nat
  path : List (Nat × Nat × Nat)
  since : Nat
  old : Bool
  payload : Ev
  deriving DecidableEq, Repr

/-- An output port (R439). -/
structure OutPort where
  cur : Nat := 0
  cnt : Nat := 0
  last : List Nat := [0, 0, 0, 0]
  freeAt : Nat := 0
  deriving DecidableEq, Repr

/-- A router (unit 16 d + 4 r + c) or base-die crossbar (unit 64 + b): queued packets by input port and VC, output ports. -/
structure Router where
  inq : Tab (List Packet) := ⟨[]⟩
  out : Tab OutPort := ⟨[]⟩
  deriving DecidableEq, Repr

/-- The layout and its commit (R445 to R451). -/
inductive CommitSt where
  | live | shadowed | quiescing
  deriving DecidableEq, Repr

/-- The layout after power-on: the whole package is partition 0 (R449); its HBM window is all of HBM; no channel reserve; no
weight-store window (R247); work queue q belongs to function q / 64 (log 15). -/
def LayoutRec.reset : LayoutRec :=
  { quad := List.replicate 16 0, hbm := (0, 448 * 2 ^ 30) :: List.replicate 15 (0, 0), res := List.replicate 16 (0, 0),
    ws := List.replicate 64 (0, 0), wqOwner := (List.range 1024).map (· / 64) }

structure LayoutSt where
  now : LayoutRec := LayoutRec.reset
  gen : Nat := 0
  st : CommitSt := .live
  shadow : Option LayoutRec := none
  deriving DecidableEq, Repr

/-- What the host receives: an interrupt message (R466), the completion of a Deferrable Memory Write, successful or to be retried (R458), and of
an aperture read, whose data is absent for an Unsupported Request (R454). -/
inductive HostMsg where
  | msi (fn addr data : Nat)
  | dmw (q : Nat) (ok : Bool)
  | read (fn off : Nat) (data : Option Bytes)
  deriving DecidableEq, Repr

/-! ## The order of steps (log 4) -/

/-- Which step comes next. -/
inductive Move where
  | run (core : Nat)
  | start (core slot : Nat)
  | fire (k : Nat)
  | event (e : Ev)
  | dropL1 (core line : Nat)
  | dropTlb (k : Nat)
  | dropView (die line : Nat)
  | keepWord (core word : Nat)
  | dropWord (core word : Nat)
  | keepPte (die pa : Nat)
  | dropPte (die pa : Nat)
  | nocCfg (die value : Nat)
  | setCap (part cap : Nat)
  deriving DecidableEq, Repr

structure Clock where
  cyc : Nat := 0
  urgent : List Ev := []
  pending : List Ev := []
  tape : List Move := []
  turn : Nat := 0
  flip : Bool := false
  fresh : Nat := 0
  ids : Nat := 0
  refresh : Option Nat := none
  kwin : Bool := true
  fires : List CellLoc := []
  deriving DecidableEq, Repr

/-- The op a slot is executing: core, slot, and what its issue fixed. -/
structure Ctx where
  core : Nat := 0
  slot : Nat := 0
  op : SlipOp := {}
  deriving DecidableEq, Repr

/-- The state of the package. -/
structure State where
  clk : Clock := {}
  cur : Ctx := {}
  cores : Tab Core := ⟨[]⟩
  dies : Tab Die := ⟨[]⟩
  ownerPos : Tab Nat := ⟨[]⟩
  dpSent : Tab Nat := ⟨[]⟩
  dpDone : Tab Nat := ⟨[]⟩
  tlbs : List TlbEnt := []
  walks : List WalkReq := []
  walkFaults : List WalkFault := []
  routers : Tab Router := ⟨[]⟩
  arrays : Tab Array8 := ⟨[]⟩
  layout : LayoutSt := {}
  parts : Tab Part := ⟨[]⟩
  fns : Tab Fn := ⟨[]⟩
  wqs : Tab WQ := ⟨[]⟩
  hostMem : Memory := []
  msgs : List HostMsg := []
  peelPosts : List PeelPostRec := []
  groups : List Group := []
  tports : Tab TPort := ⟨[]⟩
  islands : Tab Island := ⟨[]⟩
  hbmFail : List (Nat × Nat) := []
  mgpLog : Nat := 0
  powered : Bool := true
  booted : Bool := true
  deriving DecidableEq, Repr

/-- Why the machine stops. No step of this model ends in a fault: a program's faults are traps that the machine goes on from. -/
inductive Fault where
  /-- Never raised by any meaning; the type has one name so that it is not empty. Safe. -/
  | none_
  deriving DecidableEq, Repr

/-- Why a step is refused. -/
inductive Refusal where
  /-- An instruction whose meaning is not written yet, raised by its arm of `exec`. Safe. -/
  | notModelled (mnemonic : String)
  deriving DecidableEq, Repr

/-- The package after steps 1 to 4 of a cold start (R492): nothing runs, every register at its reset value (log 7). -/
def State.reset : State := {}

end Sys2Proof.Machine
end

