-- ==== Sys2Proof/Machine/Ops.lean ====
section
/-! DEFINITION. The named operations over the state: accessors, registers and pending results, scratchpad as a core sees it, held
items, faults, taking an exception and returning from one. -/
namespace Sys2Proof.Machine

/-- The outcome of a step of this machine. -/
abbrev Res := Host.Outcome State Fault Refusal

/-! ## Accessors -/

/-- Control cores have ids from 128 (log 17). -/
def isCtl (c : Nat) : Bool := decide (128 ≤ c)
/-- The die of a core. -/
def dieOf (c : Nat) : Nat := if c < 128 then c / 32 else c - 128
/-- A tile core's number on its die (R207). -/
def coreNo (c : Nat) : Nat := if c < 128 then c % 32 else 0
/-- A tile core's package quadrant (R207, R445). -/
def quadOf (c : Nat) : Nat := c / 8

/-- A control core after reset, with the fixed limits of R194. -/
def Core.resetCtl : Core :=
  { sys := { lims := w64 (1047552 * 2 ^ 32 + 24 * 2 ^ 8 + 64), limk := w64 (8 + 64 * 2 ^ 16) } }

def State.core (s : State) (c : Nat) : Core := s.cores.get c (if isCtl c then Core.resetCtl else {})
def State.setCore (s : State) (c : Nat) (k : Core) : State := { s with cores := s.cores.set c k }
def State.modCore (s : State) (c : Nat) (f : Core → Core) : State := s.setCore c (f (s.core c))
def State.die (s : State) (d : Nat) : Die := s.dies.get d {}
def State.setDie (s : State) (d : Nat) (k : Die) : State := { s with dies := s.dies.set d k }
def State.modDie (s : State) (d : Nat) (f : Die → Die) : State := s.setDie d (f (s.die d))
def State.arr (s : State) (a : Nat) : Array8 := s.arrays.get a {}
def State.modArr (s : State) (a : Nat) (f : Array8 → Array8) : State := { s with arrays := s.arrays.set a (f (s.arr a)) }
def State.fn (s : State) (n : Nat) : Fn := s.fns.get n {}
def State.modFn (s : State) (n : Nat) (f : Fn → Fn) : State := { s with fns := s.fns.set n (f (s.fn n)) }
def State.part (s : State) (n : Nat) : Part := s.parts.get n {}
def State.modPart (s : State) (n : Nat) (f : Part → Part) : State := { s with parts := s.parts.set n (f (s.part n)) }
def State.wq (s : State) (q : Nat) : WQ := s.wqs.get q {}
def State.modWq (s : State) (q : Nat) (f : WQ → WQ) : State := { s with wqs := s.wqs.set q (f (s.wq q)) }
def State.tport (s : State) (p : Nat) : TPort := s.tports.get p {}
def State.modTport (s : State) (p : Nat) (f : TPort → TPort) : State := { s with tports := s.tports.set p (f (s.tport p)) }
def State.island (s : State) (i : Nat) : Island := s.islands.get i {}
def State.modIsland (s : State) (i : Nat) (f : Island → Island) : State := { s with islands := s.islands.set i (f (s.island i)) }

/-- An event put in flight. -/
def State.push (s : State) (e : Ev) : State := { s with clk := { s.clk with pending := s.clk.pending ++ [e] } }
def State.pushAll (s : State) (l : List Ev) : State := { s with clk := { s.clk with pending := s.clk.pending ++ l } }
/-- An event of this very cycle. -/
def State.pushUrgent (s : State) (e : Ev) : State := { s with clk := { s.clk with urgent := s.clk.urgent ++ [e] } }
/-- A fresh number for an access, command or packet. -/
def State.newId (s : State) : Nat × State := (s.clk.ids, { s with clk := { s.clk with ids := s.clk.ids + 1 } })
/-- A fresh number for a free value (log 8). -/
def State.newFresh (s : State) : Nat × State := (s.clk.fresh, { s with clk := { s.clk with fresh := s.clk.fresh + 1 } })
def State.cyc (s : State) : Nat := s.clk.cyc
def State.period (s : State) : Nat := s.clk.cyc / 8192

/-- The partition of a core: its quadrant's for a tile core; its context's for a control core (R445, R196). -/
def State.partOf (s : State) (c : Nat) : Nat :=
  if isCtl c then (s.core c).ctl.part else s.layout.now.quad.getD (quadOf c) 0
/-- A die on which a partition holds a quadrant. -/
def State.partOnDie (s : State) (p d : Nat) : Bool := (List.range 4).any (fun q => s.layout.now.quad.getD (4 * d + q) 0 == p)
/-- A partition's quadrants as a mask (R449). -/
def State.qmask (s : State) (p : Nat) : Nat :=
  (List.range 16).foldl (fun a q => if s.layout.now.quad.getD q 0 == p then a + 2 ^ q else a) 0
/-- The PASID a core's global accesses use: its work item's; 0 for a control core (R251). -/
def State.pasidOf (s : State) (c : Nat) : Nat := ((s.core c).item.map (·.pasid)).getD 0
/-- Is a partition's scheduler context running on a die? -/
def State.ctlRuns (s : State) (p d : Nat) : Bool := (s.core (128 + d)).ctl.running && (s.core (128 + d)).ctl.part == p

/-! ## Registers -/

def Core.limNreg (k : Core) : Nat := bitsAt k.sys.lims.toNat 0 7
def Core.limNpred (k : Core) : Nat := bitsAt k.sys.lims.toNat 8 5
def Core.limSpad (k : Core) : Nat := bitsAt k.sys.lims.toNat 32 23
def Core.limLogc (k : Core) (q : Nat) : Nat := bitsAt k.sys.limq.toNat (4 * q) 4
def Core.limNacc (k : Core) : Nat := bitsAt k.sys.lima.toNat 0 10
def Core.limNshadow (k : Core) : Nat := bitsAt k.sys.lima.toNat 16 7
def Core.limNctr (k : Core) : Nat := bitsAt k.sys.limk.toNat 16 7
def Core.limNrt (k : Core) : Nat := bitsAt k.sys.limk.toNat 8 6
def Core.limNlay (k : Core) : Nat := bitsAt k.sys.limk.toNat 0 4

def Dst.isReg (d : Dst) (n : Nat) : Bool := d == .reg n

/-- Of two pending results of one register in program order, the one a reader sees: the later one if either keeps the register empty
(R14), otherwise the one visible later, and the later one at one bundle (R31, R140). -/
def Pend.merge (a b : Pend) : Pend := if a.fe || b.fe || a.vis ≤ b.vis then b else a

/-- The pending result that bundle m reads for a destination. -/
def pendFor (l : List Pend) (d : Dst) (m : Nat) : Option Pend :=
  (l.filter (fun p => p.dst == d && !p.dead && p.vis ≤ m)).foldl (fun a p => some (match a with | none => p | some q => q.merge p)) none

/-- The settled value of a destination. -/
def Core.base (k : Core) : Dst → W64
  | .reg n => if n == 0 then 0 else k.regs.get n 0
  | .pred n => k.preds.get n 0

def Core.setBase (k : Core) (d : Dst) (v : W64) : Core :=
  match d with
  | .reg n => if n == 0 then k else { k with regs := k.regs.set n v }
  | .pred n => { k with preds := k.preds.set n v }

def Core.setDup (k : Core) (d : Dst) (v : W64) : Core :=
  match d with
  | .reg n => if n == 0 then k else { k with dup := { k.dup with regs := k.dup.regs.set n v } }
  | .pred n => { k with dup := { k.dup with preds := k.dup.preds.set n v } }

/-- Is a ticket still wanted by a captured source? -/
def Core.wanted (k : Core) (tk : Nat) : Bool :=
  k.slots.l.any (fun p => p.2.any (fun o => o.caps.any (fun c => match c.2 with | .wait t _ => t == tk | .val _ => false)))

/-- Everything of a destination has a value that bundle m may see. -/
def settledFor (l : List Pend) (d : Dst) (m : Nat) : Bool := (l.filter (fun p => p.dst == d)).all (fun p => p.val.isSome && p.vis ≤ m)

/-- A result of an op issued before the last operator boundary, in the boundary's graph position (R378, R403). -/
def Core.setBpos (k : Core) (d : Dst) (v : W64) : Core :=
  match d with
  | .reg n => { k with item := k.item.map (fun w => { w with bpos := (w.bpos.1, if n == 0 then w.bpos.2 else w.bpos.2.set (n - 1) v) }) }
  | .pred _ => k

/-- The value that the results of a destination which an interval's start covers leave in it (R379). -/
def lastBefore (l : List Pend) (d : Dst) (m ival : Nat) : Option W64 :=
  (pendFor ((l.filter (fun p => !p.fin && decide (p.ival < ival))).map (fun p => { p with dead := p.dead && decide (p.deadIv < ival) })) d m).map (fun p => p.val.getD 0)

/-- One destination settled into the register, into its duplicate where a result of an earlier interval is the last (R379), and into the
graph position where one of an earlier operator is. -/
def Core.settle1 (m : Nat) (k : Core) (d : Dst) : Core :=
  if !settledFor k.pend d m then k else
  let k1 := match pendFor k.pend d m with
    | some p => k.setBase d (p.val.getD 0)
    | none => k
  let k2 := match lastBefore k.pend d m k.ival with
    | some v => k1.setDup d v
    | none => k1
  let k3 := match lastBefore k.pend d m ((k.item.map (·.bival)).getD 0) with
    | some v => k2.setBpos d v
    | none => k2
  { k3 with pend := k3.pend.filterMap (fun p =>
      if p.dst == d then (if k.wanted p.tk then some { p with dead := true, fin := true } else none) else some p) }

/-- Every destination that can settle at bundle m does. -/
def Core.settle (k : Core) (m : Nat) : Core := (nub (k.pend.map (·.dst))).foldl (Core.settle1 m) k

/-- A value for a ticket. -/
def Core.land (k : Core) (tk : Nat) (v : W64) : Core :=
  { k with pend := k.pend.map (fun p => if p.tk == tk then { p with val := some v, op := false } else p) }

/-- What reading a scalar source gives: a value, a wait, or fault 0x06 (R13). -/
inductive Src (α : Type) where
  | val (v : α)
  | wait
  | fault (code detail : Nat)
  deriving DecidableEq, Repr

/-- A pending result as a source: its value; a wait with the block bit, in a single-op bundle (R33) or for an exposed result (R29);
fault 0x06 otherwise. -/
def pendSrc (o : SlipOp) (block fe : Bool) (r : Nat) : Option W64 → Src W64
  | some v => .val v
  | none => if block || o.single || !fe then .wait else .fault 0x06 (0x40 + r)

/-- A scalar register as a source of an op (R12, R13, R28, R29). -/
def Core.readReg (k : Core) (o : SlipOp) (block : Bool) (r : Nat) : Src W64 :=
  if r == 0 then .val 0 else
  match Tab.findL o.caps r with
  | some (.val v) => .val v
  | some (.wait t fe) => pendSrc o block fe r ((k.pend.find? (fun p => p.tk == t)).bind (·.val))
  | none =>
    match pendFor k.pend (.reg r) k.bundleNo with
    | none => .val (k.base (.reg r))
    | some p => pendSrc o block p.fe r p.val

/-- A predicate as its op captured it, or as it stands. -/
def Core.readPred (k : Core) (o : SlipOp) (n : Nat) : W64 :=
  match Tab.findL o.preds n with
  | some v => v
  | none =>
    match (pendFor k.pend (.pred n) k.bundleNo).bind (·.val) with
    | some v => v
    | none => k.base (.pred n)

/-- The guard mask of an op: all ones for 31 (R15). -/
def Core.guardMask (k : Core) (o : SlipOp) (g : Nat) : W64 := if g == 31 then BitVec.allOnes 64 else k.readPred o g
/-- The guard of a scalar op: bit 0 (R15). -/
def Core.guard (k : Core) (o : SlipOp) (g : Nat) : Bool := (k.guardMask o g).getLsbD 0
/-- The stage guard of a matrix or copy op (R15). -/
def Core.stageGuard (k : Core) (o : SlipOp) (sg : BitVec 4) : Bool :=
  !sg.getLsbD 3 || (k.readPred o (16 + (sg.extractLsb' 0 3).toNat)).getLsbD 0

/-- Does an earlier result of this destination still keep its register empty (R14)? `upto` is the op's own place. -/
def Core.blocked (k : Core) (o : SlipOp) (d : Dst) : Bool :=
  d != .reg 0 && k.pend.any (fun p => p.dst == d && p.fe && p.val.isNone && !p.dead && some p.tk != o.tk &&
    (match o.tk with | some t => p.tk < t | none => true))

/-- An exposed result: to its ticket, or at once where no ticket was given (a single-op bundle) (R31, R33). -/
def Core.result (k : Core) (o : SlipOp) (d : Dst) (v : W64) : Core :=
  match o.tk with
  | some t => k.land t v
  | none => k.setBase d v

/-- The ticket of a full/empty result: the one its issue gave, or a new one (R13). -/
def Core.feTicket (k : Core) (o : SlipOp) (r : Nat) : Nat × Core :=
  match o.tk with
  | some t => (t, k)
  | none => (k.seqNo, { k with seqNo := k.seqNo + 1,
                               pend := k.pend ++ [{ tk := k.seqNo, dst := .reg r, vis := 0, fe := true, val := none, ival := k.ival, old := k.base (.reg r) }] })

/-- Flags of an op that completes (R51, R379). -/
def Core.orFlags (k : Core) (ival : Nat) (f : Flags) : Core :=
  { k with sys := { k.sys with fflags := k.sys.fflags ||| f },
           dup := if ival < k.ival then { k.dup with fflags := k.dup.fflags ||| f } else k.dup }

/-! ## Queues (R16 to R20) -/

def Core.queue (k : Core) (q : Nat) : Queue := k.queues.get q {}
def Core.setQueue (k : Core) (q : Nat) (v : Queue) : Core := { k with queues := k.queues.set q v }
def Queue.cap (q : Queue) : Nat := 2 ^ q.logc
/-- (TAIL − HEAD) mod 65,536 (R18). -/
def Queue.count (q : Queue) : Nat := (q.tail + 65536 - q.head) % 65536
/-- occ(Q): C at a receiving end (R18). -/
def Queue.occ (q : Queue) : Nat := if q.spl == 2 then q.cap else q.count
def Queue.ent (q : Queue) (idx : Nat) : Entry := q.ents.get (idx % q.cap) {}
def Queue.setEnt (q : Queue) (idx : Nat) (e : Entry) : Queue := { q with ents := q.ents.set (idx % q.cap) e }
/-- The scratchpad byte where an entry lies (R17). -/
def Queue.addr (q : Queue) (idx : Nat) : Nat := (q.base + idx % q.cap) * 256
/-- The descriptor (R16). -/
def Queue.desc (q : Queue) : W64 :=
  w64 (q.tail % 65536 * 2 ^ 48 + q.head % 65536 * 2 ^ 32 + q.ty * 2 ^ 28 + q.spl * 2 ^ 26 + (if q.en then 2 ^ 25 else 0) + q.logc * 2 ^ 21 + q.base)

/-- An entry reserved at the tail (R20, R23). -/
def Queue.reserve1 (q : Queue) (f : Filler) (seq ival : Nat) : Queue :=
  { q.setEnt q.tail { st := .reserved, pres := false, readers := 0, seq := seq, ival := ival, filler := f } with tail := (q.tail + 1) % 65536 }
def Queue.reserveN (q : Queue) (f : Filler) (seq ival : Nat) : Nat → Queue
  | 0 => q
  | n + 1 => (q.reserve1 f seq ival).reserveN f seq ival n

/-- A pop of one entry (R20). At a receiving end the entry keeps its data and presence (R223). -/
def Queue.pop1 (q : Queue) : Queue :=
  let e := q.ent q.head
  let e' : Entry := match e.st with
    | .present => if e.readers == 0 then { e with st := .free, pres := false } else { e with st := .draining }
    | .reserved => { e with st := .draining }
    | st => { e with st := st }
  { (if q.spl == 2 then q else q.setEnt q.head e') with head := (q.head + 1) % 65536 }
def Queue.popN (q : Queue) : Nat → Queue
  | 0 => q
  | n + 1 => q.pop1.popN n

/-- An op becomes a reader of an entry (R20); at a receiving end, of a running index, delivered or not (R223). -/
def Queue.addReader (q : Queue) (idx : Nat) : Queue :=
  if q.spl == 2 then { q with rd := idx :: q.rd } else q.setEnt idx { q.ent idx with readers := (q.ent idx).readers + 1 }

/-- A reader of an entry is done (R20). A receiving end's popped entry waits for the next checkpoint (R223). -/
def Queue.readerDone (q : Queue) (idx : Nat) : Queue :=
  if q.spl == 2 then { q with rd := q.rd.erase idx } else
  let e := q.ent idx
  let e1 := { e with readers := e.readers - 1 }
  let e2 := if e1.st == .draining && e1.readers == 0 && e1.pres && !e1.passed then { e1 with st := .free, pres := false } else e1
  q.setEnt idx e2

/-- Is the entry of a running index present? At a receiving end only an index that has been delivered is, whatever an older one has left at its
place (R223). -/
def Queue.isPres (q : Queue) (idx : Nat) : Bool :=
  (q.ent idx).pres && (q.spl != 2 || (let d := (q.tail + 65536 - idx % 65536) % 65536; decide (1 ≤ d) && decide (d ≤ q.cap)))

/-- The running index whose delivery a place of a receiving end holds. -/
def Queue.deliveredAt (q : Queue) (pos : Nat) : Nat := (q.tail + 65535 - (q.tail + 65535 - pos) % q.cap) % 65536
/-- Has a pop passed a running index? -/
def Queue.passedIdx (q : Queue) (idx : Nat) : Bool := decide ((q.head + 65535 - idx) % 65536 < 32768)
/-- A delivered entry that pops have passed and that no op has still to read (R223), or one left so when the end became local (R220). -/
def Queue.freeable (q : Queue) (e : Nat × Entry) : Bool :=
  e.2.pres && (if q.spl == 2 then q.passedIdx (q.deliveredAt e.1) && !q.rd.contains (q.deliveredAt e.1) else e.2.passed && e.2.readers == 0)

/-- The readers an op was counted as are done. -/
def Core.readersDone (k : Core) (srcs : List (Nat × Nat)) : Core :=
  srcs.foldl (fun k p => k.setQueue p.1 ((k.queue p.1).readerDone p.2)) k

/-- The running index an op's source offset names: from the head its issue fixed (R23). -/
def Core.srcIdx (k : Core) (o : SlipOp) (q off : Nat) : Nat := ((Tab.findL o.heads q).getD (k.queue q).head + off) % 65536

/-- The first running index reserved for an op in a queue, or its tail. -/
def Core.resvIdx (k : Core) (o : SlipOp) (q : Nat) : Nat :=
  match o.resv.find? (fun r => r.1 == q) with
  | some r => r.2.1
  | none => (k.queue q).tail

/-! ## The scratchpad as a core's op sees it (R111, R141) -/

/-- The withheld bytes of a space: place in program order, address, byte. -/
def Core.withheld (k : Core) (glob : Bool) : List (Nat × Nat × BitVec 8) :=
  k.items.foldl (fun a i => match i.kind with | .store g _ bs _ _ => if g == glob then a ++ bs else a | _ => a) []

/-- The byte at an address as an op at place seq sees it: the last earlier withheld store, else the given memory. -/
def overlay (wb : List (Nat × Nat × BitVec 8)) (seq : Nat) (a : Nat) (mem : BitVec 8) : BitVec 8 :=
  (wb.foldl (fun (acc : Nat × BitVec 8) w => if w.2.1 == a && w.1 < seq && acc.1 ≤ w.1 + 1 then (w.1 + 1, w.2.2) else acc) (0, mem)).2

/-- An op's place for reading: past every store where it stands in no program order. -/
def SlipOp.place (o : SlipOp) (k : Core) : Nat := if o.seq == 0 then k.seqNo + 1 else o.seq

/-- n scratchpad bytes as an op sees them. -/
def Core.spadRead (k : Core) (o : SlipOp) (a n : Nat) : Bytes :=
  let wb := k.withheld false
  (List.range n).map (fun i => overlay wb (o.place k) (a + i) (k.spad.read (a + i)))

/-- The full/empty bit of a word as the core sees it, with its withheld changes (R233, R234). -/
def Core.wordFull (k : Core) (w : Nat) : Bool :=
  let ch := k.items.foldl (fun a i => match i.kind with | .store false _ _ fe _ => a ++ fe | _ => a) ([] : List (Nat × Nat × Bool))
  match ch.foldl (fun (acc : Option (Nat × Bool)) c => if c.2.1 == w then (match acc with | some p => if p.1 ≤ c.1 then some (c.1, c.2.2) else acc | none => some (c.1, c.2.2)) else acc) none with
  | some p => p.2
  | none => !k.empty.contains w

/-- A word's full/empty bit in memory. -/
def Core.setFull (k : Core) (w : Nat) (full : Bool) : Core :=
  { k with empty := if full then k.empty.filter (· != w) else if k.empty.contains w then k.empty else w :: k.empty }

/-- One queue entry's 256 bytes as an op sees them. -/
def Core.entBytes (k : Core) (o : SlipOp) (q idx : Nat) : Bytes := k.spadRead o ((k.queue q).addr idx) 256

/-- n consecutive entries from a source specifier, once all are present (R26, R167; the order of an op's sources: log 106). -/
def Core.readEnts (k : Core) (o : SlipOp) (sp : QSpec) (n : Nat) : Src (List Bytes) :=
  let q := sp.q.toNat
  let ix := (List.range n).map (fun j => k.srcIdx o q (sp.k.toNat + j))
  if (k.queue q).en == false then .fault 0x04 0
  else if ix.all (k.queue q).isPres then .val (ix.map (k.entBytes o q))
  else if sp.b then .wait else .fault 0x06 q

/-! ## The range table (R331 to R333) -/

/-- A span added to disjoint rising spans. -/
def addSpan : List (Nat × Nat) → Nat → Nat → List (Nat × Nat)
  | [], a, b => [(a, b)]
  | (c, d) :: r, a, b => if b < c then (a, b) :: (c, d) :: r else if d < a then (c, d) :: addSpan r a b else addSpan r (min a c) (max b d)

/-- FILLED (R332): bytes of whole written granules from START. -/
def RangeEnt.filled (e : RangeEnt) : Nat :=
  match e.bytes with
  | (a, b) :: _ => if a ≤ e.start then min ((b - e.start) / 256 * 256) e.len else 0
  | [] => 0
/-- READY (R332). -/
def RangeEnt.ready (e : RangeEnt) : Bool := e.filled == e.len

/-- A copy-engine write of n bytes counted in every valid entry it touches (R332). -/
def Core.rtMark (k : Core) (a n : Nat) : Core :=
  { k with rts := ⟨k.rts.l.map (fun p =>
      let lo := max a p.2.start
      let hi := min (a + n) (p.2.start + p.2.len)
      if p.2.valid && lo < hi then (p.1, { p.2 with bytes := addSpan p.2.bytes lo hi }) else p)⟩ }

/-- Does a valid entry hold back a read of n bytes (R333)? -/
def Core.gated (k : Core) (a n : Nat) : Bool :=
  k.rts.l.any (fun p =>
    let lo := max a p.2.start
    let hi := min (a + n) (p.2.start + p.2.len)
    p.2.valid && decide (lo < hi) && (if p.2.mode then decide (p.2.start + p.2.filled < hi) else !p.2.ready))

/-! ## Held items (R269) -/

/-- Items in program order. -/
def insertItem (l : List Item) (i : Item) : List Item :=
  match l with
  | [] => [i]
  | j :: r => if j.seq ≤ i.seq then j :: insertItem r i else i :: j :: r

def ItemKind.isStore : ItemKind → Bool
  | .store .. => true
  | _ => false

/-- Ops that hold an item when they start on a tile core (R269): the release of their interval waits for them. -/
def isHolding : Instr → Bool
  | .stg .. | .stgOff32 .. | .sts .. | .stsOff32 .. | .ste .. | .steOff32 .. | .ldf .. | .ldfOff32 .. | .atom .. | .atomg .. | .radd ..
  | .launch .. | .ctrinit .. | .ctrpost .. | .qaccept .. | .stlay .. | .vsts .. | .vscat .. | .cstq .. | .csts .. | .ccpy .. | .cred ..
  | .crwr .. | .cws .. | .cbcast .. | .czero .. | .cfred .. | .chwr .. | .fence .. => true
  | _ => false

/-- Those among them whose item is a withheld store. -/
def isStoreOp : Instr → Bool
  | .stg .. | .stgOff32 .. | .sts .. | .stsOff32 .. | .ste .. | .steOff32 .. | .ldf .. | .ldfOff32 .. | .stlay .. | .vsts .. | .vscat .. => true
  | _ => false

/-- Does a held command or FENCE, or one still to be held, stand between two places in program order? It closes all open entries (R269). -/
def Core.closedBetween (k : Core) (a b : Nat) : Bool :=
  k.items.any (fun j => !j.kind.isStore && min a b < j.seq && j.seq < max a b) ||
  k.slots.l.any (fun p => p.2.any (fun o => isHolding o.op && !isStoreOp o.op && min a b < o.seq && o.seq < max a b))

/-- An open entry for a line into which a store at a place of an interval merges (R269). -/
def Core.openEntry (k : Core) (glob : Bool) (line seq ival : Nat) : Option Item :=
  k.items.find? (fun i => i.ival == ival && (match i.kind with | .store g l _ _ _ => g == glob && l == line | _ => false) &&
    !k.closedBetween i.seq seq)

/-- Entries the withholding buffer holds (R111). -/
def Core.entryCount (k : Core) : Nat := (k.items.filter (fun i => i.kind.isStore)).length

/-- The lines of a set of addresses, each once, in order. -/
def linesOf (l : List (Nat × BitVec 8)) : List Nat := nub (l.map (fun p => p.1 / 64))

/-- One line of withheld bytes and full/empty changes into the buffer: merged into an open entry, which keeps the earlier place of the
two, or as a new entry. -/
def Core.withhold1 (seq : Nat) (o : SlipOp) (slot : Nat) (glob : Bool) (cells : List (Nat × BitVec 8)) (fe : List (Nat × Bool))
    (vas : List (Nat × W64)) (k : Core) (line : Nat) : Core :=
  let bs := (cells.filter (fun p => p.1 / 64 == line)).map (fun p => (seq, p.1, p.2))
  let fs := (fe.filter (fun p => p.1 / 8 == line)).map (fun p => (seq, p.1, p.2))
  let vs := vas.filter (fun p => p.1 / 64 == line)
  match k.openEntry glob line seq o.ival with
  | some e =>
    match e.kind with
    | .store g l b f v =>
      { k with items := insertItem (k.items.filter (· != e)) { e with seq := min e.seq seq, kind := .store g l (b ++ bs) (f ++ fs) (v ++ vs) } }
    | _ => k
  | none => { k with items := insertItem k.items { seq := seq, ival := o.ival, pc := o.pc, slot := slot, scope := o.scope, rel := false, kind := .store glob line bs fs vs } }

/-- Withheld bytes into the buffer; none where they need a new entry beyond the 256 (R111). -/
def Core.withhold (k : Core) (o : SlipOp) (slot : Nat) (glob : Bool) (cells : List (Nat × BitVec 8)) (fe : List (Nat × Bool))
    (vas : List (Nat × W64)) : Option Core :=
  let seq := o.place k
  let lines := nub (linesOf cells ++ fe.map (fun p => p.1 / 8))
  let fresh := lines.filter (fun l => (k.openEntry glob l seq o.ival).isNone)
  if !fresh.isEmpty && decide (Config.bufEntries < k.entryCount + fresh.length) then none
  else some (lines.foldl (Core.withhold1 seq o slot glob cells fe vas) k)

/-- A held command or FENCE at the op's place. -/
def Core.hold (k : Core) (o : SlipOp) (slot : Nat) (rel : Bool) (kind : ItemKind) : Core :=
  { k with items := insertItem k.items { seq := o.place k, ival := o.ival, pc := o.pc, slot := slot, scope := o.scope, rel := rel, kind := kind } }

/-- What a serialising op of a checkpoint bundle itself changes belongs to the state at the next bundle, which the checkpoint captures (R378). -/
def Core.recapture (k : Core) (o : SlipOp) : Core :=
  if o.seq != 0 && decide (o.ival < k.ival) then
    { k with dup := { k.dup with queues := k.queues, loop := k.loop, preds := (List.range' 16 8).foldl (fun t n => t.set n (k.preds.get n 0)) k.dup.preds, recon := [], trst := k.pc },
             sys := { k.sys with trst := k.pc } }
  else k

/-- A tile core in normal mode withholds; a control core and handler mode do not (R111, R388). -/
def holds (c : Nat) (k : Core) : Bool := !isCtl c && !k.handler

/-! ## Taking an exception and returning from one -/

/-- TINFO (R130). -/
def tinfoOf (f : FaultRec) : W64 := w64 (f.detail % 256 * 2 ^ 16 + (if f.single then 8 else 0) + f.slot % 8)

/-- The trap registers of a fault (R386). -/
def Core.trapRegs (k : Core) (f : FaultRec) : Core :=
  { k with sys := { k.sys with tcause := w64 (f.code % 256), tpc := f.pc, tinfo := tinfoOf f, taddr := f.addr } }

/-- TAKING AN EXCEPTION (R386, R195): the trap registers take the fault, the mode becomes handler mode and the PC is TVEC. -/
def Core.enterHandler (k : Core) (f : FaultRec) : Core :=
  { k.trapRegs f with handler := true, pc := k.sys.tvec, target := none, jumped := false, stall := false }

/-- RETURNING FROM ONE (R389): normal mode, and the PC is TRST, or TPC. A replay from the checkpoint's own next bundle is followed by the
target of a branch that the checkpoint bundle took (R378, R385). -/
def Core.leaveHandler (k : Core) (toTpc : Bool) : Core :=
  { k with handler := false, pc := if toTpc then k.sys.tpc else k.sys.trst,
           target := if !toTpc && k.sys.trst == k.dup.trst then k.dup.target else none, jumped := false }

/-- A fault recorded on a tile core: the first in time stands (R30), and the rollback begins (R383, R384 step 1): ops issued since the
checkpoint that have not started are abandoned. In handler mode the item is to be abandoned (R390): the same record, told apart by the mode. -/
def Core.beginTrap (k : Core) (t : TrapKind) : Core :=
  match k.trap with
  | some _ => k
  | none =>
    let gone := k.slots.l.flatMap (fun p => (p.2.filter (fun o => !decide (o.ival < k.ival))).flatMap (fun o => o.srcs))
    { k.readersDone gone with trap := some t, slots := ⟨k.slots.l.map (fun p => (p.1, p.2.filter (fun o => decide (o.ival < k.ival))))⟩ }

/-- A member withdraws its arrival (R216). -/
def State.withdraw (s : State) (c : Nat) : State :=
  let k := s.core c
  let s1 := s.setCore c { k with arrived := false, goSync := false }
  match k.item.bind (·.line) with
  | none => s1
  | some l => s1.modDie (dieOf c) (fun x => let ln := x.lines.get l {}; { x with lines := x.lines.set l { ln with arrived := ln.arrived.filter (· != c) } })

/-- The tile cores of a partition that fail the test of a reset (R401 step 2): a free value (log 8). -/
def State.testCores (s : State) (p : Nat) : List Nat :=
  (List.range 128).filter (fun c => s.layout.now.quad.getD (quadOf c) 0 == p && Config.testFails s.clk.fresh c)

/-- The management processor is to reset a partition, for a cause of R456 (R401). -/
def State.pushReset (s : State) (p cause : Nat) : State := (s.newFresh.2).push (.partitionReset p cause (s.testCores p))

/-- A control core takes a fault at once: TRST, the handler, or with TVEC = 0 or in handler mode a stop and a partition reset (R195, R390);
259 = 256 + 3 marks the reset of a fault with TVEC = 0, after which the contexts wait for a new GO. -/
def State.ctlFault (s : State) (c : Nat) (f : FaultRec) (trst : W64) : State :=
  let k := s.core c
  if k.handler || k.sys.tvec == 0 then (s.modCore c (fun k => { k with trap := some (.fault f) })).pushReset k.ctl.part (if k.sys.tvec == 0 then 259 else 3)
  else s.setCore c (({ k with sys := { k.sys with trst := trst } } : Core).enterHandler f)

/-- A fault of a core: a control core takes it; a tile core starts its rollback, which ROLLBACK_COMPLETE ends. -/
def State.takeFault (s : State) (c : Nat) (f : FaultRec) (trst : W64) : State :=
  if isCtl c then s.ctlFault c f trst
  else if (s.core c).trap.isSome then s
  else ((s.withdraw c).modCore c (fun k => k.beginTrap (.fault f))).push (.rollbackComplete c)

/-- A fault to be taken at the next bundle boundary (R243). -/
def State.asyncFault (s : State) (c : Nat) (f : FaultRec) : State :=
  (s.modCore c (fun k => { k with async := k.async ++ [f] })).push (.asyncFaultTaken c)

/-- A fault of the op now running (R30). An op that issued before the latest checkpoint bundle, or with or before HALT, faults at the next bundle boundary and has no
effect: its result's register takes the value it held before (R270). -/
def State.raise (s : State) (code detail : Nat) (addr : W64) : State :=
  let c := s.cur.core
  let o := s.cur.op
  let f : FaultRec := { code := code, detail := detail, addr := addr, pc := o.pc, slot := s.cur.slot, single := o.single }
  if !isCtl c && o.seq != 0 && (decide (o.ival < (s.core c).ival) || (s.core c).halting) then
    (s.modCore c (fun k => match o.tk.bind (fun t => k.pend.find? (fun p => p.tk == t)) with
      | some p => k.land p.tk p.old
      | none => k)).asyncFault c f
  else s.takeFault c f o.next

/-! ## Running an op -/

/-- The op waits at the head of its slot (R26, R27): it goes back, and nothing else changes. -/
def State.requeue (s : State) (i : Instr) : State :=
  s.modCore s.cur.core (fun k =>
    { k with slots := k.slots.set s.cur.slot ({ s.cur.op with op := i, waits := true } :: k.slots.get s.cur.slot []) })

/-- What an op on one core does: it is done with a new core and events in flight, it waits, or it faults. -/
inductive OpRes where
  | done (k : Core) (evs : List Ev)
  | wait
  | trap (code detail : Nat) (addr : W64)
  deriving DecidableEq, Repr

/-- An op of the core that is running. -/
def State.coreOp (s : State) (i : Instr) (f : SlipOp → Core → OpRes) : Res :=
  match f s.cur.op (s.core s.cur.core) with
  | .done k evs => .next ((s.setCore s.cur.core (k.readersDone s.cur.op.srcs)).pushAll evs)
  | .wait => .next (s.requeue i)
  | .trap code detail addr => .next (s.raise code detail addr)

/-- A source read, then the rest. -/
def Src.bind {α : Type} (x : Src α) (f : α → OpRes) : OpRes :=
  match x with
  | .val v => f v
  | .wait => .wait
  | .fault c d => .trap c d 0

end Sys2Proof.Machine
end

