-- ==== Sys2Proof/Machine/Translate.lean ====
section
/-! DEFINITION. Addresses and translation (09): canonical form, the two walks, page checks, permissions, TLBs, owner dies. -/
namespace Sys2Proof.Machine

/-- The end of the HBM range and the start of the system range (R231). -/
def hbmEnd : Nat := 448 * 2 ^ 30
def sysBase : Nat := 2 ^ 51
def isHbm (pa : Nat) : Bool := decide (pa < hbmEnd)
def isSys (pa : Nat) : Bool := decide (sysBase ≤ pa)

/-- VA[63:48] all equal to VA[47] (R230). -/
def canonical (va : W64) : Bool := va.extractLsb' 47 17 == 0 || va.extractLsb' 47 17 == BitVec.allOnes 17

/-- The partition whose HBM window holds a PA. -/
def State.windowPart (s : State) (pa : Nat) : Option Nat :=
  (List.range 16).find? (fun p => let w := s.layout.now.hbm.getD p (0, 0); decide (w.1 ≤ pa) && decide (pa < w.1 + w.2))

/-- The base dies of a partition, ascending (R250). -/
def State.partDies (s : State) (p : Nat) : List Nat := (List.range 4).filter (s.partOnDie p)

/-- The owner die of a line: the base die of its stack (R239, R250). -/
def State.ownerDie (s : State) (pa : Nat) : Nat :=
  let ds := match s.windowPart pa with
    | some p => if (s.partDies p).isEmpty then [0, 1, 2, 3] else s.partDies p
    | none => [0, 1, 2, 3]
  ds.getD (bitsAt pa 11 2 % ds.length) 0

/-- The stack and HBM channel of a PA (R250): stack 0 to 7, channel 0 to 31 with the parity channels skipped. -/
def State.stackOf (s : State) (pa : Nat) : Nat × Nat :=
  let d := pa / 8192 % 28
  (2 * s.ownerDie pa + bitsAt pa 10 1, d / 7 * 8 + d % 7)

/-- The local quadrant of an L2 slice (R434). -/
def sliceQuad (i : Nat) : Nat := i / 8 * 2 + i / 2 % 2

/-- Has a PA's HBM channel group lost two channels, this PA's among them? Its data cannot be rebuilt (R250). -/
def State.lostData (s : State) (pa : Nat) : Bool :=
  let (st, ch) := s.stackOf pa
  isHbm pa && s.hbmFail.contains (st, ch) && decide (2 ≤ (s.hbmFail.filter (fun f => f.1 == st && f.2 / 8 == ch / 8)).length)

/-- The die's slice that is a PA's home (R245), among its partition's slices (R446). -/
def State.homeSlice (s : State) (p d pa : Nat) : Nat :=
  let v := bitsAt pa 8 4 ^^^ bitsAt pa 12 4 ^^^ bitsAt pa 16 4 ^^^ bitsAt pa 20 4
  let sl := (List.range 16).filter (fun i => s.layout.now.quad.getD (4 * d + sliceQuad i) 0 == p)
  if sl.isEmpty then v else sl.getD (v % sl.length) 0

/-- A fault of a walk: code and detail. -/
abbrev WRes (α : Type) := Except (Nat × Nat) α

/-- Page size of a leaf at a level (R251). -/
def pageSize (l : Nat) : Nat := 2 ^ (12 + 9 * (3 - l))

/-- The checks on the page a stage-2 leaf maps (R231, R278, R446). -/
def State.pageChecks (s : State) (part base size : Nat) : WRes Unit :=
  if decide (base < sysBase) && decide (hbmEnd < base + size) then .error (0x0C, 0x06)
  else if decide (sysBase ≤ base) then .ok ()
  else if (List.range 16).any (fun p => let q := s.part p; q.resTotal != 0 && decide (base < (q.resBase + q.resTotal) * 2 ^ 20) && decide (q.resBase * 2 ^ 20 < base + size)) then .error (0x0C, 0x07)
  else
    let w := s.layout.now.hbm.getD part (0, 0)
    if decide (base < w.1) || decide (w.1 + w.2 < base + size) then .error (0x0C, 0x08) else .ok ()

/-- One table entry (R252): reserved bits, a misaligned leaf (one of level 0 too, log 104), or permissions on a pointer. -/
def badEntry (e l : Nat) : Bool :=
  bitsAt e 52 12 != 0 || bitsAt e 5 7 != 0 ||
  (if bitsAt e 1 1 == 1 then bitsAt e 12 40 * 4096 % pageSize l != 0 else bitsAt e 2 3 != 0)

/-! ## Bound views (R355 to R358) -/

/-- Bytes of a binding's view. -/
def Binding.viewLen (b : Binding) : Nat := b.nrec * (if b.wr then b.rin else b.rout)
/-- Bytes of one view record. -/
def Binding.viewRec (b : Binding) : Nat := if b.wr then b.rin else b.rout
/-- Does a binding claim a PA? -/
def Binding.covers (b : Binding) (pa : Nat) : Bool := b.st != .free && decide (b.view ≤ pa) && decide (pa < b.view + b.viewLen)

/-- The binding that claims a PA: array, entry, binding. -/
def State.bindingAt (s : State) (pa : Nat) : Option (Nat × Nat × Binding) :=
  (s.arrays.l.flatMap (fun a => a.2.binds.l.map (fun e => (a.1, e.1, e.2)))).find? (fun x => x.2.2.covers pa)

/-! ## Reading memory as an agent of a die -/

/-- What a read of memory gives: bytes; a view line to wait for; fault 0x18 with the first failing byte and its DETAIL (R355, R357); or lost
data (R250). -/
inductive MemRd where
  | bytes (b : Bytes)
  | line (pa : Nat)
  | bad (detail pa : Nat)
  | lost
  deriving DecidableEq, Repr

/-- A 64-byte line as a die sees it: the line of a read view where an ACTIVE binding serves it (R355). -/
def State.memLine (s : State) (d line : Nat) : MemRd :=
  let pa := 64 * line
  match s.bindingAt pa with
  | none => if s.lostData pa then .lost else .bytes ((s.die d).view.readN pa 64)
  | some (_, _, b) =>
    if b.st == .faulted then .bad 4 pa
    else if b.st != .active then .line pa
    else if b.wr then .bad 2 pa
    else match (s.die d).viewL2.find line with
      | some l => .bytes l
      | none => .line pa

/-- Lines of memory one after the other, up to the first that cannot be read. -/
def State.memLines (s : State) (d : Nat) : Nat → Nat → MemRd
  | 0, _ => .bytes []
  | n + 1, line =>
    match s.memLine d line with
    | .bytes b => (match s.memLines d n (line + 1) with
      | .bytes r => .bytes (b ++ r)
      | x => x)
    | x => x

/-- n bytes at a PA as an agent of a die reads them; system memory stands at the host. -/
def State.memRead (s : State) (d pa n : Nat) : MemRd :=
  if isSys pa then .bytes (s.hostMem.readN (pa - sysBase) n)
  else match s.memLines d ((pa + n + 63) / 64 - pa / 64) (pa / 64) with
    | .bytes b => .bytes ((b.drop (pa % 64)).take n)
    | .bad x p => .bad x (max p pa)
    | x => x

/-- A translation into its TLB of n entries (R255): where it is full another entry goes, a free choice. -/
def State.addTlb (s : State) (n : Nat) (e : TlbEnt) : State :=
  let mine := s.tlbs.filter (fun x => x.core == e.core && x.tlb == e.tlb)
  if mine.length < n then { s with tlbs := s.tlbs ++ [e] }
  else
    let (f, s1) := s.newFresh
    match mine[Config.victim f % mine.length]? with
    | some v => { s1 with tlbs := s1.tlbs.erase v ++ [e] }
    | none => s1

/-- A table entry as a die's walker reads it: one that its page-walk cache keeps (R255), or memory. Code 0 says that it is lost (R250), code 1
that its line of a read view has still to come (R355). -/
def State.pte (s : State) (d pa : Nat) : WRes Nat :=
  match s.memRead d pa 8, (s.die d).pwc.find pa with
  | .bytes _, some e => .ok e
  | .bytes b, none => .ok (leNat b)
  | .line p, _ => .error (1, p)
  | .bad x _, _ => .error (0x18, x)
  | .lost, _ => .error (0, 0)

/-- walk (R253), from level 4 − fuel: the leaf's page base, level, and R W X bits. `rd` gives the PA of a table address.  -/
def walkFrom (mem : Nat → WRes Nat) (code : Nat) (addr : Nat) (rd : Nat → WRes Nat) (t : Nat) : Nat → WRes (Nat × Nat × Nat)
  | 0 => .error (code, 0x35)
  | fuel + 1 =>
    let l := 3 - fuel
    match rd (t + bitsAt addr (39 - 9 * l) 9 * 8) with
    | .error x => .error x
    | .ok ta =>
      if !isHbm ta then .error (code, 0x10 * l + 4) else
      match mem ta with
      | .error x => .error x
      | .ok e =>
      if e % 2 == 0 then .error (code, 0x10 * l + 2)
      else if badEntry e l then .error (code, 0x10 * l + 3)
      else if bitsAt e 1 1 == 1 then (if l == 0 then .error (code, 0x05) else .ok (bitsAt e 12 40 * 4096, l, bitsAt e 2 3))
      else walkFrom mem code addr rd (bitsAt e 12 40 * 4096) fuel

/-- Stage 2 of an IPA for a function, as a die sees its tables: PA, page size, permissions (R251, R253, R456). -/
def State.stage2 (s : State) (d part ipa : Nat) : WRes (Nat × Nat × Nat) :=
  let root := (s.fn part).s2root.toNat
  if root % 2 == 0 then .error (0x0C, 0x02) else
  match walkFrom (s.pte d) 0x0C ipa .ok (bitsAt root 12 40 * 4096) 4 with
  | .error x => .error x
  | .ok (base, l, perm) =>
    match s.pageChecks part base (pageSize l) with
    | .error x => .error x
    | .ok _ => .ok (base + ipa % pageSize l, pageSize l, perm)

/-- The stage-1 root of a PASID, or fault 0x0B where it is revoked or its entry is not in form (R461, R463). The table stands at a PA. -/
def State.pasidRoot (s : State) (d part pasid : Nat) : WRes Nat :=
  let t := (s.fn part).pastab.toNat
  let a := bitsAt t 12 40 * 4096 + 16 * pasid
  if 2 ^ (min (t % 32) 20) ≤ pasid || !isHbm a then .error (0x0B, 0x07) else
  match s.pte d a, s.pte d (a + 8) with
  | .ok w0, .ok w1 => if w0 % 2 == 1 && bitsAt w0 1 11 == 0 && bitsAt w0 52 12 == 0 && w1 == 0 then .ok (bitsAt w0 12 40 * 4096) else .error (0x0B, 0x07)
  | .error x, _ => .error x
  | _, .error x => .error x

/-- The nested walk of a stage-1 table entry: a read at stage 2 (R253). -/
def State.nested (s : State) (d part ta : Nat) : WRes Nat :=
  match s.stage2 d part ta with
  | .error x => .error x
  | .ok (pa, _, perm) => if perm % 2 == 0 then .error (0x0D, 0x01) else .ok pa

/-- Both stages of a VA: PA, the smaller page, permissions of each stage, and the IPA with both page sizes (R354). -/
structure Walked where
  pa : Nat
  size : Nat
  p1 : Nat
  p2 : Nat
  ipa : Nat
  s1 : Nat
  s2 : Nat
  deriving DecidableEq, Repr

def State.walk (s : State) (d part pasid : Nat) (va : W64) : WRes Walked :=
  if !canonical va then .error (0x0B, 0x01) else
  match s.pasidRoot d part pasid with
  | .error x => .error x
  | .ok root =>
    match walkFrom (s.pte d) 0x0B va.toNat (s.nested d part) root 4 with
    | .error x => .error x
    | .ok (base, l, p1) =>
      let ipa := base + va.toNat % pageSize l
      match s.stage2 d part ipa with
      | .error x => .error x
      | .ok (pa, s2, p2) => .ok { pa := pa, size := min (pageSize l) s2, p1 := p1, p2 := p2, ipa := ipa, s1 := pageSize l, s2 := s2 }

/-- Access kinds with their permission bits R = 1, W = 2, X = 4 (R254). -/
inductive Acc where
  | r | w | x | rw
  deriving DecidableEq, Repr

def Acc.code : Acc → Nat
  | .r => 0
  | .w => 1
  | .x => 2
  | .rw => 3
def Acc.need : Acc → Nat
  | .r => 1
  | .w => 2
  | .x => 4
  | .rw => 3

/-- The permission check at stage 1, then stage 2 (R254). -/
def permCheck (a : Acc) (p1 p2 : Nat) : Option (Nat × Nat) :=
  if p1 &&& a.need != a.need then some (0x0D, 2 * a.code)
  else if p2 &&& a.need != a.need then some (0x0D, 2 * a.code + 1) else none

/-- What a translation gives: a PA, a miss that starts a walk, or a fault. -/
inductive Tr where
  | pa (a : Nat)
  | miss
  | fault (code detail : Nat)
  deriving DecidableEq, Repr

def TlbEnt.covers (e : TlbEnt) (core tlb fn pasid : Nat) (va : Nat) : Bool :=
  e.core == core && e.tlb == tlb && e.fn == fn && e.pasid == pasid && decide (e.va ≤ va) && decide (va < e.va + e.size)

/-- The translation that a core's TLB, or its die's second-level TLB, holds for an address (R255). -/
def State.tlbHit (s : State) (core tlb fn pasid va : Nat) : Option TlbEnt :=
  (s.tlbs.find? (fun e => e.covers core tlb fn pasid va)).orElse (fun _ => s.tlbs.find? (fun e => e.covers (dieOf core) 3 fn pasid va))

/-- The translation of an access (R254, R255): alignment, canonical form, then the TLBs' entry; a miss asks for a walk, and a walk that
ended in a fault gives that fault. Atomics take no system memory (R239): where the page also lacks a permission, that fault comes first (log 95). -/
def State.translate (s : State) (core tlb pasid : Nat) (va : W64) (a : Acc) (align : Nat) : Tr :=
  if va.toNat % align != 0 then .fault 0x09 0
  else if !canonical va then .fault 0x0B 0x01
  else
    let fn := s.partOf core
    match s.tlbHit core tlb fn pasid va.toNat with
    | some e =>
      let pa := e.pa + (va.toNat - e.va)
      match permCheck a e.p1 e.p2 with
      | some f => .fault f.1 f.2
      | none => if a == .rw && isSys pa then .fault 0x0D 0x09 else .pa pa
    | none =>
      match s.walkFaults.find? (fun f => f.core == core && f.tlb == tlb && f.fn == fn && f.pasid == pasid && f.page == va.toNat / 4096) with
      | some f => .fault f.code f.detail
      | none => .miss

/-- A walk fault is used up by the access that takes it. -/
def State.clearWalk (s : State) (core tlb : Nat) (va : W64) : State :=
  { s with walkFaults := s.walkFaults.filter (fun f => !(f.core == core && f.tlb == tlb && f.page == va.toNat / 4096)) }

/-- A core that starts or replays has no walk fault of an access made before. -/
def State.dropFaults (s : State) (core : Nat) : State := { s with walkFaults := s.walkFaults.filter (fun f => f.core != core) }

end Sys2Proof.Machine
end

