-- ==== Sys2Proof/Machine/Operands.lean ====
section
/-! DEFINITION. Operand forms: layout records, tile operands, element types of queues, and for every op word what it names: the scalar
sources, the result with its latency, guards, queue sources, appended entries, declared resources, and the type rules. -/
namespace Sys2Proof.Machine

/-! ## Layout records (R298 to R300) -/

abbrev Lay := BitVec 768

def layBase (r : Lay) : Nat := bitsAt r.toNat 0 64
def layType (r : Lay) : Nat := bitsAt r.toNat 64 4
def layRank (r : Lay) : Nat := bitsAt r.toNat 68 3 + 1
def layFillen (r : Lay) : Bool := bitsAt r.toNat 71 1 == 1
def layBkg (r : Lay) : Nat := bitsAt r.toNat 72 4
def layBkn (r : Lay) : Nat := bitsAt r.toNat 76 4
def layFillv (r : Lay) : Nat := bitsAt r.toNat 80 32
def layExt (r : Lay) (d : Nat) : Nat := bitsAt r.toNat (128 + 104 * d) 32
def layStr (r : Lay) (d : Nat) : Int := sInt 48 (bitsAt r.toNat (160 + 104 * d) 48)
def layWin (r : Lay) (d : Nat) : Nat := bitsAt r.toNat (208 + 104 * d) 16

/-- Bytes of one element of a record: a packed block for the QB types (R299). -/
def elemBytes (t : Nat) : Nat := if t == 9 then 18 else if t == 10 then 34 else if t == 11 then 66 else tyWidth t / 8

/-- Window elements (R304). -/
def layCount (r : Lay) : Nat := (List.range (layRank r)).foldl (fun a d => a * layWin r d) 1
/-- Window bytes B (R304). -/
def layBytes (r : Lay) : Nat := elemBytes (layType r) * layCount r

/-- The lowest reserved bit of R298 that is nonzero. -/
def layReserved (r : Lay) : Option Nat :=
  ((List.range' 112 16) ++ ((List.range 6).flatMap (fun d => List.range' (224 + 104 * d) 8)) ++ List.range' 752 16).find? (fun i => r.getLsbD i)

/-- The first failing check of R299: code, order, TADDR (R372). -/
def layCheck (r : Lay) : Option (Nat × Nat × Nat) :=
  let n := layRank r
  let ds := List.range (min n 6)
  match layReserved r with
  | some b => some (0x0F, 1, b)
  | none =>
    if 13 ≤ layType r then some (0x10, 2, 0)
    else if 7 ≤ n then some (0x10, 3, 0)
    else if ds.any (fun d => layExt r d == 0 || layWin r d == 0) then some (0x10, 4, 0)
    else if (List.range' n (6 - n)).any (fun d => layExt r d != 0 || layStr r d != 0 || layWin r d != 0) then some (0x10, 5, 0)
    else
      let al := if tyQB (layType r) then 2 else elemBytes (layType r)
      if layBase r % al != 0 || ds.any (fun d => layStr r d % al != 0) then some (0x10, 6, 0)
      else if 6 < layBkn r || (1 ≤ layBkn r && (layBkg r < 2 || 8 < layBkg r)) || (layBkn r == 0 && layBkg r != 0) then some (0x10, 7, 0)
      else if tyQB (layType r) && layFillv r != 0 then some (0x10, 8, 0)
      else none

/-- Entries of one tile or run that a queue copy names (R312): none where a QB window is no whole number of tiles. -/
def layEntries (r : Lay) : Option Nat :=
  let t := layType r
  if tyQB t then (if layCount r % 128 == 0 then some (layCount r / 128 * (if t == 9 then 9 else if t == 10 then 17 else 33)) else none)
  else some ((layBytes r + 255) / 256)

/-! ## Tile operands (R166) -/

def aTile (t : Nat) : Option Nat := if t == 9 then some 9 else if t == 10 then some 17 else if t == 11 then some 33 else if t == 6 || t == 7 then some 32 else none
def bTile (t : Nat) : Option Nat := (aTile t).map (4 * ·)
def nonQbTile (t : Nat) : Option Nat :=
  if t == 6 || t == 7 || t == 2 then some 32 else if t == 8 || t == 3 then some 64
  else if t == 0 || t == 1 || t == 4 || t == 5 then some 16 else none
def anyTile (t : Nat) : Option Nat := if tyQB t then aTile t else nonQbTile t

/-! ## What an op word names -/

/-- How a scalar or predicate result becomes visible (R31, R139). -/
inductive Lat where
  | fe | next | second | third
  deriving DecidableEq, Repr

def Lat.bundles : Lat → Nat
  | .fe => 0
  | .next => 1
  | .second => 2
  | .third => 3

structure Shape where
  /-- Scalar sources with their block bits. -/
  regs : List (Nat × Bool) := []
  /-- Registers the issue itself needs (JR, CHRD), with block bits. -/
  now : List (Nat × Bool) := []
  dst : Option (Dst × Lat) := none
  /-- A guard that enables the op; 31 always. -/
  guard : Nat := 31
  /-- A stage guard. -/
  sg : BitVec 4 := 0
  /-- Predicates read as values or lane masks (31 reads none). -/
  preds : List Nat := []
  qsrc : List (QSpec × Nat) := []
  app : List (Nat × Nat) := []
  /-- The queue a queue op of the S slot names (R123 to R127). -/
  quse : Option Nat := none
  lays : List Nat := []
  ctrs : List Nat := []
  rts : List Nat := []
  accs : List Nat := []
  /-- The rules of R18, R37, R137, R150, R166 and R175 to R179 on queues and types hold; none of them reads an operand value. -/
  tyOk : Bool := true
  deriving DecidableEq, Repr

def shSR (o : SR) (l : Lat) : Shape :=
  { regs := [(o.a.toNat, o.ba), (o.b.toNat, o.bb)], dst := some (.reg o.d.toNat, l), guard := o.g.toNat }
def shSR1 (o : SR1) : Shape := { regs := [(o.a.toNat, o.ba)], dst := some (.reg o.d.toNat, .next), guard := o.g.toNat }
def shCmp (o : SR) : Shape :=
  { regs := [(o.a.toNat, o.ba), (o.b.toNat, o.bb)], dst := some (.pred o.d.toNat, .next), guard := o.g.toNat }
def shI (d a : BitVec 6) (ba : Bool) (l : Lat) : Shape := { regs := [(a.toNat, ba)], dst := some (.reg d.toNat, l) }
def shIP (d a : BitVec 6) (ba : Bool) : Shape := { regs := [(a.toNat, ba)], dst := some (.pred d.toNat, .next) }
def shLd (d a : BitVec 6) (ba : Bool) : Shape := { regs := [(a.toNat, ba)], dst := some (.reg d.toNat, .fe) }
def shSt (d a : BitVec 6) (ba : Bool) : Shape := { regs := [(a.toNat, ba), (d.toNat, true)] }
def shAtom (o : SA) (ret : Bool) : Shape :=
  { regs := [(o.a.toNat, o.ba), (o.v.toNat, o.bv)] ++ (if o.aop == 1#4 then [(o.c.toNat, o.bc)] else []),
    dst := if ret then some (.reg o.d.toNat, .fe) else none }
/-- A SYS op's scalar source has no block bit and waits (R83). -/
def shSys (a : BitVec 6) : Shape := { regs := [(a.toNat, true)] }
def shSysD (d : BitVec 6) (l : Lat) : Shape := { dst := some (.reg d.toNat, l) }
def shSysDA (d a : BitVec 6) (l : Lat) : Shape := { regs := [(a.toNat, true)], dst := some (.reg d.toNat, l) }

def Core.qOn (k : Core) (q : BitVec 3) : Bool := (k.queue q.toNat).en
def Core.qTy (k : Core) (q : BitVec 3) : Nat := (k.queue q.toNat).ty

/-- Queues of class F (R137): floats of one width. -/
def Core.clsF (k : Core) (l : List (BitVec 3)) : Bool :=
  l.all (fun q => k.qOn q && tyFloat (k.qTy q)) && l.all (fun q => l.all (fun p => tyWidth (k.qTy q) == tyWidth (k.qTy p)))
/-- Queues of class I: integers of one width. -/
def Core.clsI (k : Core) (l : List (BitVec 3)) : Bool :=
  l.all (fun q => k.qOn q && tyInt (k.qTy q)) && l.all (fun q => l.all (fun p => tyWidth (k.qTy q) == tyWidth (k.qTy p)))
/-- Queues of class X: no QB type, one width. -/
def Core.clsX (k : Core) (l : List (BitVec 3)) : Bool :=
  l.all (fun q => k.qOn q && !tyQB (k.qTy q)) && l.all (fun q => l.all (fun p => tyWidth (k.qTy q) == tyWidth (k.qTy p)))

def g31 (g : BitVec 5) : List Nat := if g == 31#5 then [] else [g.toNat]

def Core.shVT (k : Core) (o : VT) (cls : Core → List (BitVec 3) → Bool) : Shape :=
  { preds := g31 o.g, qsrc := [(o.a, 1), (o.b, 1)], app := [(o.q.toNat, 1)], tyOk := cls k [o.q, o.a.q, o.b.q] }
def Core.shVU (k : Core) (o : VU) (cls : Core → List (BitVec 3) → Bool) : Shape :=
  { preds := g31 o.g, qsrc := [(o.a, 1)], app := [(o.q.toNat, 1)], tyOk := cls k [o.q, o.a.q] }
def Core.shVP (k : Core) (p : BitVec 5) (a b : QSpec) : Shape :=
  { dst := some (.pred p.toNat, .second), qsrc := [(a, 1), (b, 1)], tyOk := k.clsF [a.q, b.q] || k.clsI [a.q, b.q] }

/-- The pairs of R150, with its rule on USRC and UDST. -/
def cvtOk (op : Nat) (ts td : Nat) (o : VC) : Bool :=
  let ws := tyWidth ts
  let wd := tyWidth td
  !tyQB ts && !tyQB td && ts < 13 && td < 13 && (!o.usrc || ts == 2 || ts == 3) && (!o.udst || td == 2 || td == 3) &&
  (if op == 0 then ws == wd && ((ts == 12) == (td == 12))
   else if op == 1 then ws == wd && tyFloat ts && td != 12
   else if op == 2 then (ws == 2 * wd || ws == 4 * wd) && (ts != 12 || td == 3 || td == 2)
   else (wd == 2 * ws || wd == 4 * ws) && (td != 12 || ts == 3 || ts == 2))

def Core.shVC (k : Core) (o : VC) (op : Nat) : Shape :=
  let ts := k.qTy o.a.q
  let td := k.qTy o.q
  let r := if op == 2 then tyWidth ts / tyWidth td else if op == 3 then tyWidth td / tyWidth ts else 1
  { preds := g31 o.g, qsrc := [(o.a, if op == 2 then r else 1)], app := [(o.q.toNat, if op == 3 then r else 1)],
    tyOk := k.qOn o.a.q && k.qOn o.q && cvtOk op ts td o && (op != 2 || decide (o.a.k.toNat + r ≤ 32)) }

/-- The copy commands that walk a window and use no queue; `x` counts the registers after the origin. -/
def Core.shCN (k : Core) (o : CN) (x : Nat) : Shape :=
  let n := layRank (k.lays.get o.l.toNat 0) + x
  { regs := (List.range n).map (fun i => (o.s.toNat + i, true)), sg := o.sg, lays := [o.l.toNat], ctrs := if o.np then [] else [o.c.toNat] }

/-- CLDQ, CSTQ and CRED. -/
def Core.shCQ (k : Core) (o : CQ) (append : Bool) : Shape :=
  let r := k.lays.get o.l.toNat 0
  let n := (layEntries r).getD 0
  { regs := (List.range (layRank r)).map (fun i => (o.s.toNat + i, true)), sg := o.sg, lays := [o.l.toNat], ctrs := if o.np then [] else [o.c.toNat],
    qsrc := if append then [] else [({ b := true, q := o.q, k := 0 }, n)], app := if append then [(o.q.toNat, n)] else [],
    tyOk := k.qOn o.q }

/-- What an op word names, on a core whose queues and layout records stand as they do, with a prefix repeat. -/
def shapeOf (k : Core) (rep : Rep) : Instr → Shape
  | .add o | .sub o | .and o | .or o | .xor o | .shl o | .shr o | .sar o | .min o | .max o | .minz o | .maxz o => shSR o .next
  | .mul o | .mulh o | .mulhz o => shSR o .third
  | .div o | .divz o | .rem o | .remz o => shSR o .fe
  | .sel o => { shSR o .next with guard := 31, preds := g31 o.g }
  | .bcnt o | .clz o | .ctz o => shSR1 o
  | .cmpeq o | .cmpne o | .cmplt o | .cmple o | .cmpltz o | .cmplez o => shCmp o
  | .addi o | .andi o | .ori o | .xori o | .shli o | .shri o | .sari o | .movh o => shI o.d o.a o.ba .next
  | .muli o => shI o.d o.a o.ba .third
  | .addiLimm o | .andiLimm o | .oriLimm o | .xoriLimm o | .shliLimm o | .shriLimm o | .sariLimm o | .movhLimm o => shI o.d o.a o.ba .next
  | .muliLimm o => shI o.d o.a o.ba .third
  | .movl d _ => shSysD d .next
  | .movlLimm d _ => shSysD d .next
  | .cmpeqi o | .cmplti o => shIP o.d o.a o.ba
  | .cmpeqiLimm o | .cmpltiLimm o => shIP o.d o.a o.ba
  | .ldg o | .lds o => shLd o.d o.a o.ba
  | .ldgOff32 o | .ldsOff32 o => shLd o.d o.a o.ba
  | .stg o | .sts o => shSt o.d o.a o.ba
  | .stgOff32 o | .stsOff32 o => shSt o.d o.a o.ba
  | .ldf o | .ldff o => shLd o.d o.a o.ba
  | .ldfOff32 o | .ldffOff32 o => shLd o.d o.a o.ba
  | .ste o => shSt o.d o.a o.ba
  | .steOff32 o => shSt o.d o.a o.ba
  | .atom o | .atomg o => shAtom o true
  | .radd o => shAtom o false
  | .br o | .call o => { preds := g31 o.g }
  | .jr ba a g => { now := [(a.toNat, ba)], guard := g.toNat }
  | .loop o => { regs := [(o.a.toNat, o.ba)] }
  | .launch d ba a g => { regs := [(a.toNat, ba)], dst := some (.reg d.toNat, .fe), guard := g.toNat }
  | .nop | .halt | .sync => {}
  | .trap _ => {}
  | .eret _ => {}
  | .sysr d _ => shSysD d .next
  | .sysw a _ => shSys a
  | .fence _ _ => {}
  | .waitc _ c => { ctrs := [c.toNat] }
  | .waitcPoll d c => { shSysD d .next with ctrs := [c.toNat] }
  | .ctrinit a _ c => { shSys a with ctrs := [c.toNat] }
  | .ctrpost a _ => shSys a
  | .qcfg a q | .qsplice a q | .qaccept a q => { shSys a with quse := some q.toNat }
  | .qwr a q => { shSys a with quse := some q.toNat, tyOk := k.qOn q || k.limLogc q.toNat == 0 }
  | .qreset q | .qunsplice q => { quse := some q.toNat }
  | .qocc d q => { shSysD d .next with quse := some q.toNat, tyOk := k.qOn q || k.limLogc q.toNat == 0 }
  | .qrd d q => { shSysD d .next with quse := some q.toNat }
  | .lset a l _ => { shSys a with lays := [l.toNat] }
  | .lget d l _ => { shSysD d .next with lays := [l.toNat] }
  | .ldlay a l | .stlay a l => { shSys a with lays := [l.toNat] }
  | .rtset a e => { shSys a with rts := [e.toNat] }
  | .rtclr e => { rts := [e.toNat] }
  | .rtwm d e => { shSysD d .next with rts := [e.toNat] }
  | .pand d a b | .por d a b | .pxor d a b => { dst := some (.pred d.toNat, .next), preds := [a.toNat, b.toNat] }
  | .pnot d a => { dst := some (.pred d.toNat, .next), preds := [a.toNat] }
  | .pmovs d a => { dst := some (.reg d.toNat, .next), preds := [a.toNat] }
  | .pmovp d a | .pseta d a => { regs := [(a.toNat, true)], dst := some (.pred d.toNat, .next) }
  | .chopen d a | .fencerec d a | .peelpost d a => shSysDA d a .fe
  | .chclose d a _ | .kndict d a _ | .knbind d a _ => shSysDA d a .fe
  | .chstat d a _ => shSysDA d a .fe
  | .wqtake d a _ _ => shSysDA d a .fe
  | .knload d a _ _ => shSysDA d a .fe
  | .knunbind d a _ _ => shSysDA d a .fe
  | .vadd o | .vsub o | .vmul o | .vmin o | .vmax o => k.shVT o Core.clsF
  | .vfma o c | .vfms o c =>
    { preds := g31 o.g, qsrc := [(o.a, 1), (o.b, 1), (c, 1)], app := [(o.q.toNat, 1)], tyOk := k.clsF [o.q, o.a.q, o.b.q, c.q] }
  | .vabs o | .vneg o | .vrcp o | .vrsq o | .vexp2 o | .vlog2 o | .vsig o | .vtanh o => k.shVU o Core.clsF
  | .viadd o | .visub o | .vimul o | .vimin o | .vimax o | .vshl o | .vshr o | .vsar o | .viadds o => k.shVT o Core.clsI
  | .vand o | .vor o | .vxor o | .vsel o => k.shVT o Core.clsX
  | .vcmpeq p a b | .vcmplt p a b | .vcmple p a b => k.shVP p a b
  | .vmov o => k.shVC o 0
  | .vcvtz o => k.shVC o 1
  | .vpack o => k.shVC o 2
  | .vunpk o => k.shVC o 3
  | .vbcast o => { regs := [(o.s.toNat, o.bs)], preds := g31 o.g, app := [(o.q.toNat, 1)], tyOk := k.clsX [o.q] }
  | .viota o => { regs := [(o.s.toNat, o.bs)], preds := g31 o.g, app := [(o.q.toNat, 1)], tyOk := k.clsI [o.q] }
  | .vshuf o => { k.shVT o Core.clsX with tyOk := k.clsX [o.q, o.a.q, o.b.q] && tyInt (k.qTy o.b.q) }
  | .vrot o => { regs := [(o.s.toNat, o.bs)], preds := g31 o.g, qsrc := [(o.a, 1)], app := [(o.q.toNat, 1)], tyOk := k.clsX [o.q, o.a.q] }
  | .vrsum o | .vrmax o | .vrmin o => k.shVU o (fun k l => k.clsF l || k.clsI l)
  | .vlds o => { regs := [(o.s.toNat, o.bs)], preds := g31 o.g, app := [(o.q.toNat, 1)], tyOk := k.clsX [o.q] }
  | .vsts o => { regs := [(o.s.toNat, o.bs)], preds := g31 o.g, qsrc := [(o.a, 1)], tyOk := k.clsX [o.a.q] }
  | .vgath o =>
    { regs := [(o.s.toNat, o.bs)], preds := g31 o.g, qsrc := [(o.a, 1)], app := [(o.q.toNat, 1)],
      tyOk := k.clsX [o.q, o.a.q] && tyInt (k.qTy o.a.q) && tyWidth (k.qTy o.q) != 8 }
  | .vscat o =>
    { regs := [(o.s.toNat, o.bs)], preds := g31 o.g, qsrc := [(o.a, 1), ({ b := true, q := o.q, k := 0 }, 1)],
      tyOk := k.clsX [o.q, o.a.q] && tyInt (k.qTy o.q) && tyWidth (k.qTy o.q) != 8 }
  | .vracc o => { regs := [(o.s.toNat, o.bs)], preds := g31 o.g, app := [(o.q.toNat, 1)], tyOk := k.qOn o.q && k.qTy o.q == 8 }
  | .vwacc o => { regs := [(o.s.toNat, o.bs)], preds := g31 o.g, qsrc := [(o.a, 1)], tyOk := k.qOn o.a.q && k.qTy o.a.q == 8 }
  | .mldb a _ sg => { sg := sg, qsrc := [(a, (bTile (k.qTy a.q)).getD 0)], tyOk := k.qOn a.q && (bTile (k.qTy a.q)).isSome }
  | .mldbw bs r t _ sg => { regs := [(r.toNat, bs)], sg := sg, tyOk := (bTile t.toNat).isSome }
  | .mmul a c _ sg | .mmac a c _ sg =>
    { sg := sg, qsrc := [(a, (aTile (k.qTy a.q)).getD 0)], accs := [c.toNat, c.toNat + (rep.n - 1) * rep.step],
      tyOk := k.qOn a.q && (aTile (k.qTy a.q)).isSome && (rep.n == 0 || a.k == 0) }
  | .mzero c sg => { sg := sg, accs := [c.toNat, c.toNat + (rep.n - 1) * rep.step] }
  | .msetx _ c sg => { sg := sg, accs := [c.toNat, c.toNat + (rep.n - 1) * rep.step] }
  | .mscl _ c sg => { sg := sg, accs := [c.toNat, c.toNat + (rep.n - 1) * rep.step] }
  | .mrdout q c sg =>
    let n := (anyTile (k.qTy q)).getD 0 * max rep.n 1
    { sg := sg, app := [(q.toNat, n)], accs := [c.toNat, c.toNat + (rep.n - 1) * rep.step],
      tyOk := k.qOn q && (anyTile (k.qTy q)).isSome && (rep.n == 0 || decide (n ≤ (k.queue q.toNat).cap)) }
  | .mcvt a q sg =>
    { sg := sg, qsrc := [(a, (anyTile (k.qTy a.q)).getD 0)], app := [(q.toNat, (anyTile (k.qTy q)).getD 0)],
      tyOk := k.qOn a.q && k.qOn q && (anyTile (k.qTy a.q)).isSome && (anyTile (k.qTy q)).isSome && (tyQB (k.qTy a.q) != tyQB (k.qTy q)) }
  | .mreq a q t sg =>
    { sg := sg, qsrc := [(a, (aTile (k.qTy a.q)).getD 0 + (if t then 1 else 0))], app := [(q.toNat, (aTile (k.qTy q)).getD 0)],
      tyOk := k.qOn a.q && k.qOn q && tyQB (k.qTy a.q) && tyQB (k.qTy q) }
  | .mtrn a q sg =>
    { sg := sg, qsrc := [(a, 4 * (anyTile (k.qTy a.q)).getD 0)], app := [(q.toNat, 4 * (anyTile (k.qTy q)).getD 0)],
      tyOk := k.qOn a.q && k.qOn q && (anyTile (k.qTy a.q)).isSome && k.qTy a.q == k.qTy q }
  | .macccp m c sg => { sg := sg, accs := [m.toNat, c.toNat], tyOk := m != c }
  | .cldq o => k.shCQ o true
  | .cstq o => k.shCQ o false
  | .cred o => k.shCQ o false
  | .clds o => k.shCN o 1
  | .csts o => k.shCN o 1
  | .cws o => k.shCN o 1
  | .cbcast o => k.shCN o 1
  | .cpref o => k.shCN o 0
  | .czero o => k.shCN o 0
  | .ccpy o =>
    let n := layRank (k.lays.get o.l.toNat 0)
    { regs := (List.range (2 * n)).map (fun i => (o.s.toNat + i, true)), sg := o.sg, lays := [o.l.toNat, o.q.toNat],
      ctrs := if o.np then [] else [o.c.toNat] }
  | .crwr o =>
    { regs := [(o.s.toNat, true)], sg := o.sg, qsrc := [({ b := true, q := o.q, k := 0 }, o.l.toNat + 1)],
      ctrs := if o.np then [] else [o.c.toNat], tyOk := k.qOn o.q }
  | .cfred l q s c _ np sg =>
    { regs := [(s.toNat, true)], sg := sg, qsrc := [({ b := true, q := q, k := 0 }, l.toNat + 1)], ctrs := if np then [] else [c.toNat], tyOk := k.qOn q }
  | .chwr l q s _ sg => { regs := [(s.toNat, true)], sg := sg, qsrc := [({ b := true, q := q, k := 0 }, l.toNat + 1)], tyOk := k.qOn q }
  | .chrd l q s _ sg => { now := [(s.toNat, true)], sg := sg, app := [(q.toNat, l.toNat + 1)], tyOk := k.qOn q }
  | _ => {}

/-- The window copy commands' layout registers with the rules of R299 and of each command (R308): the fault, if there is one. CCPY's
source record is checked before its destination's (R372). -/
def Core.copyCheck (k : Core) (i : Instr) : Option (Nat × Nat × Nat) :=
  let rec1 (l : Nat) : Option (Nat × Nat × Nat) := (layCheck (k.lays.get l 0)).map (fun f => (f.1, 16 * l + f.2.1, f.2.2))
  let bad4 (b : Bool) : Option (Nat × Nat × Nat) := if b then some (0x04, 0, 0) else none
  let regs63 : Bool := (shapeOf k {} i).regs.any (fun p => 63 < p.1)
  let qside (o : CQ) : Option (Nat × Nat × Nat) :=
    match rec1 o.l.toNat with
    | some f => some f
    | none =>
      let r := k.lays.get o.l.toNat 0
      if layType r != k.qTy o.q then some (0x04, 0, 0) else
      match layEntries r with
      | none => some (0x10, 16 * o.l.toNat, 0)
      | some n => bad4 (decide ((k.queue o.q.toNat).cap < n) || regs63)
  let nside (o : CN) : Option (Nat × Nat × Nat) :=
    match rec1 o.l.toNat with
    | some f => some f
    | none => bad4 regs63
  match i with
  | .cldq o => qside o
  | .cstq o => qside o
  | .cred o =>
    match qside o with
    | some f => some f
    | none => let t := layType (k.lays.get o.l.toNat 0); bad4 (t != 3 && t != 12 && t != 8)
  | .clds o => nside o
  | .csts o => nside o
  | .cws o => nside o
  | .cbcast o => nside o
  | .cpref o => nside o
  | .czero o => nside o
  | .ccpy o =>
    match rec1 o.l.toNat with
    | some f => some f
    | none =>
      match rec1 o.q.toNat with
      | some f => some f
      | none =>
        let r := k.lays.get o.l.toNat 0
        let m := k.lays.get o.q.toNat 0
        bad4 (layRank r != layRank m || (List.range 6).any (fun d => layWin r d != layWin m d) ||
          elemBytes (layType r) != elemBytes (layType m) || regs63)
  | _ => none

/-- The first declared limit an op exceeds: DETAIL of fault 0x07 (R100, R169, R308, R394). -/
def Core.limitFault (k : Core) (sh : Shape) (i : Instr) : Option Nat :=
  let regs := (sh.regs ++ sh.now).map (·.1) ++ (match sh.dst with | some (.reg n, _) => [n] | _ => []) ++
    (match i with | .call _ => [63] | _ => [])
  let preds := sh.preds ++ (if sh.guard == 31 then [] else [sh.guard]) ++ (match sh.dst with | some (.pred n, _) => [n] | _ => []) ++
    (match i with | .loop o => [16 + o.sm1.toNat] | _ => []) ++ (if sh.sg.getLsbD 3 then [16 + (sh.sg.extractLsb' 0 3).toNat] else [])
  if regs.any (fun n => k.limNreg ≤ n) then some 1
  else if preds.any (fun n => k.limNpred ≤ n) then some 2
  else if sh.quse.any (fun q => k.limLogc q == 0) then some 3
  else if sh.accs.any (fun n => k.limNacc ≤ n) then some 5
  else if sh.lays.any (fun n => k.limNlay ≤ n) then some 6
  else if sh.rts.any (fun n => k.limNrt ≤ n) then some 7
  else if sh.ctrs.any (fun n => k.limNctr ≤ n) then some 8
  else none

/-- The counter limit of a CRWR or CFRED is its target's (R316, R478, R329), not the issuing core's. -/
def localCtrs (i : Instr) (sh : Shape) : Shape :=
  match i with
  | .crwr _ => { sh with ctrs := [] }
  | .cfred .. => { sh with ctrs := [] }
  | _ => sh

/-! ## Ops by kind -/

/-- Serialising ops (R122, R218 to R220, R302). -/
def isSerial : Instr → Bool
  | .qcfg .. | .qreset .. | .qwr .. | .loop .. | .halt | .qsplice .. | .qaccept .. | .qunsplice .. | .ldlay .. => true
  | _ => false

/-- The queue whose name a serialising queue op keeps for itself in its bundle (R122). -/
def serialQueue : Instr → Option Nat
  | .qcfg _ q | .qwr _ q | .qsplice _ q | .qaccept _ q => some q.toNat
  | .qreset q | .qunsplice q => some q.toNat
  | _ => none

/-- M ops that take a repeat, and those that take ALTB (R169). -/
def repOk : Instr → Bool
  | .mmul .. | .mmac .. | .mzero .. | .msetx .. | .mscl .. | .mrdout .. => true
  | _ => false
def altOk : Instr → Bool
  | .mmul .. | .mmac .. => true
  | _ => false
/-- The first tile of an M op that takes a repeat. -/
def repTile : Instr → Nat
  | .mmul _ c _ _ | .mmac _ c _ _ => c.toNat
  | .mzero c _ => c.toNat
  | .msetx _ c _ | .mscl _ c _ => c.toNat
  | .mrdout _ c _ => c.toNat
  | _ => 0
/-- The queue a repeated MMUL or MMAC streams (R180). -/
def streamQueue : Instr → Option Nat
  | .mmul a _ _ _ | .mmac a _ _ _ => some a.q.toNat
  | _ => none

def isCopy : Instr → Bool
  | .cldq .. | .cstq .. | .clds .. | .csts .. | .ccpy .. | .cred .. | .crwr .. | .cpref .. | .cws .. | .cbcast .. | .czero .. => true
  | _ => false

/-- Ops that load (R266 step 1): from a scratchpad, from global memory, or into the core by a copy command that is released at once. -/
def isLoad : Instr → Bool
  | .ldg .. | .ldgOff32 .. | .lds .. | .ldsOff32 .. | .ldf .. | .ldfOff32 .. | .ldff .. | .ldffOff32 .. | .ldlay .. | .vlds .. | .vgath .. |
    .cldq .. | .clds .. => true
  | _ => false
/-- Ops that are reads for an acquire (R267): loads, and every WAITC (R330). -/
def isRead : Instr → Bool
  | .waitc .. | .waitcPoll .. => true
  | i => isLoad i

end Sys2Proof.Machine
end

