-- ==== Sys2Proof/Machine/Noc.lean ====
section
/-! DEFINITION. The die networks and base-die crossbars (19): topology, routing, arbitration and ageing, and bridge gates. -/
namespace Sys2Proof.Machine

/-- Where a packet starts or ends: a tile core, an L2 slice, the control core and stream controller of a die, or a port of a base die's
crossbar (16 and 17 memory controllers, 18 weight store, 22 to 24 Tuinil, 25 PCIe; 26 the Knead Arrays). -/
inductive Node where
  | core (c : Nat)
  | slice (d i : Nat)
  | ctl (d : Nat)
  | base (d port : Nat)
  deriving DecidableEq, Repr

def Node.die : Node → Nat
  | .core c => dieOf c
  | .slice d _ => d
  | .ctl d => d
  | .base d _ => d

/-- The node of a core id. -/
def nodeOf (c : Nat) : Node := if isCtl c then .ctl (dieOf c) else .core c

/-- Routers of cores 4i to 4i + 3 (R434). -/
def coreRouters : List (Nat × Nat) := [(0, 0), (1, 1), (0, 3), (1, 2), (2, 1), (3, 0), (2, 2), (3, 3)]
/-- L2 routers in ascending order, two slices each (R434, R245). -/
def l2Routers : List (Nat × Nat) := [(0, 1), (0, 2), (1, 0), (1, 3), (2, 0), (2, 3), (3, 1), (3, 2)]
/-- The two L2 routers of a quadrant as indices of `l2Routers` (R434). -/
def quadL2 (q x : Nat) : Nat := ([[0, 2], [1, 3], [4, 6], [5, 7]].getD q []).getD x 0

/-- Router and local port of a node on its die; none for a base-die port. -/
def Node.router : Node → Option ((Nat × Nat) × Nat)
  | .core c => some (coreRouters.getD (coreNo c / 4) (0, 0), 6 + coreNo c % 4)
  | .slice _ i => some (l2Routers.getD (i / 2) (0, 0), 6 + i % 2)
  | .ctl _ => some ((0, 0), 10)
  | .base _ _ => none

/-- The quadrant, 0 to 3, of a node on its die. -/
def Node.quad : Node → Nat
  | .core c => coreNo c / 8
  | .slice _ i => sliceQuad i
  | .ctl _ => 0
  | .base _ _ => 0

/-- The network port of a router that leads along its row to a column, or along its column to a row. -/
def rowPort (c c2 : Nat) : Nat := if c2 < c then c2 else c2 - 1
def colPort (r r2 : Nat) : Nat := 3 + (if r2 < r then r2 else r2 - 1)

def unitOf (d : Nat) (rc : Nat × Nat) : Nat := 16 * d + 4 * rc.1 + rc.2

/-- The stages on one die: first along the row, then along the column (R437). A stage is unit, input port, output port. -/
def dieStages (d : Nat) (a : Nat × Nat) (inP : Nat) (b : Nat × Nat) (outP : Nat) : List (Nat × Nat × Nat) :=
  let m : Nat × Nat := (a.1, b.2)
  let s1 := if a.2 == b.2 then [] else [(unitOf d a, inP, rowPort a.2 b.2)]
  let in1 := if a.2 == b.2 then inP else rowPort b.2 a.2
  let s2 := if a.1 == b.1 then [] else [(unitOf d m, in1, colPort a.1 b.1)]
  let in2 := if a.1 == b.1 then in1 else colPort b.1 a.1
  s1 ++ s2 ++ [(unitOf d b, in2, outP)]

/-- The die-to-die port of a base die towards another die, in ascending order (R443). -/
def d2dPort (d e : Nat) : Nat := 19 + (if e < d then e else e - 1)

/-- The path of a packet (R437): a fixed function of source, destination and X. -/
def pathOf (a b : Node) (x : Nat) : List (Nat × Nat × Nat) :=
  let down (q : Nat) : Nat := quadL2 q x
  let up (d : Nat) (n : Node) (from_ : Nat) : List (Nat × Nat × Nat) :=
    match n with
    | .base _ p => [(64 + d, from_, p)]
    | _ =>
      match n.router with
      | some (rc, lp) => let e := down n.quad; (64 + d, from_, 2 * e) :: dieStages d (l2Routers.getD e (0, 0)) 8 rc lp
      | none => []
  match a with
  | .base d p => if b.die == d then up d b p else (64 + d, p, d2dPort d b.die) :: up b.die b (d2dPort b.die d)
  | _ =>
    match a.router with
    | none => []
    | some (rc, lp) =>
      let exit_ := dieStages a.die rc lp (l2Routers.getD (down a.quad) (0, 0)) 8
      match b.router with
      | some (rc2, lp2) =>
        if a.die == b.die then dieStages a.die rc lp rc2 lp2
        else exit_ ++ (64 + a.die, 2 * down a.quad, d2dPort a.die b.die) :: up b.die b (d2dPort b.die a.die)
      | none =>
        if a.die == b.die then exit_ ++ up a.die b (2 * down a.quad)
        else exit_ ++ (64 + a.die, 2 * down a.quad, d2dPort a.die b.die) :: up b.die b (d2dPort b.die a.die)

/-! ## Arbitration (R438, R439) -/

def State.router (s : State) (u : Nat) : Router := s.routers.get u {}
def Router.q (r : Router) (p vc : Nat) : List Packet := r.inq.get (4 * p + vc) []
def State.nocWeight (s : State) (u vc : Nat) : Nat := bitsAt (s.die (if u < 64 then u / 16 else u - 64)).nocCfg (4 * vc) 4
def State.nocAgeMax (s : State) (u : Nat) : Nat := bitsAt (s.die (if u < 64 then u / 16 else u - 64)).nocCfg 16 13

/-- A packet enqueued at its next stage, or its payload delivered. -/
def State.enqueue (s : State) (p : Packet) : State :=
  match p.path with
  | [] => s.push p.payload
  | (u, i, o) :: _ =>
    let r := s.router u
    let q := r.q i p.vc
    (({ s with routers := s.routers.set u { r with inq := r.inq.set (4 * i + p.vc) (q ++ [{ p with since := if p.old then 0 else s.cyc }]) } } : State)).push (.packetGrant u o)

/-- Does the next stage hold room for the whole packet: 8 flits for each VC (R435)? -/
def State.hasCredit (s : State) (p : Packet) : Bool :=
  match p.path with
  | _ :: (u, i, _) :: _ => decide (((s.router u).q i p.vc).foldl (fun a x => a + x.flits) 0 + p.flits ≤ 8)
  | _ => true

/-- The eligible heads of an output port: input port, VC, packet. -/
def State.heads (s : State) (u o : Nat) : List (Nat × Nat × Packet) :=
  (List.range 27).flatMap (fun i => (List.range 4).filterMap (fun vc =>
    match (s.router u).q i vc with
    | p :: _ => if (p.path.headD (0, 0, 0)).2.2 == o && s.hasCredit p then some (i, vc, p) else none
    | [] => none))

def Packet.age (p : Packet) (cyc amax : Nat) : Nat := if p.old then max amax (cyc - p.since) else cyc - p.since

/-- The head with the largest AGE among those at AGEMAX; ties to the lower input port, then VC. -/
def promoted (cyc amax : Nat) (e : List (Nat × Nat × Packet)) : Option (Nat × Nat × Packet) :=
  (e.filter (fun h => amax ≤ h.2.2.age cyc amax)).foldl (fun a h => match a with
    | none => some h
    | some b => if b.2.2.age cyc amax < h.2.2.age cyc amax then some h else some b) none

/-- The choice of R439 among eligible heads: the head, and the port's new CUR and CNT. -/
def State.arbitrate (s : State) (u : Nat) (out : OutPort) (e : List (Nat × Nat × Packet)) : Option ((Nat × Nat × Packet) × OutPort) :=
  match promoted s.cyc (s.nocAgeMax u) e with
  | some h => some (h, out)
  | none =>
    let has (v : Nat) : Bool := e.any (fun h => h.2.1 == v)
    let keep := has out.cur && out.cnt != 0
    let nxt := ((List.range 4).map (fun i => (out.cur + 1 + i) % 4)).find? (fun v => has v && s.nocWeight u v != 0)
    let (v?, out1) := if keep then (some out.cur, out) else
      match nxt with
      | some v => (some v, { out with cur := v, cnt := s.nocWeight u v })
      | none => ((List.range 4).find? has, out)
    match v? with
    | none => none
    | some v =>
      let l := out.last.getD v 0
      let c := e.filter (fun h => h.2.1 == v)
      match (c.find? (fun h => l < h.1)).orElse (fun _ => c.head?) with
      | none => none
      | some h => some (h, { out1 with cnt := if v == out1.cur then out1.cnt - 1 else out1.cnt })

/-- A granted head leaves its buffer for its next stage (R439). -/
def State.grant (s : State) (u o : Nat) (h : Nat × Nat × Packet) (out : OutPort) : State :=
  let r := s.router u
  let q := (r.q h.1 h.2.1).drop 1
  let q1 := match q with
    | p :: t => { p with since := if p.old then 0 else s.cyc } :: t
    | [] => []
  let r1 : Router := { r with inq := r.inq.set (4 * h.1 + h.2.1) q1,
                              out := r.out.set o { out with last := out.last.set h.2.1 h.1, freeAt := s.cyc + h.2.2.flits } }
  (({ s with routers := s.routers.set u r1 } : State)).enqueue { h.2.2 with path := h.2.2.path.drop 1 }

/-- A unit whose island pauses for a frequency step sends nothing (R442, R444). -/
def State.unitPaused (s : State) (u : Nat) : Bool :=
  if u < 64 then
    let rc := (u % 16 / 4, u % 4)
    (s.island (4 * (u / 16) + (if rc.1 < 2 then 0 else 2) + (if rc.2 < 2 then 0 else 1))).paused
  else false

/-- PACKET_GRANT (R439): a free output port grants one packet; otherwise the grant waits. -/
def execPacketGrant (unit port : Nat) (s : State) : Res :=
  let out := (s.router unit).out.get port {}
  let wanted := (List.range 27).any (fun i => (List.range 4).any (fun vc => ((s.router unit).q i vc).any (fun p => (p.path.headD (0, 0, 0)).2.2 == port)))
  if s.cyc < out.freeAt || s.unitPaused unit then .next (s.push (.packetGrant unit port)) else
  match s.arbitrate unit out (s.heads unit port) with
  | none => .next (if wanted then s.push (.packetGrant unit port) else s)
  | some (h, out1) => .next (s.grant unit port h out1)

/-- VC_AGE_PROMOTION (R439): the free port grants the oldest head at AGEMAX, whatever its weight. -/
def execVcAgePromotion (unit port : Nat) (s : State) : Res :=
  let out := (s.router unit).out.get port {}
  if s.cyc < out.freeAt || s.unitPaused unit then .next s else
  match promoted s.cyc (s.nocAgeMax unit) (s.heads unit port) with
  | some h => .next (s.grant unit port h out)
  | none => .next s

/-! ## Sending -/

/-- The partition of a node, where it lies in a quadrant. -/
def State.nodePart (s : State) : Node → Option Nat
  | .core c => some (s.partOf c)
  | .slice d i => some (s.layout.now.quad.getD (4 * d + sliceQuad i) 0)
  | .ctl _ => none
  | .base _ _ => none

/-- Does a packet of a partition pass its bridge gates: does its destination lie in a quadrant of the partition, and in the partition's HBM window
the PA it carries (R447)? -/
def State.gateOk (s : State) (part : Nat) (b : Node) (pa : Option Nat) : Bool :=
  (match s.nodePart b with
    | some p => p == part
    | none => true) &&
  (match pa with
    | some a => !isHbm a || s.windowPart a == some part
    | none => true)

/-- Flits of a packet with n bytes of payload (R435). -/
def flitsOf (n : Nat) : Nat := if n ≤ 112 then 1 else if n ≤ 240 then 2 else 3

/-- A packet sent (R435 to R437). -/
def State.transmit (s : State) (a b : Node) (x vc flits : Nat) (old : Bool) (e : Ev) : State :=
  s.enqueue { vc := vc, flits := flits, path := pathOf a b x, since := s.cyc, old := old, payload := e }

/-- X of a packet that carries no PA: bit 0 of the destination core's number (R437). -/
def Node.x : Node → Nat
  | .core c => coreNo c % 2
  | _ => 0
/-- X of a packet that carries a PA (R437). -/
def xOf (pa : Nat) : Nat := pa / 256 % 2

/-- A packet that carries no PA. -/
def State.route (s : State) (a b : Node) (vc flits : Nat) (e : Ev) : State := s.transmit a b b.x vc flits false e
/-- One that carries a PA. -/
def State.routePa (s : State) (a b : Node) (pa vc flits : Nat) (e : Ev) : State := s.transmit a b (xOf pa) vc flits false e

/-- A gate's rejection returns to the sender on VC3, as fault 0x0E (R447). -/
def State.gateReject (s : State) (b : Node) (c : Nat) (r : Reject) : State :=
  s.route b (nodeOf c) 3 1 (.remoteAtomRejection c { r with code := 0x0E, detail := 0 })

/-- A packet of a core's op to another core: through the gates, or rejected (R447). -/
def State.routeGated (s : State) (c t vc flits : Nat) (r : Reject) (e : Ev) : State :=
  if s.gateOk (s.partOf c) (nodeOf t) none then s.route (nodeOf c) (nodeOf t) vc flits e else s.gateReject (nodeOf t) c r

/-- Lost data is reported to its partition's management processor (R250, R398), once. -/
def State.reportLoss (s : State) (p : Nat) : State :=
  if (s.clk.pending ++ s.clk.urgent).any (fun e => match e with
    | .lossOfStoredState (.part q) => q == p
    | .partitionReset q _ _ => q == p
    | _ => false) then s else s.push (.lossOfStoredState (.part p))

/-! ## Directed packets (R263) -/

/-- Numbers of destination units: a core's bank unit, a home slice, a die's channel controller, a collection buffer. -/
def unitCore (c : Nat) : Nat := c
def unitSlice (d i : Nat) : Nat := 200 + 16 * d + i
def unitChan (d : Nat) : Nat := 300 + d
def unitColl (arr ent : Nat) : Nat := 400 + 8 * arr + ent
/-- The node at which a unit stands. -/
def unitNode (dst unit : Nat) : Node :=
  if unit < 200 then nodeOf unit
  else if unit < 300 then .slice dst ((unit - 200) % 16)
  else if unit < 400 then .ctl dst else .base dst 26

/-- The number under which a packet's sender waits for it. -/
def sentId : DirBody → Option Nat
  | .atomg a => some a.id
  | .atom a => some a.id
  | .post p => some p.id
  | .rwrite w => some w.id
  | .append a => some a.id
  | .coll _ => none

/-- The PA a directed packet carries. -/
def bodyPa : DirBody → Option Nat
  | .atomg a => some a.pa
  | _ => none

/-- A directed packet from a die, with that die's clock and its place in the order sent to its unit (R263). A gate rejects it where `rej` names
an op whose packet would leave its partition (R447). -/
def State.sendDirected (s : State) (from_ : Node) (dst unit vc flits : Nat) (rej : Option (Nat × Reject)) (body : DirBody) : State :=
  let src := from_.die
  let key := src * 8192 + unit
  let n := s.dpSent.get key 0
  let b := unitNode dst unit
  let x := match bodyPa body with
    | some pa => xOf pa
    | none => b.x
  let go := ({ s with dpSent := s.dpSent.set key (n + 1) } : State).transmit from_ b x vc flits false
    (.directedPacketPerform { src := src, dst := dst, unit := unit, clk := (s.die src).app, ord := n, body := body })
  match rej with
  | some (c, r) =>
    if s.gateOk (s.partOf c) b (bodyPa body) then go
    else (s.modCore c (fun k => { k with sent := k.sent.filter (fun x => some x.id != sentId body) })).gateReject b c r
  | none => go

end Sys2Proof.Machine
end

