-- ==== Sys2Proof/Machine/Flags.lean ====
section
/-! DEFINITION. Results and flags of scalar arithmetic: ALU results at both widths (R101 to R107), compare tests (R104), atomic
operations (R237), and the floating-point flags of element operations (R50, R142 to R149). -/
namespace Sys2Proof.Machine

/-- The low 32 bits sign-extended (R99). -/
def sext32 (v : W64) : W64 := (v.extractLsb' 0 32).signExtend 64
def zext32 (v : W64) : W64 := (v.extractLsb' 0 32).zeroExtend 64

/-- A result at the op's width, sign-extended from 32 bits with w = 1 (R83). -/
def atW (w : Bool) (v : W64) : W64 := if w then sext32 v else v

/-- An operand as a signed or unsigned number at the op's width. -/
def sAt (w : Bool) (v : W64) : Int := if w then (v.extractLsb' 0 32).toInt else v.toInt
def uAt (w : Bool) (v : W64) : Nat := if w then (v.extractLsb' 0 32).toNat else v.toNat
def wOf (w : Bool) : Nat := if w then 32 else 64

/-- Leading zeros of the low n bits. -/
def clzN : Nat → Nat → Nat
  | 0, _ => 0
  | n + 1, v => if v.testBit n then 0 else 1 + clzN n v
/-- Trailing zeros of the low n bits, from bit i. -/
def ctzN : Nat → Nat → Nat → Nat
  | 0, _, _ => 0
  | n + 1, i, v => if v.testBit i then 0 else 1 + ctzN n (i + 1) v
/-- One bits among the low n. -/
def bcntN : Nat → Nat → Nat
  | 0, _ => 0
  | n + 1, v => (if v.testBit n then 1 else 0) + bcntN n v

/-- The binary S.R ops by opcode (R101). -/
def alu (op : Nat) (w : Bool) (a b : W64) : W64 :=
  let z := fun (n : Nat) => w64 (n % 2 ^ wOf w)
  let sx := fun (i : Int) => atW w (BitVec.ofInt 64 i)
  let sh := if w then b.toNat % 32 else b.toNat % 64
  match op with
  | 0x01 => atW w (a + b)
  | 0x02 => atW w (a - b)
  | 0x03 => atW w (a &&& b)
  | 0x04 => atW w (a ||| b)
  | 0x05 => atW w (a ^^^ b)
  | 0x06 => atW w (a <<< sh)
  | 0x07 => z (uAt w a / 2 ^ sh)
  | 0x08 => sx (sAt w a / 2 ^ sh)
  | 0x09 => atW w (a * b)
  | 0x0A => sx (sAt w a * sAt w b / 2 ^ wOf w)
  | 0x0B => z (uAt w a * uAt w b / 2 ^ wOf w)
  | 0x0C => sx (divS (wOf w) (sAt w a) (sAt w b))
  | 0x0D => z (divU (wOf w) (uAt w a) (uAt w b))
  | 0x0E => sx (remS (wOf w) (sAt w a) (sAt w b))
  | 0x0F => z (remU (uAt w a) (uAt w b))
  | 0x10 => sx (min (sAt w a) (sAt w b))
  | 0x11 => sx (max (sAt w a) (sAt w b))
  | 0x12 => z (min (uAt w a) (uAt w b))
  | 0x13 => z (max (uAt w a) (uAt w b))
  | _ => 0

/-- BCNT, CLZ, CTZ by opcode (R101). -/
def alu1 (op : Nat) (w : Bool) (a : W64) : W64 :=
  match op with
  | 0x15 => w64 (bcntN (wOf w) a.toNat)
  | 0x16 => w64 (clzN (wOf w) a.toNat)
  | 0x17 => w64 (ctzN (wOf w) 0 a.toNat)
  | _ => 0

/-- The compares by opcode (R104). -/
def cmpTest (op : Nat) (w : Bool) (a b : W64) : Bool :=
  match op with
  | 0x18 => uAt w a == uAt w b
  | 0x19 => uAt w a != uAt w b
  | 0x1A => decide (sAt w a < sAt w b)
  | 0x1B => decide (sAt w a ≤ sAt w b)
  | 0x1C => decide (uAt w a < uAt w b)
  | 0x1D => decide (uAt w a ≤ uAt w b)
  | _ => false

/-- A test as a predicate: all lanes or none (R104). -/
def maskOf (b : Bool) : W64 := if b then BitVec.allOnes 64 else 0

/-- The immediate ops by opcode, on 64 bits (R105, R106). -/
def aluI (op : Nat) (a i : W64) : W64 :=
  match op with
  | 0x20 => a + i
  | 0x21 => a &&& i
  | 0x22 => a ||| i
  | 0x23 => a ^^^ i
  | 0x24 => a <<< (i.toNat % 64)
  | 0x25 => a >>> (i.toNat % 64)
  | 0x26 => a.sshiftRight (i.toNat % 64)
  | 0x27 => a * i
  | 0x29 => (i <<< 32) ||| zext32 a
  | _ => i

/-- Bytes of an atomic access (R236). -/
def atomBytes (size : BitVec 3) : Nat := if size == 6#3 then 8 else 4

/-- The new value of an atomic's location (R237); FADD sets no flag. -/
def atomNew (aop : Nat) (size : BitVec 3) (l v c : Nat) : Nat :=
  let w := 8 * atomBytes size
  let v := v % 2 ^ w
  let c := c % 2 ^ w
  match aop with
  | 0 => v
  | 1 => if l == c then v else l
  | 2 => (l + v) % 2 ^ w
  | 3 => l &&& v
  | 4 => l ||| v
  | 5 => l ^^^ v
  | 6 => if sInt w v < sInt w l then v else l
  | 7 => if sInt w l < sInt w v then v else l
  | 8 => min l v
  | 9 => max l v
  | 10 => (fp32.enc false ((fp32.dec l).add (fp32.dec v)).1).1
  | _ => l

/-- A loaded value extended by its size code: 0, 2 and 4 sign-extend (R108, R236). -/
def extendBy (size : BitVec 3) (v : Nat) : W64 :=
  if size == 0#3 then BitVec.ofInt 64 (sInt 8 v) else if size == 2#3 then BitVec.ofInt 64 (sInt 16 v)
  else if size == 4#3 then BitVec.ofInt 64 (sInt 32 v) else w64 v

/-- Access size in bytes (R83). -/
def sizeBytes (size : BitVec 3) : Nat :=
  if size == 0#3 || size == 1#3 then 1 else if size == 2#3 || size == 3#3 then 2 else if size == 4#3 || size == 5#3 then 4 else 8

end Sys2Proof.Machine
end

