-- ==== Sys2Proof/Machine/Counters.lean ====
section
/-! DEFINITION. Arrival counters (12, R323 to R330), accesses sent and acknowledged (R266), and rejections (R243, R329). -/
namespace Sys2Proof.Machine

/-- The scratchpad address of a counter (R323). -/
def ctrAddr (c n : Nat) : W64 := w64 ((if isCtl c then 1047552 else 4193280) + 16 * n)

/-- The scope that covers core t as seen from core c (R258): 0 itself, 1 its quadrant, 2 its die, 3 the package. -/
def coreScope (c t : Nat) : Nat :=
  if t == c then 0 else if dieOf c != dieOf t then 3
  else if !isCtl c && !isCtl t && quadOf c == quadOf t then 1 else 2

/-- An access recorded as sent (R266). -/
def State.newSent (s : State) (c kind scope : Nat) : Nat × State :=
  let (id, s1) := s.newId
  (id, s1.modCore c (fun k => { k with sent := k.sent ++ [{ id := id, kind := kind, scope := scope }] }))

/-- An access acknowledged: performed at its destination. -/
def State.unsent (s : State) (c id : Nat) : State := if 200 ≤ c then s else s.modCore c (fun k => { k with sent := k.sent.filter (fun r => r.id != id) })

/-- A rejection on its way back to a sender (R243). -/
def State.rejectTo (s : State) (from_ c : Nat) (r : Reject) : State := s.route (nodeOf from_) (nodeOf c) 3 1 (.remoteAtomRejection c r)

/-- Does a core run a work item of a partition and PASID, or a control core a context of the partition (R243, R329)? -/
def State.accepts (s : State) (t part pasid : Nat) : Bool :=
  if isCtl t then s.ctlRuns part (dieOf t)
  else match (s.core t).item with
    | some w => w.part == part && w.pasid == pasid
    | none => false

/-- A post on a counter (R324): the new counter, or none where it overshoots. -/
def Counter.post (c : Counter) (b : Nat) : Option Counter :=
  if b == 0 then some c
  else if c.count + b < c.expect then some { c with count := c.count + b }
  else if c.count + b == c.expect then some { c with count := 0, phase := !c.phase }
  else none

/-- A post that a core accepts: the counter, and where it is in OWN mode and its command came before the checkpoint, the record that a
rollback applies again (R326). -/
def Core.post (k : Core) (ctr b ival : Nat) : Option Core :=
  let c := k.ctrs.get ctr {}
  match c.post b with
  | none => none
  | some c' =>
    some { k with ctrs := k.ctrs.set ctr c',
                  dup := if !c.shared && ival < k.ival then { k.dup with posts := k.dup.posts ++ [(ctr, b)] } else k.dup }

/-- The fault of a post at its counter's core, or none (R324, R325): DETAIL. -/
def Core.postFault (k : Core) (ctl : Bool) (p : Post) : Option Nat :=
  let c := k.ctrs.get p.ctr {}
  if p.n == 0 then none
  else if !ctl && p.src != p.tgt && !c.shared then some 2
  else if !ctl && p.tent && c.shared then some 3
  else if (c.post p.n).isNone then some 1 else none

/-- A post arrives at its counter's core: rejected (R329), a fault (R325), or applied. A fault of a core's own post names the command;
one from another agent is taken with SLOT 7. -/
def State.applyPost (s : State) (p : Post) : State :=
  let s := if p.src == p.tgt then s else s.unsent p.src p.id
  let k := s.core p.tgt
  let other := p.src != p.tgt
  let rej (d : Nat) : State := s.rejectTo p.tgt p.src { tk := none, code := 0x1E, detail := d, pc := p.pc, slot := p.slot, addr := p.addr }
  if other && !s.accepts p.tgt p.part p.pasid then rej 0x01
  else if !isCtl p.tgt && k.limNctr ≤ p.ctr then rej 0x04
  else
    match k.postFault (isCtl p.tgt) p with
    | some d =>
      s.asyncFault p.tgt { code := 0x13, detail := d, addr := ctrAddr p.tgt p.ctr, pc := if other then 0 else p.pc, slot := if other then 7 else p.slot, single := false }
    | none =>
      match k.post p.ctr p.n p.ival with
      | some k' => s.setCore p.tgt k'
      | none => s

/-- COUNTER_POST (R324, R325, R328, R329). -/
def execCounterPost (p : Post) (s : State) : Res := .next (s.applyPost p)

/-- A post sent towards its counter: at once to the core's own, as a directed packet to another's (R272, R328). -/
def State.sendPost (s : State) (p : Post) : State :=
  if p.src == p.tgt then s.push (.counterPost p)
  else
    let (id, s1) := s.newSent p.src 2 (coreScope p.src p.tgt)
    s1.sendDirected (nodeOf p.src) (dieOf p.tgt) (unitCore p.tgt) 3 1 (some (p.src, { tk := none, code := 0x0E, detail := 0, pc := p.pc, slot := p.slot, addr := p.addr })) (.post { p with id := id })

/-- The code word that stands at a PA in the view of a core's die. -/
def State.codeWord (s : State) (c a : Nat) : W32 :=
  BitVec.ofNat 32 (leNat (if isSys a then s.hostMem.readN (a - sysBase) 4 else (s.die (dieOf c)).view.readN a 4))

/-- The header word at an address, where it can be read. -/
def State.headerAt (s : State) (c : Nat) (va : W64) : Option W32 :=
  match s.translate c 0 (s.pasidOf c) va .x 4 with
  | .pa a => some (((s.core c).ic.find (a / 4)).getD (s.codeWord c a))
  | _ => none

/-- Is the bundle at an address a single-op bundle, as its header reads? -/
def State.singleAt (s : State) (c : Nat) (va : W64) : Bool := (s.headerAt c va).any (fun h => bitsAt h.toNat 29 3 == 6)

/-- The address after the bundle that an asynchronous fault names, or that bundle's own where its length cannot be read (R195). -/
def State.afterFault (s : State) (c : Nat) (va : W64) : W64 :=
  match s.headerAt c va with
  | some h => if bitsAt h.toNat 29 3 == 6 then va + w64 (if h.getLsbD 25 then 12 else 8) else va
  | none => va

/-- Is a core at a bundle boundary: no single-op or serialising bundle is still running its op (R33, R122)? -/
def Core.atBoundary (k : Core) : Bool := !(k.serial && k.slots.l.any (fun p => !p.2.isEmpty))

/-- ASYNC_FAULT_TAKEN (R243, R388, R390): the first pending fault at the bundle boundary, in normal mode and outside a rollback. A fault with
SLOT 7 names the next bundle. -/
def State.takeAsync (s : State) (c : Nat) : State :=
  let k := s.core c
  match k.async with
  | [] => s
  | f :: r =>
    if k.handler || k.trap.isSome || k.goSync || !k.atBoundary then s else
    let f1 := if f.slot == 7 then { f with pc := k.pc, single := s.singleAt c k.pc } else f
    let s1 := s.setCore c { k with async := r, ctl := if f.code == 0x1B then { k.ctl with abn := k.ctl.abn.drop 1, abnst := ((k.ctl.abn.head?).map (·.2)).getD k.ctl.abnst } else k.ctl }
    s1.takeFault c f1 (s.afterFault c f1.pc)

/-- ASYNC_FAULT_TAKEN: a core in handler mode or in a rollback holds its faults (R388). -/
def execAsyncFaultTaken (core : Nat) (s : State) : Res := .next (s.takeAsync core)

/-- REMOTE_ATOM_REJECTION (R243): the rejection arrives at the sender; an ATOM's destination becomes full with the value it held before. A
command that touches several lines of a view reports once (R357). -/
def execRemoteAtomRejection (core : Nat) (r : Reject) (s : State) : Res :=
  let s1 := match r.tk with
    | some t => s.modCore core (fun k =>
        match k.pend.find? (fun (p : Pend) => p.tk == t) with
        | some p => ({ (k.land t p.old) with outs := k.outs.filter (· != t) } : Core).settle k.bundleNo
        | none => { k with outs := k.outs.filter (· != t) })
    | none => s
  if !isCtl core && (s.core core).item.isNone then .next s1 else
  let again := r.code == 0x18 && r.tk.isNone && (s1.core core).async.any (fun f => f.code == 0x18 && f.pc == r.pc && f.slot == r.slot)
  .next (if again then s1 else s1.asyncFault core { code := r.code, detail := r.detail, addr := r.addr, pc := r.pc, slot := r.slot, single := false })

end Sys2Proof.Machine
end

