-- ==== Sys2Proof/Machine/Scalar.lean ====
section
/-! DEFINITION. Scalar arithmetic, compares, immediates and predicate operations (04, R99 to R107, R121). -/
namespace Sys2Proof.Machine

/-- An exposed result of an S op (R31): it does not overtake an earlier result that its register still waits for (R14). -/
def Core.put (k : Core) (p : SlipOp) (d : Dst) (v : W64) : OpRes :=
  if k.blocked p d then .wait else .done (k.result p d v) []

/-- A result that arrives later, its register empty until then (R13). -/
def Core.later (k : Core) (p : SlipOp) (c d : Nat) (v : W64) : OpRes :=
  let (t, k1) := k.feTicket p d
  .done k1 [.scalarResultArrival c t v]

/-- Two register sources (R99). -/
def Core.two (k : Core) (p : SlipOp) (ba : Bool) (a : BitVec 6) (bb : Bool) (b : BitVec 6) (f : W64 → W64 → OpRes) : OpRes :=
  (k.readReg p ba a.toNat).bind (fun x => (k.readReg p bb b.toNat).bind (fun y => f x y))

/-- A binary S.R op with an exposed result (R101). -/
def State.aluOp (s : State) (i : Instr) (op : Nat) (o : SR) : Res :=
  s.coreOp i (fun p k => if !k.guard p o.g.toNat then .done k [] else
    k.two p o.ba o.a o.bb o.b (fun a b => k.put p (.reg o.d.toNat) (alu op o.w a b)))

/-- A divide's result arrives later, and the divider serves it until then (R102). -/
def Core.divide (k : Core) (p : SlipOp) (c d : Nat) (v : W64) : OpRes :=
  let (t, k1) := k.feTicket p d
  .done { k1 with divTk := some t } [.scalarResultArrival c t v]

/-- A divide or remainder (R102). -/
def State.divOp (s : State) (i : Instr) (op : Nat) (o : SR) : Res :=
  s.coreOp i (fun p k => if !k.guard p o.g.toNat then .done k [] else
    k.two p o.ba o.a o.bb o.b (fun a b => k.divide p s.cur.core o.d.toNat (alu op o.w a b)))

/-- A unary S.R op (R101). -/
def State.aluOp1 (s : State) (i : Instr) (op : Nat) (o : SR1) : Res :=
  s.coreOp i (fun p k => if !k.guard p o.g.toNat then .done k [] else
    (k.readReg p o.ba o.a.toNat).bind (fun a => k.put p (.reg o.d.toNat) (alu1 op o.w a)))

/-- A compare of registers (R104). -/
def State.cmpOp (s : State) (i : Instr) (op : Nat) (o : SR) : Res :=
  s.coreOp i (fun p k => if !k.guard p o.g.toNat then .done k [] else
    k.two p o.ba o.a o.bb o.b (fun a b => k.put p (.pred o.d.toNat) (maskOf (cmpTest op o.w a b))))

/-- An immediate op into a register (R105, R106). -/
def State.immOp (s : State) (i : Instr) (op : Nat) (d : BitVec 6) (ba : Bool) (a : BitVec 6) (imm : W64) : Res :=
  s.coreOp i (fun p k => (k.readReg p ba a.toNat).bind (fun x => k.put p (.reg d.toNat) (aluI op x imm)))

/-- An immediate compare (R107). -/
def State.cmpImm (s : State) (i : Instr) (op : Nat) (d : BitVec 6) (ba : Bool) (a : BitVec 6) (imm : W64) : Res :=
  s.coreOp i (fun p k => (k.readReg p ba a.toNat).bind (fun x => k.put p (.pred d.toNat) (maskOf (cmpTest op false x imm))))

/-- A result computed from predicates alone (R121). -/
def State.predOp (s : State) (i : Instr) (d : Dst) (f : SlipOp → Core → W64) : Res :=
  s.coreOp i (fun p k => k.put p d (f p k))

/-- ADD (R101). -/
def execAdd (o : SR) (s : State) : Res := s.aluOp (.add o) 0x01 o

/-- SUB (R101). -/
def execSub (o : SR) (s : State) : Res := s.aluOp (.sub o) 0x02 o

/-- AND (R101). -/
def execAnd (o : SR) (s : State) : Res := s.aluOp (.and o) 0x03 o

/-- OR (R101). -/
def execOr (o : SR) (s : State) : Res := s.aluOp (.or o) 0x04 o

/-- XOR (R101). -/
def execXor (o : SR) (s : State) : Res := s.aluOp (.xor o) 0x05 o

/-- SHL (R101). -/
def execShl (o : SR) (s : State) : Res := s.aluOp (.shl o) 0x06 o

/-- SHR (R101). -/
def execShr (o : SR) (s : State) : Res := s.aluOp (.shr o) 0x07 o

/-- SAR (R101). -/
def execSar (o : SR) (s : State) : Res := s.aluOp (.sar o) 0x08 o

/-- MUL (R101). -/
def execMul (o : SR) (s : State) : Res := s.aluOp (.mul o) 0x09 o

/-- MULH (R101). -/
def execMulh (o : SR) (s : State) : Res := s.aluOp (.mulh o) 0x0A o

/-- MULHZ (R101). -/
def execMulhz (o : SR) (s : State) : Res := s.aluOp (.mulhz o) 0x0B o

/-- MIN (R101). -/
def execMin (o : SR) (s : State) : Res := s.aluOp (.min o) 0x10 o

/-- MAX (R101). -/
def execMax (o : SR) (s : State) : Res := s.aluOp (.max o) 0x11 o

/-- MINZ (R101). -/
def execMinz (o : SR) (s : State) : Res := s.aluOp (.minz o) 0x12 o

/-- MAXZ (R101). -/
def execMaxz (o : SR) (s : State) : Res := s.aluOp (.maxz o) 0x13 o

/-- DIV (R101, R102, R40). -/
def execDiv (o : SR) (s : State) : Res := s.divOp (.div o) 0x0C o

/-- DIVZ (R101, R102, R40). -/
def execDivz (o : SR) (s : State) : Res := s.divOp (.divz o) 0x0D o

/-- REM (R101, R102, R40). -/
def execRem (o : SR) (s : State) : Res := s.divOp (.rem o) 0x0E o

/-- REMZ (R101, R102, R40). -/
def execRemz (o : SR) (s : State) : Res := s.divOp (.remz o) 0x0F o

/-- SEL (R103): its guard selects, and it always executes. -/
def execSel (o : SR) (s : State) : Res :=
  s.coreOp (.sel o) (fun p k => k.two p o.ba o.a o.bb o.b (fun a b => k.put p (.reg o.d.toNat) (atW o.w (if k.guard p o.g.toNat then a else b))))

/-- BCNT (R101). -/
def execBcnt (o : SR1) (s : State) : Res := s.aluOp1 (.bcnt o) 0x15 o

/-- CLZ (R101). -/
def execClz (o : SR1) (s : State) : Res := s.aluOp1 (.clz o) 0x16 o

/-- CTZ (R101). -/
def execCtz (o : SR1) (s : State) : Res := s.aluOp1 (.ctz o) 0x17 o

/-- CMPEQ (R104). -/
def execCmpeq (o : SR) (s : State) : Res := s.cmpOp (.cmpeq o) 0x18 o

/-- CMPNE (R104). -/
def execCmpne (o : SR) (s : State) : Res := s.cmpOp (.cmpne o) 0x19 o

/-- CMPLT (R104). -/
def execCmplt (o : SR) (s : State) : Res := s.cmpOp (.cmplt o) 0x1A o

/-- CMPLE (R104). -/
def execCmple (o : SR) (s : State) : Res := s.cmpOp (.cmple o) 0x1B o

/-- CMPLTZ (R104). -/
def execCmpltz (o : SR) (s : State) : Res := s.cmpOp (.cmpltz o) 0x1C o

/-- CMPLEZ (R104). -/
def execCmplez (o : SR) (s : State) : Res := s.cmpOp (.cmplez o) 0x1D o

/-- ADDI with its short immediate (R105). -/
def execAddi (o : SI) (s : State) : Res := s.immOp (.addi o) 0x20 o.d o.ba o.a (o.imm.signExtend 64)

/-- ADDI with a LIMM extension (R105). -/
def execAddiLimm (o : SIL) (s : State) : Res := s.immOp (.addiLimm o) 0x20 o.d o.ba o.a (o.imm.signExtend 64)

/-- ANDI with its short immediate (R105). -/
def execAndi (o : SI) (s : State) : Res := s.immOp (.andi o) 0x21 o.d o.ba o.a (o.imm.signExtend 64)

/-- ANDI with a LIMM extension (R105). -/
def execAndiLimm (o : SIL) (s : State) : Res := s.immOp (.andiLimm o) 0x21 o.d o.ba o.a (o.imm.signExtend 64)

/-- ORI with its short immediate (R105). -/
def execOri (o : SI) (s : State) : Res := s.immOp (.ori o) 0x22 o.d o.ba o.a (o.imm.signExtend 64)

/-- ORI with a LIMM extension (R105). -/
def execOriLimm (o : SIL) (s : State) : Res := s.immOp (.oriLimm o) 0x22 o.d o.ba o.a (o.imm.signExtend 64)

/-- XORI with its short immediate (R105). -/
def execXori (o : SI) (s : State) : Res := s.immOp (.xori o) 0x23 o.d o.ba o.a (o.imm.signExtend 64)

/-- XORI with a LIMM extension (R105). -/
def execXoriLimm (o : SIL) (s : State) : Res := s.immOp (.xoriLimm o) 0x23 o.d o.ba o.a (o.imm.signExtend 64)

/-- SHLI with its short immediate (R105). -/
def execShli (o : SI) (s : State) : Res := s.immOp (.shli o) 0x24 o.d o.ba o.a (o.imm.signExtend 64)

/-- SHLI with a LIMM extension (R105). -/
def execShliLimm (o : SIL) (s : State) : Res := s.immOp (.shliLimm o) 0x24 o.d o.ba o.a (o.imm.signExtend 64)

/-- SHRI with its short immediate (R105). -/
def execShri (o : SI) (s : State) : Res := s.immOp (.shri o) 0x25 o.d o.ba o.a (o.imm.signExtend 64)

/-- SHRI with a LIMM extension (R105). -/
def execShriLimm (o : SIL) (s : State) : Res := s.immOp (.shriLimm o) 0x25 o.d o.ba o.a (o.imm.signExtend 64)

/-- SARI with its short immediate (R105). -/
def execSari (o : SI) (s : State) : Res := s.immOp (.sari o) 0x26 o.d o.ba o.a (o.imm.signExtend 64)

/-- SARI with a LIMM extension (R105). -/
def execSariLimm (o : SIL) (s : State) : Res := s.immOp (.sariLimm o) 0x26 o.d o.ba o.a (o.imm.signExtend 64)

/-- MULI with its short immediate (R105). -/
def execMuli (o : SI) (s : State) : Res := s.immOp (.muli o) 0x27 o.d o.ba o.a (o.imm.signExtend 64)

/-- MULI with a LIMM extension (R105). -/
def execMuliLimm (o : SIL) (s : State) : Res := s.immOp (.muliLimm o) 0x27 o.d o.ba o.a (o.imm.signExtend 64)

/-- MOVL (R106). -/
def execMovl (d : BitVec 6) (imm : BitVec 13) (s : State) : Res := s.immOp (.movl d imm) 0x28 d true 0 (imm.signExtend 64)
/-- MOVL with a LIMM extension (R106). -/
def execMovlLimm (d : BitVec 6) (imm : BitVec 32) (s : State) : Res := s.immOp (.movlLimm d imm) 0x28 d true 0 (imm.signExtend 64)
/-- MOVH (R106). -/
def execMovh (o : SI) (s : State) : Res := s.immOp (.movh o) 0x29 o.d o.ba o.a (o.imm.signExtend 64)
/-- MOVH with a LIMM extension (R106). -/
def execMovhLimm (o : SIL) (s : State) : Res := s.immOp (.movhLimm o) 0x29 o.d o.ba o.a (o.imm.signExtend 64)
/-- CMPEQI (R107). -/
def execCmpeqi (o : SI) (s : State) : Res := s.cmpImm (.cmpeqi o) 0x18 o.d o.ba o.a (o.imm.signExtend 64)
/-- CMPEQI with a LIMM extension (R107). -/
def execCmpeqiLimm (o : SIL) (s : State) : Res := s.cmpImm (.cmpeqiLimm o) 0x18 o.d o.ba o.a (o.imm.signExtend 64)
/-- CMPLTI (R107). -/
def execCmplti (o : SI) (s : State) : Res := s.cmpImm (.cmplti o) 0x1A o.d o.ba o.a (o.imm.signExtend 64)
/-- CMPLTI with a LIMM extension (R107). -/
def execCmpltiLimm (o : SIL) (s : State) : Res := s.cmpImm (.cmpltiLimm o) 0x1A o.d o.ba o.a (o.imm.signExtend 64)

/-- PAND (R121). -/
def execPand (d a : BitVec 6) (b : BitVec 5) (s : State) : Res :=
  s.predOp (.pand d a b) (.pred d.toNat) (fun p k => k.readPred p a.toNat &&& k.readPred p b.toNat)
/-- POR (R121). -/
def execPor (d a : BitVec 6) (b : BitVec 5) (s : State) : Res :=
  s.predOp (.por d a b) (.pred d.toNat) (fun p k => k.readPred p a.toNat ||| k.readPred p b.toNat)
/-- PXOR (R121). -/
def execPxor (d a : BitVec 6) (b : BitVec 5) (s : State) : Res :=
  s.predOp (.pxor d a b) (.pred d.toNat) (fun p k => k.readPred p a.toNat ^^^ k.readPred p b.toNat)
/-- PNOT (R121). -/
def execPnot (d a : BitVec 6) (s : State) : Res :=
  s.predOp (.pnot d a) (.pred d.toNat) (fun p k => ~~~ k.readPred p a.toNat)
/-- PMOVS (R121). -/
def execPmovs (d a : BitVec 6) (s : State) : Res :=
  s.predOp (.pmovs d a) (.reg d.toNat) (fun p k => k.readPred p a.toNat)
/-- PMOVP (R121). -/
def execPmovp (d a : BitVec 6) (s : State) : Res :=
  s.coreOp (.pmovp d a) (fun p k => (k.readReg p true a.toNat).bind (fun x => k.put p (.pred d.toNat) x))
/-- PSETA (R121). -/
def execPseta (d a : BitVec 6) (s : State) : Res :=
  s.coreOp (.pseta d a) (fun p k => (k.readReg p true a.toNat).bind (fun x => k.put p (.pred d.toNat) (w64 (2 ^ min x.toNat 64 - 1))))

/-- SCALAR_RESULT_ARRIVAL (R13): the result lands and its register is full. -/
def execScalarResultArrival (core tk : Nat) (v : W64) (s : State) : Res :=
  .next (s.modCore core (fun k => (k.land tk v).settle k.bundleNo))

/-- ATOMIC_RESULT_ARRIVAL (R241, R263): the old value lands in the register and its duplicate; one atomic fewer is outstanding; the die's
clock takes in the effect's. -/
def execAtomicResultArrival (core tk : Nat) (v : W64) (clk : List Nat) (s : State) : Res :=
  .next (s.modCore core (fun k =>
    ({ (k.land tk v) with outs := k.outs.filter (· != tk), rcv := (List.range 4).map (fun i => max (k.rcv.getD i 0) (clk.getD i 0)) } : Core).settle k.bundleNo))

end Sys2Proof.Machine
end

