-- ==== Sys2Proof/Machine/Release.lean ====
section
/-! DEFINITION. The release sequence of a core (10, R266, R269 to R271): when a release completes, how an item is sent, and how the items
of closed intervals leave in program order. -/
namespace Sys2Proof.Machine

/-- A byte into a list kept in program order. -/
def insSeq (x : Nat × Nat × BitVec 8) : List (Nat × Nat × BitVec 8) → List (Nat × Nat × BitVec 8)
  | [] => [x]
  | y :: r => if y.1 ≤ x.1 then y :: insSeq x r else x :: y :: r

/-- The bytes of an entry in program order, as they are written. -/
def inOrder (l : List (Nat × Nat × BitVec 8)) : List (Nat × BitVec 8) := (l.foldl (fun a x => insSeq x a) []).map (·.2)

/-- Full/empty changes applied one after the other. -/
def Core.applyFull (k : Core) (fe : List (Nat × Nat × Bool)) : Core :=
  let ins := fe.foldl (fun (a : List (Nat × Nat × Bool)) x => (a.filter (fun y => y.1 ≤ x.1)) ++ x :: a.filter (fun y => x.1 < y.1)) []
  ins.foldl (fun k x => k.setFull x.2.1 x.2.2) k

/-- Has a die's clock entry passed a count everywhere (R266 step 2)? -/
def State.exported (s : State) (e : List Nat) : Bool :=
  (List.range 4).all (fun x => (List.range 4).all (fun z => decide (e.getD x 0 ≤ (s.die z).app.getD x 0)))

/-- A release of a core at a scope is complete (R266): no earlier read or HBM write is outstanding, no access within the scope, no command
still sends its accesses, and at package scope every view has taken the core's writes. -/
def State.releaseOk (s : State) (c scope : Nat) : Bool :=
  let k := s.core c
  k.sent.all (fun r => r.kind == 2 && decide (scope < r.scope)) && k.ports.all (fun x => !x.sent || decide (3 ≤ x.phase)) &&
  (decide (scope < 3) || s.exported k.expMax)

/-- The release sequence is looked at again. -/
def State.poke (s : State) (c : Nat) : State :=
  if s.clk.pending.contains (.releaseComplete c) then s else s.push (.releaseComplete c)

/-- Is a command reading the core's own scratchpad still to read it (R322)? -/
def CopyCmd.reading (x : CopyCmd) : Bool :=
  x.sent && decide (x.phase < 2) && (x.kind == .cstq || x.kind == .csts || x.kind == .cred || x.kind == .crwr || x.kind == .cfred)

/-- Commands a port has started and not completed (R310). -/
def Core.portLoad (k : Core) (port : Nat) : Nat := (k.ports.filter (fun x => x.sent && x.port == port)).length

/-- The value of a register that an op captured, once it is there. -/
def SlipOp.capVal (p : SlipOp) (r : Nat) : Option W64 :=
  if r == 0 then some 0 else match Tab.findL p.caps r with
    | some (.val v) => some v
    | _ => none

/-- The bytes a waiting op will read from its scratchpad by address: none for other ops; unknown where its address is not captured yet. -/
def SlipOp.rdSpan (p : SlipOp) : Option (Option (Nat × Nat)) :=
  let at_ (a : Nat) (off : W64) (n : Nat) : Option (Option (Nat × Nat)) := some ((p.capVal a).map (fun v => ((v + off).toNat, n)))
  match p.op with
  | .lds o => at_ o.a.toNat (o.off.signExtend 64 * w64 (sizeBytes o.size)) 8
  | .ldsOff32 o => at_ o.a.toNat (o.off.signExtend 64) 8
  | .ldf o | .ldff o => at_ o.a.toNat (o.off.signExtend 64 * 8) 8
  | .ldfOff32 o | .ldffOff32 o => at_ o.a.toNat (o.off.signExtend 64) 8
  | .ldlay a _ => at_ a.toNat 0 96
  | .vlds o => at_ o.s.toNat 0 256
  | .vgath _ => some none
  | _ => none

/-- Does a waiting op read bytes of a range: by address, or from an entry of its queue sources (a repeated op: from anywhere in its queue)? -/
def Core.readsRange (k : Core) (o : SlipOp) (a n : Nat) : Bool :=
  (match o.rdSpan with
   | none => false
   | some none => true
   | some (some (b, m)) => decide (b < a + n) && decide (a < b + m)) ||
  o.srcs.any (fun x => let b := (k.queue x.1).addr x.2; decide (b < a + n) && decide (a < b + 256)) ||
  (o.rep.n != 0 && o.heads.any (fun h => let u := k.queue h.1; decide (u.base * 256 < a + n) && decide (a < (u.base + u.cap) * 256)))

/-- Has an op before a place in program order still to read bytes of a range (R29, R141): a waiting one, or the repeat that streams? -/
def Core.unread (k : Core) (seq a n : Nat) : Bool :=
  k.slots.l.any (fun p => p.2.any (fun o => decide (o.seq < seq) && k.readsRange o a n)) ||
  (match k.stream with
   | some st => st.running && decide (st.op.seq < seq) && k.readsRange st.op a n
   | none => false)

/-- Has a vector or matrix op before a place in program order still to fill a queue entry that touches a range (R112, R141)? -/
def Core.unfilled (k : Core) (seq a n : Nat) : Bool :=
  (List.range 8).any (fun q =>
    let u := k.queue q
    u.spl != 2 && u.ents.l.any (fun e => (e.2.st == .reserved || e.2.st == .draining) && !e.2.pres && e.2.filler == .op && decide (e.2.seq < seq) &&
      decide ((u.base + e.1) * 256 < a + n) && decide (a < (u.base + e.1) * 256 + 256)))

/-- Does an op that loads, before a place in program order, still wait in a slot (R266 step 1)? -/
def Core.loadsBefore (k : Core) (seq : Nat) : Bool := k.slots.l.any (fun p => p.2.any (fun o => isLoad o.op && decide (o.seq < seq)))

/-- What keeps an item from being sent although its interval is closed (R141, R243, R270, R310, R322). -/
def Core.itemBlocked (k : Core) (i : Item) : Bool :=
  k.relWait.isSome || !k.subm.isEmpty || (i.rel && k.loadsBefore i.seq) || k.slots.l.any (fun p => p.2.any (fun o => isHolding o.op && decide (o.seq < i.seq))) ||
  (match i.kind with
   | .store false _ bs _ _ => k.ports.any CopyCmd.reading || bs.any (fun b => k.unread b.1 b.2.1 1 || k.unfilled b.1 b.2.1 1)
   | .atom _ a => a.tk.isSome && decide (Config.atomicsOut ≤ k.outs.length)
   | .copy id => match k.ports.find? (fun x => x.id == id) with
     | some x => decide (Config.portStarted ≤ k.portLoad x.port)
     | none => false
   | _ => false)

/-- The home slice of a PA on a core's die, as a place on the network (R245). -/
def State.homeNode (s : State) (c pa : Nat) : Node := .slice (dieOf c) (s.homeSlice (s.partOf c) (dieOf c) pa)

/-- Events in flight, on a network or waiting to be performed. -/
def State.inFlight (s : State) : List Ev :=
  s.clk.pending ++ s.routers.l.flatMap (fun r => r.2.inq.l.flatMap (fun q => q.2.map (fun (p : Packet) => p.payload)))

/-- A line of a read view asked for, once, for a reader that waits for it (R355): a core, or with 200 + fn the device for a function. -/
def State.askLine (s : State) (d c pa : Nat) (va : W64) : State :=
  let (id, s1) := s.newId
  let a : Access := { die := d, core := c, id := id, va := va, pa := pa, len := 4, wr := none, l1 := false, pc := va, slot := 7, reply := .none }
  let same (x : Access) : Bool := x.core == c && x.pa / 64 == pa / 64 && x.reply == .none && x.wr.isNone
  if s.inFlight.any (fun e => match e with
      | .kneadRecordRequest x => same x
      | .homeSliceAccess x => same x
      | _ => false) || s.arrays.l.any (fun y => (y.2.queue ++ y.2.runs.map (·.rcd) ++ y.2.binds.l.flatMap (·.2.deliv)).any (fun r => r.acc.any same)) then s
  else s1.routePa (if 200 ≤ c then .base 0 25 else nodeOf c) (.slice d (s.homeSlice (if 200 ≤ c then c - 200 else s.partOf c) d pa)) pa 0 1 (.homeSliceAccess a)

/-! ## Page walks (R253, R255) -/

/-- The walks of a die to one page are one walk (R255). -/
def sameWalk (x w : WalkReq) : Bool := dieOf x.core == dieOf w.core && x.fn == w.fn && x.pasid == w.pasid && x.va == w.va

/-- A walk asked for (R255): one for each page of a die, whoever asks; a TLB with 256 misses outstanding asks for none. It goes out on VC0 to the
home slice of its PASID table (R436). -/
def State.askWalk (s : State) (core tlb pasid : Nat) (va : W64) : State :=
  let w : WalkReq := { core := core, tlb := tlb, fn := s.partOf core, pasid := pasid, va := w64 (va.toNat / 4096 * 4096) }
  if s.walks.contains w || decide (Config.missesOut ≤ (s.walks.filter (fun x => x.core == core && x.tlb == tlb)).length) then s
  else
    let s1 := { s with walks := s.walks ++ [w] }
    if s.walks.any (fun x => sameWalk x w) then s1
    else
      let t := bitsAt (s.fn w.fn).pastab.toNat 12 40 * 4096 + 16 * pasid
      s1.routePa (nodeOf core) (.slice (dieOf core) (s.homeSlice w.fn (dieOf core) t)) t 0 1 (.pageWalkComplete w)

/-- Has a walk one of its die's walkers (R255)? -/
def State.walking (s : State) (w : WalkReq) : Bool :=
  let pages := nub ((s.walks.filter (fun x => dieOf x.core == dieOf w.core)).map (fun x => (x.fn, x.pasid, x.va)))
  !pages.contains (w.fn, w.pasid, w.va) || (pages.take Config.walkers).contains (w.fn, w.pasid, w.va)

/-- The TLB entry that a walk gives a requester. -/
def Walked.entry (r : Walked) (w : WalkReq) (core tlb : Nat) : TlbEnt :=
  let sz := min r.size 4096
  { core := core, tlb := tlb, fn := w.fn, pasid := w.pasid, va := w.va.toNat / sz * sz, size := sz, pa := r.pa / sz * sz, p1 := r.p1, p2 := r.p2 }

/-- PAGE_WALK_COMPLETE (R253, R255): the walk as the requester's die sees the tables now, for all who share it: an entry in their TLBs and in the
die's, or a fault kept for the access. Walks beyond the walkers wait; a lost table entry is reported (R250). -/
def execPageWalkComplete (w : WalkReq) (s : State) : Res :=
  if !s.walking w then .next (s.push (.pageWalkComplete w)) else
  let mine := w :: s.walks.filter (fun x => sameWalk x w && x != w)
  let s1 := { s with walks := s.walks.filter (fun x => !sameWalk x w) }
  match s.walk (dieOf w.core) w.fn w.pasid w.va with
  | .ok r => .next (mine.foldl (fun (s : State) x => s.addTlb (if x.tlb == 0 then Config.tlbCore else Config.tlbPort) (r.entry w x.core x.tlb))
      (s1.addTlb Config.tlbDie (r.entry w (dieOf w.core) 3)))
  | .error (c, d) =>
    if c == 0 then .next (s1.reportLoss w.fn)
    else if c == 1 then .next ((s.askLine (dieOf w.core) w.core d w.va).push (.pageWalkComplete w))
    else .next { s1 with walkFaults := s1.walkFaults ++ mine.map (fun x => ({ core := x.core, tlb := x.tlb, fn := w.fn, pasid := w.pasid, page := w.va.toNat / 4096, code := c, detail := d } : WalkFault)) }

/-- A line of global bytes sent: through to the L2, or to the host (R244, R231). The L1 line takes them if it is present. -/
def State.sendGlobal (s : State) (c line : Nat) (cells : List (Nat × BitVec 8)) (va pc : W64) (slot : Nat) : State :=
  let base := line * 64
  let sys := isSys base
  let (id, s1) := s.newSent c (if sys then 2 else 1) (if sys then 4 else 2)
  let s2 := s1.modCore c (fun k => match k.l1.find line with
    | some b => { k with l1 := k.l1.set line ((Memory.writeAll ((cellsAt base b).foldl (fun (m : Memory) p => m.write p.1 p.2) []) cells).readN base 64) }
    | none => k)
  let a : Access := { die := dieOf c, core := c, id := id, va := va, pa := base, len := 64, wr := some cells, l1 := false, pc := pc, slot := slot, reply := .none }
  s2.routePa (nodeOf c) (if sys then .base 0 25 else s2.homeNode c base) base 0 1 (.homeSliceAccess a)

/-- An atomic on a core's scratchpad where it is performed (R237, R238): the old value, and the new scratchpad. -/
def Core.atomHere (k : Core) (a : AtomReq) : Nat × Core :=
  let n := atomBytes a.size
  let old := leNat (k.spad.readN a.pa n)
  (old, { k with spad := k.spad.writeN a.pa (leBytes n (atomNew a.aop a.size old a.v.toNat a.c.toNat)) })

/-- An atomic sent (R238, R239, R241): to the core's own scratchpad at once, to another core's bank unit, or to the owner's home slice. -/
def State.sendAtom (s : State) (c glob : Nat) (a : AtomReq) : State :=
  let s0 := s.modCore c (fun k => { k with pend := k.pend.map (fun p => if a.tk == some p.tk then { p with op := false } else p) })
  if glob == 0 then
    let (old, k) := (s0.core c).atomHere a
    let s1 := s0.setCore c k
    match a.tk with
    | some t => s1.push (.atomicResultArrival c t (extendBy a.size old) [])
    | none => s1
  else
    let s1 := match a.tk with
      | some t => s0.modCore c (fun k => { k with outs := k.outs ++ [t] })
      | none => s0
    let dst := if glob == 1 then dieOf a.tgt else s.ownerDie a.pa
    let (id, s2) := s1.newSent c 2 (if glob == 1 then coreScope c a.tgt else if dst == dieOf c then 2 else 3)
    let s2 := if glob == 2 then s2.modCore c (fun k => { k with l1 := k.l1.del (a.pa / 64) }) else s2
    let a1 := { a with id := id, clk := (s2.die (dieOf c)).app }
    let unit := if glob == 1 then unitCore a.tgt else unitSlice dst (s.homeSlice ((s.windowPart a.pa).getD (s.partOf c)) dst a.pa)
    s2.sendDirected (nodeOf c) dst unit 0 1 (some (c, { tk := a.tk, code := 0x0E, detail := 0, pc := a.pc, slot := a.slot, addr := a.ea }))
      (if glob == 1 then .atom a1 else .atomg a1)

/-- CTRINIT's effect (R327). -/
def Core.ctrInit (k : Core) (ctr expect : Nat) (shared : Bool) : Core :=
  { k with ctrs := k.ctrs.set ctr { k.ctrs.get ctr {} with expect := expect, count := 0, shared := shared } }

/-- The partition of a channel number's table (R280). -/
def chanDie (ch : Nat) : Nat := ch / 1024

/-- The VA of the lowest byte of a line's stores (R357). -/
def lowestVa (vas : List (Nat × W64)) : W64 :=
  ((vas.foldl (fun (a : Option (Nat × W64)) x => match a with
    | some y => if x.1 < y.1 then some x else some y
    | none => some x) none).map (·.2)).getD 0

/-- One item does what it does when it is sent (R269). -/
def State.sendKind (s : State) (c : Nat) (i : Item) : State :=
  match i.kind with
  | .store false _ bs fe _ => s.modCore c (fun k => ({ k with spad := k.spad.writeAll (inOrder bs) } : Core).applyFull fe)
  | .store true line bs _ vas => s.sendGlobal c line (inOrder bs) (lowestVa vas) i.pc i.slot
  | .fence => s
  | .atom g a => s.sendAtom c g a
  | .copy id => (s.modCore c (fun k => { k with ports := k.ports.map (fun x => if x.id == id then { x with sent := true } else x) })).push (.copyCommandStart c id)
  | .chwr ch _ ents =>
    if ((s.core c).chans.get ch {}).closed then s.asyncFault c { code := 0x11, detail := 3, addr := w64 ch, pc := i.pc, slot := i.slot, single := false } else
    ents.foldl (fun (s : State) b =>
      let (id, s1) := s.newSent c 2 (if chanDie ch == dieOf c then 2 else 3)
      s1.sendDirected (nodeOf c) (chanDie ch) (unitChan (chanDie ch)) 1 3 none (.append { core := c, id := id, ch := ch, ents := [b], pc := i.pc, slot := i.slot })) s
  | .launch .. => (s.modCore c (fun k => { k with subm := k.subm ++ [i], cstall := true })).push (.launchSubmissionAccept c)
  | .ctrinit ctr e => s.modCore c (fun k => k.ctrInit ctr e true)
  | .post p => s.sendPost p
  | .accept m =>
    (s.modCore c (fun k => match k.splices.find m.pq with
      | some r => if r.st == .accepting then { k with splices := k.splices.set m.pq { r with st := .ropen } } else k
      | none => k)).routeGated c m.core 3 1 { tk := none, code := 0x0E, detail := 0, pc := i.pc, slot := i.slot, addr := w64 m.core } (.spliceAcceptanceArrival m)

def ItemKind.isCopy : ItemKind → Bool
  | .copy _ => true
  | _ => false
def ItemKind.isFence : ItemKind → Bool
  | .fence => true
  | _ => false

/-- The scope at which an item releases: a LAUNCH at package scope at least (R200). -/
def Item.relScope (i : Item) : Nat :=
  match i.kind with
  | .launch .. => max 3 i.scope
  | _ => i.scope

/-- Items that RSENT counts: held commands and FENCE releases, but no CHWR and no CFRED (R422, R482). -/
def Core.countsSent (k : Core) (i : Item) : Bool :=
  match i.kind with
  | .store .. => false
  | .chwr .. => false
  | .copy id => match k.ports.find? (fun x => x.id == id) with
    | some x => x.kind != .cfred
    | none => false
  | _ => true

/-- The item as RSENT sees it (R422): is it suppressed, and the work item with its counts. An item of a closed operator is not counted. -/
def Core.rsentOf (k : Core) (i : Item) : Bool × Option WorkItem :=
  match k.item with
  | some w => if k.countsSent i && decide (w.latIval ≤ i.ival) then (w.suppress != 0, some { w with rsent := w.rsent + 1, suppress := w.suppress - 1 }) else (false, some w)
  | none => (false, none)

/-- A suppressed item (R422): it consumes its sources and sends, writes and posts nothing. The result of a suppressed ATOM is a free value
(log 8). -/
def State.suppressItem (s : State) (c : Nat) (i : Item) : State :=
  match i.kind with
  | .copy id => s.modCore c (fun k => match k.ports.find? (fun x => x.id == id) with
    | some m => { k.readersDone ((List.range m.n).map (fun j => (m.q, (m.idx + j) % 65536))) with ports := k.ports.filter (fun x => x.id != id) }
    | none => k)
  | .atom _ a => match a.tk with
    | some t =>
      let (n, s1) := s.newFresh
      (s1.modCore c (fun k => { k with pend := k.pend.map (fun p => if p.tk == t then { p with op := false } else p) })).push
        (.atomicResultArrival c t (w64 (leNat ((List.range 8).map (fun j => Config.freeByte n j)))) [])
    | none => s
  | _ => s

/-- The first item leaves. A release other than a copy command's completes first (R269, R293, R200); a copy command's completes after its
writes (R271). -/
def State.sendHead (s : State) (c : Nat) (i : Item) : State :=
  let drop := s.modCore c (fun k => { k with items := k.items.drop 1, item := ((s.core c).rsentOf i).2 })
  if i.kind.isFence && ((s.core c).rsentOf i).1 then drop
  else if i.rel && !i.kind.isCopy then
    (s.modCore c (fun k => { k with relWait := some i.relScope, items := (if i.kind.isFence then [] else [{ i with rel := false }]) ++ k.items.drop 1,
                                    item := if i.kind.isFence then ((s.core c).rsentOf i).2 else k.item })).poke c
  else if ((s.core c).rsentOf i).1 then drop.suppressItem c i
  else if i.rel then (drop.sendKind c i).modCore c (fun k => { k with relWait := some i.relScope, relItem := true })
  else drop.sendKind c i

/-- Items of closed intervals sent in program order, as far as they may be. -/
def State.pumpN : Nat → State → Nat → State
  | 0, s, _ => s
  | n + 1, s, c =>
    let k := s.core c
    match k.items with
    | [] => s
    | i :: _ =>
      if !(decide (i.ival < k.ival) || k.halting) then s
      else if k.itemBlocked i then (if k.relItem then s else s.poke c)
      else State.pumpN n (s.sendHead c i) c
def State.pump (s : State) (c : Nat) : State := State.pumpN (2 * (s.core c).items.length + 1) s c

/-- RELEASE_COMPLETE (R266): the release that the sequence waits for completes when its conditions hold, and the items after it go. -/
def execReleaseComplete (core : Nat) (s : State) : Res :=
  let k := s.core core
  match k.relWait with
  | none => .next (s.pump core)
  | some sc =>
    if k.relItem then .next s
    else if s.releaseOk core sc then .next ((s.modCore core (fun k => { k with relWait := none })).pump core)
    else .next (s.push (.releaseComplete core))

/-- Must a release that is not held wait for the accesses before it (R266)? -/
def State.relBlocked (s : State) (rel : Bool) : Bool :=
  let c := s.cur.core
  !holds c (s.core c) && rel && ((s.core c).loadsBefore (s.cur.op.place (s.core c)) || !s.releaseOk c s.cur.op.scope)

/-- An op's item: held on a tile core in normal mode, or sent as it executes, after a release of its own where it is one (R111, R241, R268,
R321, R388). -/
def State.actItem (s : State) (i : Instr) (rel : Bool) (kind : ItemKind) : Res :=
  let c := s.cur.core
  let k := s.core c
  let o := s.cur.op
  if holds c k then
    let s1 := s.modCore c (fun k => k.hold o s.cur.slot rel kind)
    .next (if o.ival < k.ival then s1.poke c else s1)
  else if s.relBlocked rel then .next (s.requeue i)
  else .next (s.sendKind c { seq := o.place k, ival := o.ival, pc := o.pc, slot := s.cur.slot, scope := o.scope, rel := rel, kind := kind })

/-- A store's bytes: withheld on a tile core in normal mode (fault 0x08 where the buffer is full), else sent line by line (R111, R382). -/
def State.actStore (s : State) (glob : Bool) (cells : List (Nat × BitVec 8)) (fe : List (Nat × Bool)) (vas : List (Nat × W64)) (addr : W64) : Res :=
  let c := s.cur.core
  let k := s.core c
  let o := s.cur.op
  let k0 := k.readersDone o.srcs
  if holds c k then
    match k0.withhold o s.cur.slot glob cells fe vas with
    | none => .next (s.raise 0x08 0x01 0)
    | some k1 => let s1 := s.setCore c k1; .next (if o.ival < k.ival then s1.poke c else s1)
  else if glob then
    .next ((linesOf cells).foldl (fun s l => s.sendGlobal c l (cells.filter (fun p => p.1 / 64 == l)) (((vas.find? (fun v => v.1 / 64 == l)).map (·.2)).getD addr) o.pc s.cur.slot) (s.setCore c k0))
  else .next (s.setCore c (fe.foldl (fun k f => k.setFull f.1 f.2) { k0 with spad := k0.spad.writeAll cells }))

end Sys2Proof.Machine
end

