-- ==== Sys2Proof/Machine/ScalarMem.lean ====
section
/-! DEFINITION. Scalar loads, stores, full/empty words and atomics (04 R108 to R112, 09 R230 to R243). -/
namespace Sys2Proof.Machine

/-- Bytes of a core's scratchpad (R11, R194). -/
def spadSize (c : Nat) : Nat := if isCtl c then 1048576 else 4194304

/-- The checks of a scratchpad access by address (R109, R233): alignment, bound, declared bytes. -/
def Core.spadCheck (k : Core) (c : Nat) (ea : W64) (n align : Nat) : Option (Nat × Nat) :=
  if ea.toNat % align != 0 then some (0x09, 0)
  else if spadSize c ≤ ea.toNat then some (0x0A, 0)
  else if k.limSpad < ea.toNat + n then some (0x07, 4) else none

/-- The bytes a waiting op will store to its own scratchpad: none for other ops; unknown where its address is not captured yet. -/
def SlipOp.span (p : SlipOp) : Option (Option (Nat × Nat)) :=
  let at_ (a : Nat) (off : W64) (n : Nat) : Option (Option (Nat × Nat)) := some ((p.capVal a).map (fun v => ((v + off).toNat, n)))
  match p.op with
  | .sts o => at_ o.a.toNat (o.off.signExtend 64 * w64 (sizeBytes o.size)) 8
  | .stsOff32 o => at_ o.a.toNat (o.off.signExtend 64) 8
  | .ste o => at_ o.a.toNat (o.off.signExtend 64 * 8) 8
  | .steOff32 o => at_ o.a.toNat (o.off.signExtend 64) 8
  | .stlay a _ => at_ a.toNat 0 96
  | .vsts o => at_ o.s.toNat 0 256
  | .vscat _ => some none
  | _ => none

/-- Does an earlier op of another slot still have to store bytes of a range (R111)? -/
def Core.storeWait (k : Core) (o : SlipOp) (a n : Nat) : Bool :=
  k.slots.l.any (fun q => q.2.any (fun p => decide (p.seq < o.seq) && (match p.span with
    | none => false
    | some none => true
    | some (some (b, m)) => decide (b < a + n) && decide (a < b + m))))

/-- A source register of the running op, then the rest. -/
def State.reg (s : State) (i : Instr) (block : Bool) (r : Nat) (f : W64 → Res) : Res :=
  match (s.core s.cur.core).readReg s.cur.op block r with
  | .val v => f v
  | .wait => .next (s.requeue i)
  | .fault c d => .next (s.raise c d 0)

/-- A checked scratchpad address, then the rest; a read (`rd`) waits for earlier stores of other slots, for entries that earlier ops
have still to fill (R112) and on the range table (R333). -/
def State.spadAt (s : State) (i : Instr) (ea : W64) (n align : Nat) (rd : Bool) (f : Nat → Res) : Res :=
  let k := s.core s.cur.core
  match k.spadCheck s.cur.core ea n align with
  | some (c, d) => .next (s.raise c d ea)
  | none => if rd && (k.storeWait s.cur.op ea.toNat n || k.unfilled s.cur.op.seq ea.toNat n || k.gated ea.toNat n) then .next (s.requeue i) else f ea.toNat

/-- A translated global address, then the rest; a miss asks for its walk and the op waits. -/
def State.globalAt (s : State) (i : Instr) (ea : W64) (a : Acc) (n : Nat) (f : Nat → Res) : Res :=
  let c := s.cur.core
  match s.translate c 0 (s.pasidOf c) ea a n with
  | .pa p => f p
  | .miss => .next ((s.askWalk c 0 (s.pasidOf c) ea).requeue i)
  | .fault code d => .next ((s.clearWalk c 0 ea).raise code d ea)

/-- A full/empty result of the running op that arrives later (R13). -/
def State.later (s : State) (d : Nat) (v : W64) : State :=
  let c := s.cur.core
  let (t, k) := (s.core c).feTicket s.cur.op d
  (s.setCore c k).push (.scalarResultArrival c t v)

/-- LDS (R109). -/
def State.loadSpad (s : State) (i : Instr) (d : Nat) (ba : Bool) (a : Nat) (size : BitVec 3) (off : W64) : Res :=
  s.reg i ba a (fun x => s.spadAt i (x + off) (sizeBytes size) (sizeBytes size) true (fun ea =>
    .next (s.later d (extendBy size (leNat ((s.core s.cur.core).spadRead s.cur.op ea (sizeBytes size)))))))

/-- STS (R109, R111). -/
def State.storeSpad (s : State) (i : Instr) (d : Nat) (ba : Bool) (a : Nat) (size : BitVec 3) (off : W64) : Res :=
  s.reg i ba a (fun x => s.reg i true d (fun v => s.spadAt i (x + off) (sizeBytes size) (sizeBytes size) false (fun ea =>
    s.actStore false (cellsAt ea (leBytes (sizeBytes size) v.toNat)) [] [] (x + off))))

/-- The core, line and number of an access or atomic that an event is, if it is one. -/
def evLine : Ev → Option (Nat × Nat × Nat)
  | .homeSliceAccess a => some (a.core, a.pa / 64, a.id)
  | .kneadRecordRequest a => some (a.core, a.pa / 64, a.id)
  | .directedPacketPerform p => match p.body with
    | .atomg a => some (a.core, a.pa / 64, a.id)
    | _ => none
  | .homeSliceAtomic a => some (a.core, a.pa / 64, a.id)
  | _ => none

/-- Is an access or atomic of a core to a line on its way (of those with a lower number than `id`)? They are performed in the order sent (R260). -/
def State.lineBusy (s : State) (c line id : Nat) : Bool :=
  s.inFlight.any (fun e => match evLine e with
    | some a => a.1 == c && a.2.1 == line && decide (a.2.2 < id)
    | none => false)

/-- Is the export of an atomic of a core, performed at another die, still on its way to the core's die? A read of that line waits for it (R261). -/
def State.atomLate (s : State) (c line : Nat) : Bool :=
  s.inFlight.any (fun e => match e with
    | .exportedWriteApply d w => d == dieOf c && w.src != d && (w.data.headD (0, 0)).1 / 64 == line && decide (w.clk.getD w.src 0 ≤ (s.core c).expMax.getD w.src 0)
    | _ => false)

/-- The withheld bytes of a range that an op sees, by address (R111). -/
def Core.forwarded (k : Core) (o : SlipOp) (pa n : Nat) : List (Nat × BitVec 8) :=
  let wb := k.withheld true
  (List.range n).filterMap (fun i => if wb.any (fun w => w.2.1 == pa + i && decide (w.1 < o.place k)) then some (pa + i, overlay wb (o.place k) (pa + i) 0) else none)

/-- Bytes of a range with some replaced. -/
def patch (pa : Nat) (b : Bytes) (own : List (Nat × BitVec 8)) : Bytes :=
  (List.range b.length).map (fun i => match Tab.findL own (pa + i) with
    | some v => v
    | none => b.getD i 0)

/-- LDG at its PA (R110, R112, R244): forwarded, from the L1, or asked of the home slice or the host. -/
def State.loadGlobal (s : State) (d : Nat) (size : BitVec 3) (ea : W64) (pa : Nat) : State :=
  let c := s.cur.core
  let k := s.core c
  let n := sizeBytes size
  let own := k.forwarded s.cur.op pa n
  if own.length == n then s.later d (extendBy size (leNat (own.map (·.2))))
  else
    let sys := isSys pa
    match if sys || s.lineBusy c (pa / 64) s.clk.ids then none else k.l1.find (pa / 64) with
    | some b => s.later d (extendBy size (leNat (patch pa ((b.drop (pa % 64)).take n) own)))
    | none =>
      let (t, k1) := k.feTicket s.cur.op d
      let (id, s1) := (s.setCore c k1).newSent c 0 (if sys then 4 else 2)
      let a : Access := { die := dieOf c, core := c, id := id, va := ea, pa := pa, len := n, wr := none, l1 := !sys, pc := s.cur.op.pc, slot := s.cur.slot,
                          reply := .scalar c t n (size == 0#3 || size == 2#3 || size == 4#3) own }
      s1.routePa (nodeOf c) (if sys then .base 0 25 else s1.homeNode c pa) pa 0 1 (.homeSliceAccess a)

/-- LDG (R110). -/
def State.ldgOp (s : State) (i : Instr) (d : Nat) (ba : Bool) (a : Nat) (size : BitVec 3) (off : W64) : Res :=
  s.reg i ba a (fun x => s.globalAt i (x + off) .r (sizeBytes size) (fun pa => .next (s.loadGlobal d size (x + off) pa)))

/-- STG (R110, R111). -/
def State.stgOp (s : State) (i : Instr) (d : Nat) (ba : Bool) (a : Nat) (size : BitVec 3) (off : W64) : Res :=
  s.reg i ba a (fun x => s.reg i true d (fun v => s.globalAt i (x + off) .w (sizeBytes size) (fun pa =>
    s.actStore true (cellsAt pa (leBytes (sizeBytes size) v.toNat)) [] [(pa, x + off)] (x + off))))

/-- LDF and LDFF (R233, R234): the op waits for a full word; LDF empties it. -/
def State.ldfOp (s : State) (i : Instr) (d : Nat) (ba : Bool) (a : Nat) (off : W64) (take : Bool) : Res :=
  s.reg i ba a (fun x => s.spadAt i (x + off) 8 8 true (fun ea =>
    let k := s.core s.cur.core
    if !k.wordFull (ea / 8) then .next (s.requeue i)
    else
      let v := w64 (leNat (k.spadRead s.cur.op ea 8))
      if take then
        if holds s.cur.core k && (k.withhold s.cur.op s.cur.slot false [] [(ea / 8, false)] []).isNone then .next (s.raise 0x08 0x01 0)
        else (s.later d v).actStore false [] [(ea / 8, false)] [] (x + off)
      else .next (s.later d v)))

/-- STE (R233, R234): the op waits for an empty word. -/
def State.steOp (s : State) (i : Instr) (d : Nat) (ba : Bool) (a : Nat) (off : W64) : Res :=
  s.reg i ba a (fun x => s.reg i true d (fun v => s.spadAt i (x + off) 8 8 false (fun ea =>
    if (s.core s.cur.core).wordFull (ea / 8) then .next (s.requeue i)
    else s.actStore false (cellsAt ea (leBytes 8 v.toNat)) [(ea / 8, true)] [] (x + off))))

/-- A short offset in units of the access size (R83, R108). -/
def smOff (o : SM) : W64 := o.off.signExtend 64 * w64 (sizeBytes o.size)
def sfOff (o : SF) : W64 := o.off.signExtend 64 * 8

/-- LDG (R110). -/
def execLdg (o : SM) (s : State) : Res := s.ldgOp (.ldg o) o.d.toNat o.ba o.a.toNat o.size (smOff o)
/-- LDG with an OFF32 extension (R110). -/
def execLdgOff32 (o : SMX) (s : State) : Res := s.ldgOp (.ldgOff32 o) o.d.toNat o.ba o.a.toNat o.size (o.off.signExtend 64)
/-- STG (R111). -/
def execStg (o : SM) (s : State) : Res := s.stgOp (.stg o) o.d.toNat o.ba o.a.toNat o.size (smOff o)
/-- STG with an OFF32 extension (R111). -/
def execStgOff32 (o : SMX) (s : State) : Res := s.stgOp (.stgOff32 o) o.d.toNat o.ba o.a.toNat o.size (o.off.signExtend 64)
/-- LDS (R109). -/
def execLds (o : SM) (s : State) : Res := s.loadSpad (.lds o) o.d.toNat o.ba o.a.toNat o.size (smOff o)
/-- LDS with an OFF32 extension (R109). -/
def execLdsOff32 (o : SMX) (s : State) : Res := s.loadSpad (.ldsOff32 o) o.d.toNat o.ba o.a.toNat o.size (o.off.signExtend 64)
/-- STS (R109, R111). -/
def execSts (o : SM) (s : State) : Res := s.storeSpad (.sts o) o.d.toNat o.ba o.a.toNat o.size (smOff o)
/-- STS with an OFF32 extension (R109, R111). -/
def execStsOff32 (o : SMX) (s : State) : Res := s.storeSpad (.stsOff32 o) o.d.toNat o.ba o.a.toNat o.size (o.off.signExtend 64)
/-- LDF (R233). -/
def execLdf (o : SF) (s : State) : Res := s.ldfOp (.ldf o) o.d.toNat o.ba o.a.toNat (sfOff o) true
/-- LDF with an OFF32 extension (R233). -/
def execLdfOff32 (o : SFX) (s : State) : Res := s.ldfOp (.ldfOff32 o) o.d.toNat o.ba o.a.toNat (o.off.signExtend 64) true
/-- LDFF (R233). -/
def execLdff (o : SF) (s : State) : Res := s.ldfOp (.ldff o) o.d.toNat o.ba o.a.toNat (sfOff o) false
/-- LDFF with an OFF32 extension (R233). -/
def execLdffOff32 (o : SFX) (s : State) : Res := s.ldfOp (.ldffOff32 o) o.d.toNat o.ba o.a.toNat (o.off.signExtend 64) false
/-- STE (R233). -/
def execSte (o : SF) (s : State) : Res := s.steOp (.ste o) o.d.toNat o.ba o.a.toNat (sfOff o)
/-- STE with an OFF32 extension (R233). -/
def execSteOff32 (o : SFX) (s : State) : Res := s.steOp (.steOff32 o) o.d.toNat o.ba o.a.toNat (o.off.signExtend 64)

/-! ## Atomics -/

def saOff (o : SA) : W64 := o.off.signExtend 64 * w64 (sizeBytes o.size)
/-- The target core of a remote ATOM (R236). -/
def saTarget (o : SA) : Nat := 32 * o.die.toNat + o.core.toNat

/-- The operands of an atomic: address, value, compare value for CAS only (R236). -/
def State.atomRegs (s : State) (i : Instr) (o : SA) (f : W64 → W64 → W64 → Res) : Res :=
  s.reg i o.ba o.a.toNat (fun x => s.reg i o.bv o.v.toNat (fun v =>
    if o.aop == 1#4 then s.reg i o.bc o.c.toNat (fun c => f (x + saOff o) v c) else f (x + saOff o) v 0))

/-- An atomic past its checks: its destination is empty until the old value comes; it counts as complete once held (R241). -/
def State.atomGo (s : State) (i : Instr) (o : SA) (ret : Bool) (glob tgt pa : Nat) (ea v c : W64) : Res :=
  let cc := s.cur.core
  let p := s.cur.op
  let k := s.core cc
  let (tk, k1) : Option Nat × Core := if ret then (let (t, k1) := k.feTicket p o.d.toNat; (some t, { k1 with pend := k1.pend.map (fun q => if q.tk == t then { q with op := false } else q) })) else (none, k)
  (s.setCore cc k1).actItem i false (.atom glob
    { core := cc, tgt := tgt, id := 0, tk := tk, pa := pa, ea := ea, aop := o.aop.toNat, size := o.size, v := v, c := c, pc := p.pc, slot := s.cur.slot,
      part := s.partOf cc, pasid := s.pasidOf cc, clk := [] })

/-- ATOM (R238). -/
def execAtom (o : SA) (s : State) : Res :=
  let c := s.cur.core
  s.atomRegs (.atom o) o (fun ea v w =>
    if !o.rem then s.spadAt (.atom o) ea (atomBytes o.size) (atomBytes o.size) false (fun a => s.atomGo (.atom o) o true 0 c a ea v w)
    else if ea.toNat % atomBytes o.size != 0 then .next (s.raise 0x09 0 ea)
    else if saTarget o == c then .next (s.raise 0x04 0 0)
    else if s.partOf (saTarget o) != s.partOf c then .next (s.raise 0x0E 0 ea)
    else s.atomGo (.atom o) o true 1 (saTarget o) ea.toNat ea v w)

/-- ATOMG (R239). -/
def execAtomg (o : SA) (s : State) : Res :=
  s.atomRegs (.atomg o) o (fun ea v w => s.globalAt (.atomg o) ea .rw (atomBytes o.size) (fun pa =>
    s.atomGo (.atomg o) o true 2 s.cur.core pa ea v w))

/-- RADD (R240). -/
def execRadd (o : SA) (s : State) : Res :=
  s.atomRegs (.radd o) o (fun ea v w => s.globalAt (.radd o) ea .rw (atomBytes o.size) (fun pa =>
    s.atomGo (.radd o) o false 2 s.cur.core pa ea v w))

end Sys2Proof.Machine
end

