-- ==== Sys2Proof/Machine/Fetch.lean ====
section
/-! DEFINITION. Fetching words of code and reading bundle headers (03, R64 to R77). -/
namespace Sys2Proof.Machine

/-- What fetching one word gives: the word, a walk or a view line to wait for, or a fault with the address (R117). -/
inductive Fetched where
  | word (w : W32)
  | miss (va : W64)
  | fault (code detail : Nat) (va : W64)
  deriving DecidableEq, Repr

/-- A 32-bit word of code at a virtual address (R251, R254): the one that stands there, or the one the fetch path has kept since the work item
began (R67); one in a bound view is that view's (R355, R357). -/
def State.fetch (s : State) (c : Nat) (va : W64) : Fetched :=
  match s.translate c 0 (s.pasidOf c) va .x 4 with
  | .pa a => (match s.memRead (dieOf c) a 4 with
    | .bytes b => .word (((s.core c).ic.find (a / 4)).getD (BitVec.ofNat 32 (leNat b)))
    | .bad x _ => .fault 0x18 x va
    | .line _ => .miss va
    | .lost => .miss va)
  | .miss => .miss va
  | .fault code d => .fault code d va

/-- What a fetch waits for, asked for once: the walk of its page, or the record of a line of a read view (R355). A word that is lost is reported (R250). -/
def State.askFetch (s : State) (c : Nat) (va : W64) : State :=
  match s.translate c 0 (s.pasidOf c) va .x 4 with
  | .miss => s.askWalk c 0 (s.pasidOf c) va
  | .fault _ _ => s
  | .pa pa =>
    if s.lostData pa then s.reportLoss (s.partOf c) else
    s.askLine (dieOf c) c pa va

/-- n words from an address. -/
def State.fetchN (s : State) (c : Nat) (va : W64) : Nat → List W32 → Except Fetched (List W32)
  | 0, acc => .ok acc
  | n + 1, acc =>
    match s.fetch c va with
    | .word w => s.fetchN c (va + 4) n (acc ++ [w])
    | f => .error f

/-- KIND of a header (R64). -/
def hdrKind (h : W32) : Nat := bitsAt h.toNat 29 3
/-- A PRESENT bit by slot, S first (R68). -/
def hdrPresent (h : W32) (slot : Nat) : Bool := h.getLsbD (28 - slot)
/-- A SURRENDER bit by slot: V0 to C1 (R68). -/
def hdrSurrender (h : W32) (slot : Nat) : Bool := slot != 0 && h.getLsbD (23 - slot)
def hdrPfx (h : W32) : Bool := h.getLsbD 17
def hdrCkp (h : W32) : Bool := h.getLsbD 16
def hdrOpb (h : W32) : Bool := h.getLsbD 15
/-- The pop fields: queue and count (R68, R71, R76). -/
def hdrPops (h : W32) : List (Nat × Nat) :=
  if hdrKind h == 5 then [(bitsAt h.toNat 11 3, bitsAt h.toNat 7 4), (bitsAt h.toNat 4 3, bitsAt h.toNat 0 4)]
  else [(bitsAt h.toNat 19 3, bitsAt h.toNat 15 4)]

/-- Words of a bundle from its header alone (R65), or none where the header has no kind. -/
def hdrWords (h : W32) : Option Nat :=
  if hdrKind h == 5 then some (1 + (if hdrPfx h then 1 else 0) + ((List.range 6).filter (hdrPresent h)).length)
  else if hdrKind h == 6 then some (2 + (if h.getLsbD 25 then 1 else 0)) else none

/-- Header faults of a wide bundle (R79 check 2). -/
def wideHdrBad (h : W32) : Bool :=
  h.getLsbD 14 || (hdrPops h).any (fun p => p.2 == 0 && p.1 != 0) ||
  (List.range' 1 5).any (fun i => hdrSurrender h i && (!hdrPresent h i || !hdrPresent h (i - 1) || hdrSurrender h (i - 1)))
/-- Prefix faults (R73). -/
def pfxBad (p : W32) : Bool := decide (6 ≤ bitsAt p.toNat 29 3) || bitsAt p.toNat 0 11 != 0
/-- Header faults of a single-op bundle (R76). -/
def singleHdrBad (h : W32) : Bool :=
  decide (4 ≤ bitsAt h.toNat 26 3) || decide (6 ≤ bitsAt h.toNat 22 3) || bitsAt h.toNat 0 15 != 0 || (hdrPops h).any (fun p => p.2 == 0 && p.1 != 0)

/-- The address after the bundle at an address (R65): the address itself where its header cannot be read. -/
def State.after (s : State) (c : Nat) (va : W64) : Except W64 W64 :=
  match s.fetch c va with
  | .word h => .ok (va + w64 (4 * (hdrWords h).getD 0))
  | .miss v => .error v
  | .fault _ _ _ => .ok va

end Sys2Proof.Machine
end

