-- ==== Sys2Proof/Machine/Hazard.lean ====
section
/-! DEFINITION. Why the op at the head of a slot stalls although its own operands may be there (01, R14, R29; 04, R102; 05, R141; 06, R163; 12, R331): an
earlier result of its register, the divider, an earlier store to the bytes of its queue sources, an earlier write of the range table. -/
namespace Sys2Proof.Machine

/-- An earlier result of the register that the op writes is still to come (R14). -/
def Core.destWaits (k : Core) (o : SlipOp) : Bool :=
  match o.tk.bind (fun t => k.pend.find? (fun p => p.tk == t)) with
  | some p => !p.dead && k.blocked o p.dst
  | none => false

/-- The guard of a divide (R102). -/
def divGuard : Instr → Option (BitVec 5)
  | .div o | .divz o | .rem o | .remz o => some o.g
  | _ => none

/-- A divide that finds the divider busy (R102). -/
def Core.divWaits (k : Core) (o : SlipOp) : Bool :=
  match divGuard o.op, k.divTk with
  | some g, some t => k.guard o g.toNat && k.pend.any (fun p => p.tk == t && p.val.isNone)
  | _, _ => false

/-- An earlier store of another slot has still to write bytes of an entry that the op reads (R29, R111, R141). A repeated op reads anywhere in
its queue. -/
def Core.sourceWaits (k : Core) (o : SlipOp) : Bool :=
  o.srcs.any (fun x => k.storeWait o ((k.queue x.1).addr x.2) 256) ||
  (o.rep.n != 0 && o.heads.any (fun h => k.storeWait o ((k.queue h.1).base * 256) ((k.queue h.1).cap * 256)))

/-- Ops of other slots that the range table gates (R333). -/
def isGated : Instr → Bool
  | .vlds .. | .vgath .. | .csts .. | .cbcast .. => true
  | _ => false
/-- Ops that write the range table. -/
def isRange : Instr → Bool
  | .rtset .. | .rtclr .. => true
  | _ => false

/-- An earlier bundle's write of the range table still waits in the S slot (R331). -/
def Core.rangeWaits (k : Core) (o : SlipOp) : Bool :=
  isGated o.op && (k.slots.get 0 []).any (fun p => isRange p.op && decide (p.bundle < o.bundle))

/-- A repeated op stays in the M slot until its last iteration has started, so the ops after it wait (R163). -/
def Core.repeatWaits (k : Core) (slot : Nat) : Bool := slot == 3 && k.stream.any (·.running)

/-- The op stalls at the head of its slot. -/
def Core.headWaits (k : Core) (slot : Nat) (o : SlipOp) : Bool := k.destWaits o || k.divWaits o || k.sourceWaits o || k.rangeWaits o || k.repeatWaits slot

end Sys2Proof.Machine
end

