-- ==== Sys2Proof/Machine/SysReg.lean ====
section
/-! DEFINITION. System registers as SYSR reads and SYSW writes them (04, R128 to R130, and the rules their rows name). -/
namespace Sys2Proof.Machine

/-- OPBCY (R392): cycles since the last operator boundary, held at its greatest value. -/
def State.opbcy (s : State) (c : Nat) : Nat := min (s.cyc - (s.core c).opbBase) (2 ^ 32 - 1)

/-- RFWIN (R130, R248). -/
def State.rfwin (s : State) : W64 :=
  w64 (512 * 2 ^ 32 + 0x1E00 * 2 ^ 16 + (if 7680 ≤ s.cyc % 8192 then 256 else 0) + (s.period + 1) % 16 * 16 + s.period % 16)

/-- A partition's weight-store window on a die: base and length in 64 KiB units (R247). -/
def State.wsWindow (s : State) (p d : Nat) : Nat × Nat := s.layout.now.ws.getD (4 * p + d) (0, 0)

/-- DSZ (R406). -/
def Core.dsz (k : Core) : W64 :=
  w64 (256 * ((List.range 8).foldl (fun a q => a + (if (k.queue q).en then (k.queue q).count else 0)) 0) + 20480 * k.dirty.length + 4096)

/-- PRG (R406). -/
def State.prg (s : State) (c : Nat) : W64 :=
  let l := (s.core c).loop
  w64 ((if l.act then min (l.lc * l.ii) (2 ^ 32 - 1) else 0) * 2 ^ 32 + s.opbcy c)

/-- CORESTAT (R130). -/
def Core.corestat (k : Core) : W64 :=
  let st (i : Nat) : Nat := match k.slots.get i [] with
    | o :: _ => if o.waits || k.headWaits i o then 2 ^ (2 + i) else 0
    | [] => 0
  w64 ((List.range 6).foldl (fun a i => a + st i) 0 + (if k.cstall || k.stall then 2 else 0) + (if k.handler then 1 else 0))

/-- SYNCST (R217); GSIZE of a gang that resumed without some members: log 103. -/
def State.syncst (s : State) (c : Nat) : W64 :=
  match (s.core c).item with
  | none => 0
  | some w => match w.line with
    | none => w64 (w.gang.length * 2 ^ 16)
    | some l => w64 (w.gang.length * 2 ^ 16 + ((s.die (dieOf c)).lines.get l {}).arrived.length * 256 + 16 + l)

/-- The island of a core: its quadrant's, or quadrant 0's of its die (R490). -/
def islandOf (c : Nat) : Nat := if isCtl c then 4 * dieOf c else quadOf c

/-- Does a step pause a core (R442, R444)? A control core stands in no island (R487). -/
def State.corePaused (s : State) (c : Nat) : Bool := !isCtl c && (s.island (islandOf c)).paused
/-- FREQST (R490). -/
def State.freqst (s : State) (c : Nat) : W64 :=
  let i := s.island (islandOf c)
  w64 (i.aperiod % 2 ^ 32 * 2 ^ 16 + (if i.apend then 256 else 0) + i.alevel * 16 + i.level)

/-- A partition's entry quota on a die (R211). -/
def State.quota (s : State) (d : Nat) : Nat :=
  let k := (nub ((List.range 4).map (fun q => s.layout.now.quad.getD (4 * d + q) 0))).length
  64 / k
/-- Launch entries in use on a die, of a partition or of all. -/
def Die.used (d : Die) (p : Option Nat) : Nat :=
  (d.entries.l.filter (fun e => e.2.st != .free && (match p with | some q => e.2.part == q | none => true))).length
/-- SCSTAT (R196). -/
def State.scstat (s : State) (d p : Nat) : W64 :=
  let k := s.die d
  w64 (s.quota d * 2 ^ 24 + k.used (some p) * 2 ^ 16 + (k.entries.l.filter (fun e => e.2.st == .ready && e.2.part == p)).length * 256 + k.used none)

/-- A system register (R129). An unassigned number reads 0 here: decoding refuses it (R128). -/
def State.sysRead (s : State) (c f : Nat) : W64 :=
  let k := s.core c
  let d := dieOf c
  let p := s.partOf c
  match f with
  | 0x00 => k.sys.widv
  | 0x01 => w64 s.cyc
  | 0x02 => w64 (s.cyc / 8192)
  | 0x03 => k.sys.fflags.zeroExtend 64
  | 0x04 => s.rfwin
  | 0x06 => let w := s.wsWindow p d; w64 (w.2 * 2 ^ 32 + w.1)
  | 0x08 => k.sys.limq
  | 0x09 => k.sys.lims
  | 0x0A => k.sys.lima
  | 0x0B => k.sys.limk
  | 0x0C => k.sys.opbmax.zeroExtend 64
  | 0x0D => w64 (s.opbcy c)
  | 0x10 => k.dsz
  | 0x11 => s.prg c
  | 0x12 => s.freqst c
  | 0x18 => k.sys.tcause
  | 0x19 => k.sys.tpc
  | 0x1A => k.sys.tinfo
  | 0x1B => k.sys.taddr
  | 0x1C => k.sys.tvec
  | 0x1D => k.sys.trst
  | 0x20 => k.corestat
  | 0x21 => s.syncst c
  | 0x30 => ((s.die d).sel.get p {}).scquant.zeroExtend 64
  | 0x31 => w64 ((s.die d).sel.get p {}).scage
  | 0x32 => s.scstat d p
  | 0x33 => let q := s.part p; w64 (q.resBase * 2 ^ 32 + q.resTotal * 2 ^ 16 + (q.resTotal - q.resUsed.length))
  | 0x34 => w64 (s.part p).prfcfg
  | 0x35 => k.ctl.abnst
  | 0x36 => w64 (s.part p).wdcfg
  | 0x37 => w64 k.ctl.wqcur
  | 0x38 => (s.fn p).fence
  | 0x39 => let q := s.part p; w64 (q.frmTotal * 2 ^ 32 + q.frames.length)
  | 0x3A => w64 (s.die d).nocCfg
  | 0x3B => w64 (s.qmask p * 2 ^ 32 + p * 2 ^ 16 + s.layout.gen % 65536)
  | 0x3C => let l := (s.die d).lanes; w64 (l.getD 2 0 * 256 + l.getD 1 0 * 16 + l.getD 0 0)
  | 0x3D => w64 k.ctl.wqpas
  | 0x3E => w64 ((s.tport (3 * d + 2)).lanes * 64 + (s.tport (3 * d + 1)).lanes * 8 + (s.tport (3 * d)).lanes)
  | _ => 0

/-- SCQUANT written: the selection state of the context's partition starts afresh (R196, R208). -/
def State.scquantSet (s : State) (d : Nat) (v : W64) : State :=
  let p := s.partOf (128 + d)
  s.modDie d (fun k => { k with sel := k.sel.set p { k.sel.get p {} with scquant := v.extractLsb' 0 32, cls := 0, def_ := [bitsAt v.toNat 0 8, 0, 0, 0], last := s.cyc } })

/-- An event of a vector of a function arises at a die's control core; its packet goes to the PCIe port (R436, R465). -/
def State.interrupt (s : State) (d p vec : Nat) : State := s.route (.ctl d) (.base 0 25) 3 1 (.interruptEvent p vec (s.fn p).rgen)

/-- HINT written: an interrupt event of the context's partition's function (R465). -/
def State.hint (s : State) (d : Nat) (v : W64) : State := s.interrupt d (s.partOf (128 + d)) (bitsAt v.toNat 0 11)

/-- FFLAGS written: the duplicate's too by an op of a closed interval (R51, R379). -/
def Core.setFlags (k : Core) (o : SlipOp) (f : Flags) : Core :=
  { k with sys := { k.sys with fflags := f }, dup := if o.seq != 0 && decide (o.ival < k.ival) then { k.dup with fflags := f } else k.dup }

/-- A system register written (R128, R130): an RO field keeps its value. -/
def State.sysWrite (s : State) (c f : Nat) (v : W64) : State :=
  let k := s.core c
  let p := s.partOf c
  let sys (g : SysRegs → SysRegs) : State := s.setCore c { k with sys := g k.sys }
  let low (n : Nat) : W64 := w64 (bitsAt v.toNat 0 n)
  let al : W64 := v &&& 0xFFFFFFFFFFFFFFFC#64
  match f with
  | 0x03 => s.setCore c (k.setFlags s.cur.op (v.extractLsb' 0 5))
  | 0x18 => if k.handler then sys (fun r => { r with tcause := low 8 }) else s
  | 0x19 => if k.handler then sys (fun r => { r with tpc := v }) else s
  | 0x1A => if k.handler then sys (fun r => { r with tinfo := v &&& 0xFF000F#64 }) else s
  | 0x1B => if k.handler then sys (fun r => { r with taddr := v }) else s
  | 0x1C => sys (fun r => { r with tvec := al })
  | 0x1D => if k.handler then sys (fun r => { r with trst := al }) else s
  | 0x30 => s.scquantSet (dieOf c) v
  | 0x31 => s.modDie (dieOf c) (fun x => { x with sel := x.sel.set p { x.sel.get p {} with scage := bitsAt v.toNat 0 32 } })
  | 0x34 => s.modPart p (fun q => { q with prfcfg := bitsAt v.toNat 0 28 })
  | 0x36 => s.modPart p (fun q => { q with wdcfg := bitsAt v.toNat 0 20 })
  | 0x37 => s.setCore c { k with ctl := { k.ctl with wqcur := bitsAt v.toNat 0 10 } }
  | 0x3D => s.setCore c { k with ctl := { k.ctl with wqpas := bitsAt v.toNat 0 20 } }
  | 0x3F => s.hint (dieOf c) v
  | _ => s

/-- SYSR (R128). -/
def execSysr (d : BitVec 6) (f : BitVec 8) (s : State) : Res :=
  s.coreOp (.sysr d f) (fun p k => k.put p (.reg d.toNat) (s.sysRead s.cur.core f.toNat))

/-- SYSW (R128). HINT follows a release at system scope of the control core's earlier accesses (R467). -/
def execSysw (a : BitVec 6) (f : BitVec 8) (s : State) : Res :=
  s.reg (.sysw a f) true a.toNat (fun v =>
    if f.toNat == 0x3F && !s.releaseOk s.cur.core 4 then .next (s.requeue (.sysw a f)) else .next (s.sysWrite s.cur.core f.toNat v))

/-- SCQUANT_WRITE (R208). -/
def execScquantWrite (die : Nat) (v : W64) (s : State) : Res := .next (s.scquantSet die v)
/-- HINT_WRITE (R465). -/
def execHintWrite (die : Nat) (v : W64) (s : State) : Res := .next (s.hint die v)

end Sys2Proof.Machine
end

