-- ==== Sys2Proof/Machine/Control.lean ====
section
/-! DEFINITION. Control transfer, the loop engine, NOP, TRAP, ERET, FENCE and the counter ops of the S slot (04 R113 to R120, R131,
R132; 16 R389; 10 R267, R268; 12 R327 to R330). -/
namespace Sys2Proof.Machine

/-- A taken transfer (R34, R113, R117, R120): at once in a single-op bundle, after one delay bundle in a wide one; the loop engine idles. -/
def Core.transfer (k : Core) (single : Bool) (t : W64) : Core :=
  let k1 := { k with loop := { k.loop with act := false } }
  if single then { k1 with pc := t, target := none, jumped := true } else { k1 with target := some t }

/-- Is a branch taken (R114)? -/
def Core.taken (k : Core) (p : SlipOp) (o : SB) : Bool := o.g == 31#5 || (k.guard p o.g.toNat != o.n)

/-- The target of BR and CALL (R84). -/
def branchTarget (p : SlipOp) (o : SB) : W64 := p.pc + o.disp.signExtend 64 * 4

/-- BR (R114). -/
def execBr (o : SB) (s : State) : Res :=
  s.coreOp (.br o) (fun p k => .done (if k.taken p o then k.transfer p.single (branchTarget p o) else k) [])

/-- s63 takes the link: full at once, whatever is still in flight for it (R115). -/
def Core.link (k : Core) (v : W64) : Core :=
  ({ k with pend := k.pend.map (fun q => if q.dst == .reg 63 && !q.dead then { q with dead := true, deadIv := k.ival } else q) } : Core).setBase (.reg 63) v

/-- CALL (R115). Its op carries the link address as the address that follows. -/
def execCall (o : SB) (s : State) : Res :=
  s.coreOp (.call o) (fun p k => .done (if k.taken p o then (k.link p.next).transfer p.single (branchTarget p o) else k) [])

/-- JR (R116). -/
def execJr (ba : Bool) (a : BitVec 6) (g : BitVec 5) (s : State) : Res :=
  s.coreOp (.jr ba a g) (fun p k => if !k.guard p g.toNat then .done k [] else
    (k.readReg p ba a.toNat).bind (fun t => if t.toNat % 4 != 0 then .trap 0x09 0 t else .done (k.transfer p.single t) []))

/-- Stage predicates of a loop written (R119). -/
def Core.setStage (k : Core) (i : Nat) (v : W64) : Core := k.setBase (.pred (16 + i)) v

/-- LOOP's effect with the address after END known (R119). A drain request that is pending acts on the engine at once (R418). -/
def Core.loopStart (k : Core) (p : SlipOp) (o : SL) (n : Nat) (end_ afterEnd : W64) : Core :=
  let st := o.sm1.toNat + 1
  let k1 := (List.range' 1 (st - 1)).foldl (fun k i => k.setStage i 0) k
  let l : Loop := { act := n != 0, lc := n - 1, s := st, ii := o.ii.toNat, start := p.next, end_ := end_ }
  if n == 0 then { k1.setStage 0 0 with loop := { l with lc := 0 }, pc := afterEnd }
  else
    let k2 := { k1.setStage 0 (BitVec.allOnes 64) with loop := l, pc := p.next }
    match k2.item.bind (·.drain) with
    | some _ => { k2 with loop := { l with lc := 0 }, item := k2.item.map (fun w => { w with drain := some l.lc }) }
    | none => k2

/-- LOOP (R118, R119). -/
def execLoop (o : SL) (s : State) : Res :=
  s.reg (.loop o) o.ba o.a.toNat (fun v =>
    let c := s.cur.core
    let k := s.core c
    let end_ := s.cur.op.pc + o.imm.zeroExtend 64 * 4
    if k.loop.act then .next (s.raise 0x04 0 0)
    else if bitsAt v.toNat 0 32 != 0 then .next (s.setCore c ((k.loopStart s.cur.op o (bitsAt v.toNat 0 32) end_ 0).recapture s.cur.op))
    else match s.after c end_ with
      | .ok a => .next (s.setCore c ((k.loopStart s.cur.op o 0 end_ a).recapture s.cur.op))
      | .error va => .next ((s.askFetch c va).requeue (.loop o)))

/-- NOP (R131). -/
def execNop (s : State) : Res := s.coreOp .nop (fun _ k => .done k [])

/-- TRAP (R389). -/
def execTrap (n : BitVec 8) (s : State) : Res := .next (s.raise 0x1A n.toNat 0)

/-- ERET (R389): fault 0x04 in normal mode. -/
def execEret (t : Bool) (s : State) : Res :=
  s.coreOp (.eret t) (fun _ k => if !k.handler then .trap 0x04 0 0 else .done (k.leaveHandler t) [])

/-! ## FENCE -/

/-- Has a command that reads global memory still accesses to send or reads to come? -/
def CopyCmd.stillReads (x : CopyCmd) : Bool :=
  x.sent && (match x.kind with
    | .ccpy => decide (x.phase < 2)
    | .cldq | .clds | .cws | .cbcast => decide (x.phase < 3)
    | _ => false)

/-- Step 1 of an acquire, and the clock wait of step 3 (R267): no read of the core is outstanding, nor a released atomic's value. An acquire on
behalf of an op (`upto` is its place) waits for the reads of ops before it, those that still wait in slots too. -/
def State.acquireReady (s : State) (c scope : Nat) (upto : Option Nat) : Bool :=
  let k := s.core c
  let before (n : Nat) : Bool := match upto with
    | some m => decide (n < m)
    | none => true
  k.sent.all (fun r => r.kind != 0) && k.outs.isEmpty && !k.ports.any (fun x => x.stillReads && before x.seq) &&
  !(upto.isSome && k.slots.l.any (fun p => p.2.any (fun o => isRead o.op && before o.seq))) &&
  (scope == 0 || (List.range 4).all (fun x => decide (k.rcv.getD x 0 ≤ (s.die (dieOf c)).app.getD x 0)))

/-- Steps 2 and 3 of an acquire: the L1 is empty, and at quadrant scope or wider RCV is zero (R267, R244). -/
def Core.acquire (k : Core) (scope : Nat) : Core :=
  { k with l1 := ⟨[]⟩, rcv := if scope == 0 then k.rcv else [0, 0, 0, 0] }

/-- FENCE (R268): the acquire, then the release, held on a tile core in normal mode. -/
def execFence (r c : Bool) (s : State) : Res :=
  let sc := s.cur.op.scope
  let core := s.cur.core
  if c && !s.acquireReady core sc none then .next (s.requeue (.fence r c))
  else
    let s1 := if c then s.modCore core (fun k => k.acquire sc) else s
    if r then s1.actItem (.fence r c) true .fence else .next s1

/-! ## Counter ops -/

/-- WAITC (R330). -/
def execWaitc (ph : Bool) (n : BitVec 6) (s : State) : Res :=
  s.coreOp (.waitc ph n) (fun _ k => if (k.ctrs.get n.toNat {}).phase == ph then .done k [] else .wait)

/-- WAITC with POLL (R330): PHASE in bit 63, COUNT below. -/
def execWaitcPoll (d n : BitVec 6) (s : State) : Res :=
  s.coreOp (.waitcPoll d n) (fun p k =>
    let c := k.ctrs.get n.toNat {}
    k.put p (.reg d.toNat) (w64 ((if c.phase then 2 ^ 63 else 0) + c.count)))

/-- CTRINIT (R327). -/
def execCtrinit (a : BitVec 6) (m : Bool) (n : BitVec 6) (s : State) : Res :=
  s.reg (.ctrinit a m n) true a.toNat (fun v =>
    let c := s.cur.core
    if bitsAt v.toNat 40 24 != 0 || (m && isCtl c) then .next (s.raise 0x04 0 0)
    else if m then s.actItem (.ctrinit a m n) false (.ctrinit n.toNat (bitsAt v.toNat 0 40))
    else .next (s.modCore c (fun k => k.ctrInit n.toNat (bitsAt v.toNat 0 40) false)))

/-- The core a CTRPOST names (R328). -/
def postTarget (v : W64) : Nat := if v.getLsbD 48 then 128 + bitsAt v.toNat 45 2 else 32 * bitsAt v.toNat 45 2 + bitsAt v.toNat 40 5
/-- A core a partition may post to: its own tile cores, and control cores of dies on which it holds a quadrant. -/
def State.inPart (s : State) (p t : Nat) : Bool := if isCtl t then s.partOnDie p (dieOf t) else s.partOf t == p

/-- CTRPOST (R328). -/
def execCtrpost (a : BitVec 6) (n : BitVec 6) (s : State) : Res :=
  s.reg (.ctrpost a n) true a.toNat (fun v =>
    let c := s.cur.core
    let o := s.cur.op
    let rem := v.getLsbD 47
    let ctl := v.getLsbD 48
    let b := bitsAt v.toNat 0 40
    if bitsAt v.toNat 49 15 != 0 || (!rem && bitsAt v.toNat 40 9 != 0) || (ctl && (!rem || bitsAt v.toNat 40 5 != 0)) then .next (s.raise 0x04 0 0)
    else if !rem then
      let k := s.core c
      if !isCtl c && k.limNctr ≤ n.toNat then .next (s.raise 0x07 8 0) else
      let p : Post := { tgt := c, ctr := n.toNat, n := b, src := c, tent := true, ival := o.ival, seq := o.seq, id := 0, part := s.partOf c, pasid := s.pasidOf c,
                        pc := o.pc, slot := s.cur.slot, addr := ctrAddr c n.toNat }
      match k.postFault (isCtl c) p with
      | some d => .next (s.raise 0x13 d (ctrAddr c n.toNat))
      | none => .next (s.applyPost p)
    else
      let t := postTarget v
      if !s.inPart (s.partOf c) t then .next (s.raise 0x0E 0 v)
      else s.actItem (.ctrpost a n) false (.post
        { tgt := t, ctr := n.toNat, n := b, src := c, tent := false, ival := o.ival, seq := o.seq, id := 0, part := s.partOf c, pasid := s.pasidOf c,
          pc := o.pc, slot := s.cur.slot, addr := ctrAddr t n.toNat }))

end Sys2Proof.Machine
end

