-- ==== Sys2Proof/Machine/Sync.lean ====
section
/-! DEFINITION. Sync lines and spliced queues (08). -/
namespace Sys2Proof.Machine

/-! ## Sync lines (R212 to R216) -/

/-- A member arrives at its line: fault 0x15 where it has none, or a member has ended, or in handler mode (R213, R215). -/
inductive Arrive where
  | hold (s : State)
  | fault (detail : Nat)

def State.arrive (s : State) (c : Nat) : Arrive :=
  let k := s.core c
  if k.handler then .fault 3 else
  match k.item.bind (·.line) with
  | none => .fault 1
  | some l =>
    let d := dieOf c
    let ln := (s.die d).lines.get l {}
    if ln.broken then .fault 2
    else if k.arrived then .hold s
    else
      let a := ln.arrived ++ [c]
      let s1 := (s.setCore c { k with arrived := true }).modDie d (fun x => { x with lines := x.lines.set l { ln with arrived := a } })
      .hold (if a.length == ln.g then s1.push (.syncLineComplete d l) else s1)

/-- SYNC (R213): once the line has restarted, the op is done; before that the member arrives and holds. -/
def execSync (s : State) : Res :=
  let c := s.cur.core
  if (s.core c).goSync then .next (s.modCore c (fun k => { k with goSync := false, arrived := false }))
  else match s.arrive c with
    | .hold s1 => .next (s1.requeue .sync)
    | .fault d => .next (s.raise 0x15 d 0)

/-- SYNC_LINE_COMPLETE (R212): with all members arrived, the count returns to zero and the restart is on its way. -/
def execSyncLineComplete (die line : Nat) (s : State) : Res :=
  let ln := (s.die die).lines.get line {}
  if ln.held && ln.arrived.length == ln.g then
    .next ((s.modDie die (fun x => { x with lines := x.lines.set line { ln with arrived := [] } })).push (.syncRestart die line))
  else .next s

/-- SYNC_RESTART (R213): every member that arrived may issue its SYNC bundle. -/
def execSyncRestart (die line : Nat) (s : State) : Res :=
  .next (((s.die die).lines.get line {}).members.foldl (fun s c => s.modCore c (fun k => if k.arrived then { k with goSync := true } else k)) s)

/-! ## Splices (R218 to R228) -/

def Core.splice (k : Core) (q : Nat) : Splice := k.splices.get q {}
def Core.setSplice (k : Core) (q : Nat) (r : Splice) : Core := { k with splices := k.splices.set q r }
/-- The record of a queue kept as it stands before an op changes it, with the delivered index of a receiving end (R226). -/
def Core.saveSplice (k : Core) (o : SlipOp) (q : Nat) : Core :=
  if k.handler || (o.seq != 0 && decide (o.ival < k.ival)) || k.dup.splices.any (fun p => p.1 == q) then k else { k with dup := { k.dup with splices := k.dup.splices ++ [(q, if (k.queue q).spl == 2 then { k.splice q with cred := (k.queue q).tail } else k.splice q)] } }

/-- A queue returned to SPL = 0b00 with HEAD = TAIL and every entry FREE (R220). -/
def Core.unspliced (k : Core) (q : Nat) : Core :=
  let u := k.queue q
  (k.setQueue q { u with spl := 0, head := u.tail, ents := ⟨[]⟩ }).setSplice q { acc := (k.splice q).acc }

/-- May the entry at HEAD of a sending end ship (R222)? -/
def Core.canShip (k : Core) (q : Nat) : Bool :=
  let u := k.queue q
  let r := k.splice q
  let e := u.ent u.head
  u.spl == 1 && (r.st == .open_ || (r.st == .closing && r.got)) && u.count != 0 && e.st == .present && ((decide (e.ival < k.ival) && decide (e.seq ≤ k.ckSeq)) || k.halting) && r.cred != 0

/-- May a closing end send CLOSE (R220, R221)? -/
def Core.canClose (k : Core) (q : Nat) : Bool :=
  let r := k.splice q
  (k.queue q).spl == 1 && r.st == .closing && r.got && (k.queue q).count == 0 && r.inflight == 0 && (decide (r.unspliced < k.ival) || k.halting)

/-- What a sending end can do now is put in flight. -/
def State.splPoke (s : State) (c q : Nat) : State :=
  let k := s.core c
  let s1 := if k.canShip q && !s.clk.pending.contains (.spliceEntryShip c q) then s.push (.spliceEntryShip c q) else s
  if k.canClose q && !s.clk.pending.contains (.spliceCloseSend c q) then s1.push (.spliceCloseSend c q) else s1

/-- What a gate's rejection of a splice packet names: the core's next bundle, and the peer (R447). -/
def State.splReject (s : State) (c dest : Nat) : Reject := { tk := none, code := 0x0E, detail := 0, pc := (s.core c).pc, slot := 7, addr := w64 dest }

/-- A message to a peer (R228). -/
def State.splSend (s : State) (c : Nat) (dest : Nat) (e : Ev) : State := s.routeGated c dest 3 1 (s.splReject c dest) e
/-- A refusal of an acceptance, or to an open peer. -/
def State.refuse (s : State) (c q pcore pq : Nat) : State :=
  s.splSend c pcore (.spliceCloseArrival { core := pcore, q := pq, pcore := c, pq := q, ty := 0, n := 0, refuse := true })

/-- SPLICE_ACCEPTANCE_ARRIVAL (R221); at a receiving end it is refused (log 102). -/
def execSpliceAcceptanceArrival (m : SplMsg) (s : State) : Res :=
  let k := s.core m.core
  let r := k.splice m.q
  let match_ := r.pcore == m.pcore && r.pq == m.pq && (k.queue m.q).ty == m.ty
  let no (s : State) : State := s.refuse m.core m.q m.pcore m.pq
  match r.st with
  | .local_ => if r.acc.isNone then .next (s.setCore m.core (k.setSplice m.q { r with acc := some (m.pcore, m.pq, m.ty, m.n) })) else .next (no s)
  | .pending =>
    if match_ then .next ((s.setCore m.core (k.setSplice m.q { r with st := .open_, cred := m.n, got := true })).splPoke m.core m.q)
    else .next (no (s.setCore m.core (k.setSplice m.q { r with st := .failed })))
  | .closing =>
    if match_ then .next ((s.setCore m.core (k.setSplice m.q { r with cred := m.n, got := true })).splPoke m.core m.q)
    else .next (no (s.setCore m.core (({ k with dup := { k.dup with splices := k.dup.splices.map (fun (p : Nat × Splice) => if p.1 == m.q && p.2.st == .pending then (p.1, { p.2 with st := .failed }) else p) } } : Core).unspliced m.q)))
  | _ => .next (no s)

/-- SPLICE_CREDIT_ARRIVAL (R221). -/
def execSpliceCreditArrival (m : SplMsg) (s : State) : Res :=
  let k := s.core m.core
  let r := k.splice m.q
  if (r.st == .open_ || r.st == .closing) && r.pcore == m.pcore && r.pq == m.pq then
    .next ((s.setCore m.core (k.setSplice m.q { r with cred := r.cred + m.n })).splPoke m.core m.q)
  else .next s

/-- SPLICE_CLOSE_ARRIVAL (R221): a CLOSE, or a refusal, from the peer; a refusal that answers nothing changes nothing (log 102). -/
def execSpliceCloseArrival (m : SplMsg) (s : State) : Res :=
  let k := s.core m.core
  let r := k.splice m.q
  if r.pcore != m.pcore || r.pq != m.pq then .next s else
  let k0 : Core := { k with dup := { k.dup with splices := k.dup.splices.map (fun (p : Nat × Splice) =>
    if p.1 == m.q && (p.2.st == .open_ || p.2.st == .pending) && m.refuse then (p.1, { p.2 with st := .ended }) else p) } }
  match r.st with
  | .open_ => .next (s.setCore m.core (k0.setSplice m.q { r with st := .ended }))
  | .closing => if m.refuse then .next (s.setCore m.core (k0.unspliced m.q)) else .next s
  | .accepting | .ropen => .next (s.setCore m.core (k.setSplice m.q { r with st := .closed }))
  | _ => .next s

/-- SPLICE_ENTRY_SHIP (R222). -/
def execSpliceEntryShip (core q : Nat) (s : State) : Res :=
  let k := s.core core
  if !k.canShip q then .next s else
  let u := k.queue q
  let r := k.splice q
  let data := k.entBytes { seq := 0 } q u.head
  let u1 := { u.setEnt u.head {} with head := (u.head + 1) % 65536 }
  let s1 := s.setCore core ((k.setQueue q u1).setSplice q { r with cred := r.cred - 1, inflight := r.inflight + 1 })
  .next ((s1.routeGated core r.pcore 1 3 (s.splReject core r.pcore)
    (.spliceEntryDelivery { core := r.pcore, q := r.pq, pcore := core, pq := q, ty := u.ty, n := 1, refuse := false } data)).splPoke core q)

/-- Bytes written into an entry by something later in program order than every earlier withheld store (R111). -/
def Core.writeEntry (k : Core) (a : Nat) (b : Bytes) (seq : Nat) : Core :=
  { k with spad := k.spad.writeN a b,
           items := k.items.map (fun i => match i.kind with
             | .store false l bs fe v => { i with kind := .store false l (bs.filter (fun x => !(decide (a ≤ x.2.1) && decide (x.2.1 < a + b.length) && decide (x.1 < seq)))) fe v }
             | _ => i) }

/-- SPLICE_ENTRY_DELIVERY (R223): dropped where the receiving end is no more; else written at TAIL. The sender learns of it. -/
def execSpliceEntryDelivery (m : SplMsg) (data : Bytes) (s : State) : Res :=
  let k := s.core m.core
  let r := k.splice m.q
  let u := k.queue m.q
  if u.spl == 2 && r.pcore == m.pcore && r.pq == m.pq && (r.st == .ropen || r.st == .accepting || r.st == .closed) then
    let u1 := { u.setEnt u.tail { st := .present, pres := true } with tail := (u.tail + 1) % 65536 }
    let k1 := (k.writeEntry (u.addr u.tail) data k.seqNo).setQueue m.q u1
    .next (((s.setCore m.core k1).modCore m.pcore (fun p => let x := p.splice m.pq; p.setSplice m.pq { x with inflight := x.inflight - 1 })).splPoke m.pcore m.pq)
  else .next s

/-- SPLICE_CLOSE_SEND (R220, R221): the end closes and is local again. -/
def execSpliceCloseSend (core q : Nat) (s : State) : Res :=
  let k := s.core core
  if !k.canClose q then .next s else
  let r := k.splice q
  .next ((s.setCore core (k.unspliced q)).splSend core r.pcore (.spliceCloseArrival { core := r.pcore, q := r.pq, pcore := core, pq := q, ty := 0, n := 0, refuse := false }))

/-- Entries of the receiving ends that pops have passed and readers have read become FREE; one credit each (R223, R220). -/
def State.freePassed (s : State) (c : Nat) : State :=
  (List.range 8).foldl (fun s q =>
    let k := s.core c
    let u := k.queue q
    let done := u.ents.l.filter u.freeable
    if done.isEmpty then s else
    let u1 := { u with ents := ⟨u.ents.l.map (fun e => if u.freeable e then (e.1, {}) else e)⟩ }
    let s1 := s.setCore c (k.setQueue q u1)
    let r := k.splice q
    if u.spl == 2 then s1.splSend c r.pcore (.spliceCreditArrival { core := r.pcore, q := r.pq, pcore := c, pq := q, ty := 0, n := done.length, refuse := false })
    else s1) s

/-- Sending ends looked at again after a checkpoint (R222). -/
def State.pokeSplices (s : State) (c : Nat) : State := (List.range 8).foldl (fun s q => s.splPoke c q) s

/-- Is a queue as QSPLICE and QACCEPT need it (R219)? -/
def Queue.fresh (u : Queue) : Bool := u.en && u.spl == 0 && u.ents.l.all (fun e => e.2.st == .free)

/-- The peer a splice op names, checked (R218): a fault, or core and queue. -/
def State.peerOf (s : State) (c : Nat) (v : W64) : Except (Nat × Nat × W64) (Nat × Nat) :=
  let p := 32 * bitsAt v.toNat 8 2 + bitsAt v.toNat 3 5
  if bitsAt v.toNat 10 54 != 0 || p == c then .error (0x04, 0, 0)
  else if s.partOf p != s.partOf c then .error (0x0E, 0, v)
  else .ok (p, bitsAt v.toNat 0 3)

/-- QSPLICE (R218, R219, R221). -/
def execQsplice (a : BitVec 6) (q : BitVec 3) (s : State) : Res :=
  s.reg (.qsplice a q) true a.toNat (fun v =>
    let c := s.cur.core
    let k := s.core c
    let u := k.queue q.toNat
    if !u.fresh then .next (s.raise 0x14 3 0) else
    match s.peerOf c v with
    | .error (code, d, t) => .next (s.raise code d t)
    | .ok (p, pq) =>
      let k1 := (k.saveSplice s.cur.op q.toNat).setQueue q.toNat { u with spl := 1 }
      let r : Splice := match (k.splice q.toNat).acc with
        | none => { st := .pending, pcore := p, pq := pq }
        | some (ac, aq, ty, n) => if ac == p && aq == pq && ty == u.ty then { st := .open_, pcore := p, pq := pq, cred := n, got := true } else { st := .failed, pcore := p, pq := pq }
      .next (s.setCore c ((k1.setSplice q.toNat r).recapture s.cur.op)))

/-- QACCEPT (R218, R219). -/
def execQaccept (a : BitVec 6) (q : BitVec 3) (s : State) : Res :=
  s.reg (.qaccept a q) true a.toNat (fun v =>
    let c := s.cur.core
    let k := s.core c
    let u := k.queue q.toNat
    if !u.fresh then .next (s.raise 0x14 3 0) else
    match s.peerOf c v with
    | .error (code, d, t) => .next (s.raise code d t)
    | .ok (p, pq) =>
      let k1 := ((k.saveSplice s.cur.op q.toNat).setQueue q.toNat { u with spl := 2, tail := u.head }).setSplice q.toNat { st := .accepting, pcore := p, pq := pq, acc := (k.splice q.toNat).acc }
      (s.setCore c (k1.recapture s.cur.op)).actItem (.qaccept a q) false (.accept { core := p, q := pq, pcore := c, pq := q.toNat, ty := u.ty, n := u.cap, refuse := false }))

/-- A receiving end made local (R220): what was delivered stays; an entry that a pop has passed is DRAINING for the readers it has left, or FREE at
the next checkpoint. -/
def Queue.local_ (u : Queue) : Queue :=
  { u with spl := 0, rd := [], ents := ⟨u.ents.l.map (fun e =>
      let i := u.deliveredAt e.1
      let n := u.rd.count i
      (e.1, if !e.2.pres then {} else if u.passedIdx i then { st := .draining, pres := true, readers := n, passed := n == 0 } else { st := .present, pres := true, readers := n }))⟩ }

/-- QUNSPLICE (R220). -/
def execQunsplice (q : BitVec 3) (s : State) : Res :=
  let c := s.cur.core
  let k := s.core c
  let u := k.queue q.toNat
  let r := k.splice q.toNat
  if u.spl == 0 then .next (s.raise 0x14 8 0)
  else if u.spl == 2 then
    if r.st == .closed then .next (s.setCore c ((((k.saveSplice s.cur.op q.toNat).setQueue q.toNat u.local_).setSplice q.toNat { acc := r.acc }).recapture s.cur.op))
    else .next (s.requeue (.qunsplice q))
  else if r.st == .pending || r.st == .open_ then
    .next (s.setCore c ((k.saveSplice s.cur.op q.toNat).setSplice q.toNat { r with st := .closing, unspliced := if s.cur.op.seq == 0 then k.ival else s.cur.op.ival }))
  else if r.st == .closing then .next s
  else if u.ents.l.any (fun e => e.2.st == .reserved) then .next (s.requeue (.qunsplice q))
  else .next (s.setCore c (((k.saveSplice s.cur.op q.toNat).unspliced q.toNat).recapture s.cur.op))

end Sys2Proof.Machine
end

