-- ==== Sys2Proof/Machine/Housekeep.lean ====
section
/-! DEFINITION. Queue configuration and inspection (04 R123 to R127), layout registers (12 R301, R302), the range table (12 R331 to R334). -/
namespace Sys2Proof.Machine

/-! ## Queues -/

/-- The TYPE, LOGC, BASE and overlap checks of QCFG (R123, R127): code and detail. -/
def Core.descCheck (k : Core) (q : Nat) (v : W64) : Option (Nat × Nat) :=
  let n := v.toNat
  let lg := bitsAt n 21 4
  let base := bitsAt n 0 14
  if lg < 1 || 12 < lg then some (0x04, 0)
  else if k.limLogc q < lg then some (0x07, 3)
  else if 13 ≤ bitsAt n 28 4 then some (0x04, 0)
  else if 16380 < base + 2 ^ lg then some (0x04, 0)
  else if (List.range 8).any (fun j => j != q && (k.queue j).en && decide (base < (k.queue j).base + (k.queue j).cap) && decide ((k.queue j).base < base + 2 ^ lg)) then some (0x04, 0)
  else none

/-- A descriptor taken apart (R16). -/
def descOf (v : W64) : Queue :=
  { tail := bitsAt v.toNat 48 16, head := bitsAt v.toNat 32 16, ty := bitsAt v.toNat 28 4, spl := bitsAt v.toNat 26 2, en := v.getLsbD 25,
    logc := bitsAt v.toNat 21 4, base := bitsAt v.toNat 0 14 }

/-- Has a queue an entry still to be filled or read (R123)? -/
def Queue.inUse (u : Queue) : Bool := u.ents.l.any (fun e => e.2.st == .reserved || e.2.st == .draining)

/-- A queue configured anew: named so for R380. -/
def Core.reconfig (k : Core) (q : Nat) (u : Queue) : Core :=
  { k.setQueue q u with dup := { k.dup with recon := if k.dup.recon.contains q then k.dup.recon else q :: k.dup.recon } }

/-- QCFG (R123). -/
def execQcfg (a : BitVec 6) (q : BitVec 3) (s : State) : Res :=
  s.coreOp (.qcfg a q) (fun p k => (k.readReg p true a.toNat).bind (fun v =>
    if bitsAt v.toNat 32 32 != 0 || bitsAt v.toNat 26 2 != 0 || bitsAt v.toNat 14 7 != 0 || (!v.getLsbD 25 && bitsAt v.toNat 0 32 != 0) then .trap 0x04 0 0
    else match if v.getLsbD 25 then k.descCheck q.toNat v else none with
      | some (c, d) => .trap c d 0
      | none =>
        if (k.queue q.toNat).spl != 0 then .trap 0x14 4 0
        else if (k.queue q.toNat).inUse then .wait
        else .done ((k.reconfig q.toNat (descOf v)).recapture p) []))

/-- QRESET (R124). -/
def execQreset (q : BitVec 3) (s : State) : Res :=
  s.coreOp (.qreset q) (fun p k =>
    let u := k.queue q.toNat
    if !u.en then .trap 0x04 0 0
    else if u.spl != 0 then .trap 0x14 4 0
    else if u.inUse then .wait
    else .done ((k.reconfig q.toNat { u with head := 0, tail := 0, ents := ⟨[]⟩ }).recapture p) [])

/-- QOCC's value (R125, R224). -/
def Queue.occVal (u : Queue) : W64 :=
  let n := if u.spl == 2 then u.cap else u.count
  w64 (((List.range n).filter (fun j => u.isPres (u.head + j))).length * 2 ^ 16 + n)

/-- The value that an op's issue took for it, or what holds now. -/
def SlipOp.taken (p : SlipOp) (now : W64) : W64 :=
  match Tab.findL p.caps 64 with
  | some (.val v) => v
  | _ => now

/-- QOCC (R125). -/
def execQocc (d : BitVec 6) (q : BitVec 3) (s : State) : Res :=
  s.coreOp (.qocc d q) (fun p k => if !k.qOn q then .trap 0x04 0 0 else k.put p (.reg d.toNat) (p.taken (k.queue q.toNat).occVal))

/-- QRD (R126). -/
def execQrd (d : BitVec 6) (q : BitVec 3) (s : State) : Res :=
  s.coreOp (.qrd d q) (fun p k => k.put p (.reg d.toNat) (p.taken (k.queue q.toNat).desc))

/-- The entries of a descriptor that QWR writes (R127). -/
def presentRun (u : Queue) : Nat → Queue
  | 0 => u
  | n + 1 => let v := presentRun u n; v.setEnt (u.head + n) { st := .present, pres := true }

/-- QWR (R127). -/
def execQwr (a : BitVec 6) (q : BitVec 3) (s : State) : Res :=
  s.coreOp (.qwr a q) (fun p k => (k.readReg p true a.toNat).bind (fun v =>
    if !k.qOn q || !v.getLsbD 25 || bitsAt v.toNat 26 2 != 0 || bitsAt v.toNat 14 7 != 0 then .trap 0x04 0 0
    else match k.descCheck q.toNat v with
      | some (c, d) => .trap c d 0
      | none =>
        let u := descOf v
        if u.cap < u.count then .trap 0x04 0 0
        else if (k.queue q.toNat).spl != 0 then .trap 0x14 4 0
        else if (k.queue q.toNat).inUse then .wait
        else .done ((k.reconfig q.toNat (presentRun u u.count)).recapture p) []))

/-! ## Layout registers -/

/-- Place and width of a layout field by its index (R301). -/
def layField (f : Nat) : Nat × Nat :=
  match f with
  | 0 => (0, 64)
  | 1 => (64, 4)
  | 2 => (68, 3)
  | 3 => (71, 1)
  | 4 => (72, 4)
  | 5 => (76, 4)
  | 6 => (80, 32)
  | _ => let d := (f - 8) / 3
    if (f - 8) % 3 == 0 then (128 + 104 * d, 32) else if (f - 8) % 3 == 1 then (160 + 104 * d, 48) else (208 + 104 * d, 16)

/-- A run of bits of a record replaced. -/
def setBits (r : Lay) (lo n v : Nat) : Lay := BitVec.ofNat 768 (r.toNat - bitsAt r.toNat lo n * 2 ^ lo + v % 2 ^ n * 2 ^ lo)

/-- Is a value one that LSET takes for a field (R301)? -/
def layValOk (f : Nat) (v : W64) : Bool :=
  if f == 0 || f == 6 then true
  else if 8 ≤ f && (f - 8) % 3 == 1 then v == (v.extractLsb' 0 48).signExtend 64
  else decide (v.toNat < 2 ^ (layField f).2)

/-- LSET (R301). -/
def execLset (a : BitVec 6) (l : BitVec 3) (f : BitVec 5) (s : State) : Res :=
  s.coreOp (.lset a l f) (fun p k => (k.readReg p true a.toNat).bind (fun v =>
    if !layValOk f.toNat v then .trap 0x04 0 0
    else .done { k with lays := k.lays.set l.toNat (setBits (k.lays.get l.toNat 0) (layField f.toNat).1 (layField f.toNat).2 v.toNat) } []))

/-- LGET (R301). -/
def execLget (d : BitVec 6) (l : BitVec 3) (f : BitVec 5) (s : State) : Res :=
  s.coreOp (.lget d l f) (fun p k =>
    let v := bitsAt (k.lays.get l.toNat 0).toNat (layField f.toNat).1 (layField f.toNat).2
    k.put p (.reg d.toNat) (if 8 ≤ f.toNat && (f.toNat - 8) % 3 == 1 then BitVec.ofInt 64 (sInt 48 v) else w64 v))

/-- LDLAY (R302). -/
def execLdlay (a : BitVec 6) (l : BitVec 3) (s : State) : Res :=
  s.reg (.ldlay a l) true a.toNat (fun ea => s.spadAt (.ldlay a l) ea 96 32 true (fun x =>
    .next (s.modCore s.cur.core (fun k => { k with lays := k.lays.set l.toNat (BitVec.ofNat 768 (leNat (k.spadRead s.cur.op x 96))) }))))

/-- STLAY (R302). -/
def execStlay (a : BitVec 6) (l : BitVec 3) (s : State) : Res :=
  s.reg (.stlay a l) true a.toNat (fun ea => s.spadAt (.stlay a l) ea 96 32 false (fun x =>
    s.actStore false (cellsAt x (leBytes 96 ((s.core s.cur.core).lays.get l.toNat 0).toNat)) [] [] ea))

/-! ## The range table -/

/-- RTSET (R331). -/
def execRtset (a : BitVec 6) (e : BitVec 5) (s : State) : Res :=
  s.coreOp (.rtset a e) (fun p k => (k.readReg p true a.toNat).bind (fun v =>
    let st := bitsAt v.toNat 0 23
    let ln := bitsAt v.toNat 23 23
    if st % 256 != 0 || ln % 256 != 0 || ln < 256 || bitsAt v.toNat 47 17 != 0 then .trap 0x04 0 0
    else if k.limSpad < st + ln then .trap 0x07 4 (w64 st)
    else .done { k with rts := k.rts.set e.toNat { valid := true, start := st, len := ln, mode := v.getLsbD 46, bytes := [] } } []))

/-- RTCLR (R331). -/
def execRtclr (e : BitVec 5) (s : State) : Res :=
  s.coreOp (.rtclr e) (fun _ k => .done { k with rts := k.rts.set e.toNat { k.rts.get e.toNat {} with valid := false } } [])

/-- RTWM (R334). -/
def execRtwm (d : BitVec 6) (e : BitVec 5) (s : State) : Res :=
  s.coreOp (.rtwm d e) (fun p k =>
    let x := k.rts.get e.toNat {}
    k.put p (.reg d.toNat) (w64 ((if x.valid then 2 ^ 26 else 0) + (if x.mode then 2 ^ 25 else 0) + (if x.valid && x.ready then 2 ^ 24 else 0) +
      (if x.valid then x.filled else 0))))

end Sys2Proof.Machine
end

