-- ==== Sys2Proof/Machine/Vector.lean ====
section
/-! DEFINITION. The vector slots (05). -/
namespace Sys2Proof.Machine

/-! ## Elements of an entry (R38, R133) -/

/-- n numbers of w bytes each. -/
def chunks (w : Nat) : Nat → Bytes → List Nat
  | 0, _ => []
  | n + 1, b => leNat (b.take w) :: chunks w n (b.drop w)
/-- The elements of an entry of a type. -/
def elems (t : Nat) (b : Bytes) : List Nat := chunks (tyWidth t / 8) (2048 / tyWidth t) b
/-- Elements per entry (R36). -/
def elemCount (t : Nat) : Nat := 2048 / tyWidth t

/-- Is element i of width w enabled by a mask (R133)? -/
def laneOn (m : W64) (w i : Nat) : Bool := m.getLsbD (i * w / 32)

/-- An entry and its flags from computed elements; disabled elements are zero and set no flag (R134). -/
def maskEntry (m : W64) (w : Nat) : Nat → List (Nat × Flags) → Bytes × Flags
  | _, [] => ([], 0)
  | i, (v, f) :: r =>
    let q := maskEntry m w (i + 1) r
    if laneOn m w i then (leBytes (w / 8) v ++ q.1, f ||| q.2) else (leBytes (w / 8) 0 ++ q.1, q.2)

/-- A result on its way into an entry that the op reserved (R20, R138). -/
def Core.arrives (k : Core) (c : Nat) (p : SlipOp) (q j : Nat) (b : Bytes × Flags) : Ev :=
  .queueEntryArrival { core := c, q := q, idx := (k.resvIdx p q + j) % 65536, data := some b.1, flags := b.2, seq := p.place k }

/-- One source entry. -/
def Core.ent1 (k : Core) (p : SlipOp) (sp : QSpec) : Src Bytes :=
  match k.readEnts p sp 1 with
  | .val (b :: _) => .val b
  | .val [] => .wait
  | .wait => .wait
  | .fault c d => .fault c d

/-- A vector op: its type rules (R137), then what it does. -/
def State.vecOp (s : State) (i : Instr) (f : SlipOp → Core → OpRes) : Res :=
  s.coreOp i (fun p k => if !(shapeOf k {} i).tyOk then .trap 0x04 0 0 else f p k)

/-- Elementwise on two sources, each looked at once the one before it is there (R26, log 106). -/
def State.vec2 (s : State) (i : Instr) (o : VT) (f : Core → Nat → Nat → Nat → Nat → Nat → Nat × Flags) : Res :=
  s.vecOp i (fun p k => (k.ent1 p o.a).bind (fun a => (k.ent1 p o.b).bind (fun b =>
    let ta := k.qTy o.a.q
    let tb := k.qTy o.b.q
    let td := k.qTy o.q
    let r := List.zipWith (fun x y => f k td ta tb x y) (elems ta a) (elems tb b)
    .done k [k.arrives s.cur.core p o.q.toNat 0 (maskEntry (k.guardMask p o.g.toNat) (tyWidth td) 0 r)])))

/-- Elementwise on one source. -/
def State.vec1 (s : State) (i : Instr) (o : VU) (f : Nat → Nat → Nat → Nat × Flags) : Res :=
  s.vecOp i (fun p k => (k.ent1 p o.a).bind (fun a =>
    let ta := k.qTy o.a.q
    let td := k.qTy o.q
    .done k [k.arrives s.cur.core p o.q.toNat 0 (maskEntry (k.guardMask p o.g.toNat) (tyWidth td) 0 ((elems ta a).map (f td ta)))]))

/-- A floating-point result rounded to the destination's type (R48). -/
def fres (td : Nat) (r : FV × Flags) : Nat × Flags := let q := (fmtOf td).enc false r.1; (q.1, q.2 ||| r.2)

/-- A float op on two sources (R142). -/
def State.vecF (s : State) (i : Instr) (o : VT) (f : FV → FV → FV × Flags) : Res :=
  s.vec2 i o (fun _ td ta tb x y => fres td (f ((fmtOf ta).dec x) ((fmtOf tb).dec y)))

/-- VADD (R142). -/
def execVadd (o : VT) (s : State) : Res := s.vecF (.vadd o) o FV.add
/-- VSUB (R142). -/
def execVsub (o : VT) (s : State) : Res := s.vecF (.vsub o) o (fun a b => a.add b.neg)
/-- VMUL (R142). -/
def execVmul (o : VT) (s : State) : Res := s.vecF (.vmul o) o FV.mul
/-- VMIN (R142). -/
def execVmin (o : VT) (s : State) : Res := s.vecF (.vmin o) o (fun a b => (FV.minmax false a b, 0))
/-- VMAX (R142). -/
def execVmax (o : VT) (s : State) : Res := s.vecF (.vmax o) o (fun a b => (FV.minmax true a b, 0))

/-- A fused multiply-add: the product and the sum exact, one rounding (R143). -/
def fma (sub : Bool) (a b c : FV) : FV × Flags :=
  let m := a.mul b
  let r := m.1.add (if sub then c.neg else c)
  (r.1, m.2 ||| r.2)

def State.vecFma (s : State) (i : Instr) (o : VT) (c : QSpec) (sub : Bool) : Res :=
  s.vecOp i (fun p k => (k.ent1 p o.a).bind (fun a => (k.ent1 p o.b).bind (fun b => (k.ent1 p c).bind (fun z =>
    let dec (q : BitVec 3) (e : Bytes) : List FV := (elems (k.qTy q) e).map (fmtOf (k.qTy q)).dec
    let r := List.zipWith (fun (xy : FV × FV) w => fres (k.qTy o.q) (fma sub xy.1 xy.2 w)) ((dec o.a.q a).zip (dec o.b.q b)) (dec c.q z)
    .done k [k.arrives s.cur.core p o.q.toNat 0 (maskEntry (k.guardMask p o.g.toNat) (tyWidth (k.qTy o.q)) 0 r)]))))

/-- VFMA (R143). -/
def execVfma (o : VT) (c : QSpec) (s : State) : Res := s.vecFma (.vfma o c) o c false
/-- VFMS (R143). -/
def execVfms (o : VT) (c : QSpec) (s : State) : Res := s.vecFma (.vfms o c) o c true

/-- VABS (R144). -/
def execVabs (o : VU) (s : State) : Res := s.vec1 (.vabs o) o (fun td ta x => fres td (((fmtOf ta).dec x).abs, 0))
/-- VNEG (R144). -/
def execVneg (o : VU) (s : State) : Res := s.vec1 (.vneg o) o (fun td ta x => fres td (((fmtOf ta).dec x).neg, 0))

/-- VRCP (R145, R146). -/
def execVrcp (o : VU) (s : State) : Res := s.vec1 (.vrcp o) o (fun td ta x => approxElem 0x0A td ((fmtOf ta).dec x))
/-- VRSQ (R145, R146). -/
def execVrsq (o : VU) (s : State) : Res := s.vec1 (.vrsq o) o (fun td ta x => approxElem 0x0B td ((fmtOf ta).dec x))
/-- VEXP2 (R145, R146). -/
def execVexp2 (o : VU) (s : State) : Res := s.vec1 (.vexp2 o) o (fun td ta x => approxElem 0x0C td ((fmtOf ta).dec x))
/-- VLOG2 (R145, R146). -/
def execVlog2 (o : VU) (s : State) : Res := s.vec1 (.vlog2 o) o (fun td ta x => approxElem 0x0D td ((fmtOf ta).dec x))
/-- VSIG (R145, R146). -/
def execVsig (o : VU) (s : State) : Res := s.vec1 (.vsig o) o (fun td ta x => approxElem 0x0E td ((fmtOf ta).dec x))
/-- VTANH (R145, R146). -/
def execVtanh (o : VU) (s : State) : Res := s.vec1 (.vtanh o) o (fun td ta x => approxElem 0x0F td ((fmtOf ta).dec x))

/-! ## Integers and bits (R147, R148) -/

/-- An integer read by its type's signedness (R137). -/
def intOf (t x : Nat) : Int := if t == 1 then (x : Int) else sInt (tyWidth t) x

/-- An integer op on two sources; w is the width. -/
def State.vecI (s : State) (i : Instr) (o : VT) (f : Nat → Nat → Nat → Nat → Nat → Nat) : Res :=
  s.vec2 i o (fun _ td ta tb x y => (f td ta tb x y % 2 ^ tyWidth td, 0))

/-- VIADD (R147). -/
def execViadd (o : VT) (s : State) : Res := s.vecI (.viadd o) o (fun _ _ _ x y => x + y)
/-- VISUB (R147). -/
def execVisub (o : VT) (s : State) : Res := s.vecI (.visub o) o (fun td _ _ x y => x + 2 ^ tyWidth td - y)
/-- VIMUL (R147). -/
def execVimul (o : VT) (s : State) : Res := s.vecI (.vimul o) o (fun _ _ _ x y => x * y)
/-- VIMIN (R147). -/
def execVimin (o : VT) (s : State) : Res := s.vecI (.vimin o) o (fun _ ta tb x y => if intOf tb y < intOf ta x then y else x)
/-- VIMAX (R147). -/
def execVimax (o : VT) (s : State) : Res := s.vecI (.vimax o) o (fun _ ta tb x y => if intOf ta x < intOf tb y then y else x)
/-- VAND (R147). -/
def execVand (o : VT) (s : State) : Res := s.vecI (.vand o) o (fun _ _ _ x y => x &&& y)
/-- VOR (R147). -/
def execVor (o : VT) (s : State) : Res := s.vecI (.vor o) o (fun _ _ _ x y => x ||| y)
/-- VXOR (R147). -/
def execVxor (o : VT) (s : State) : Res := s.vecI (.vxor o) o (fun _ _ _ x y => x ^^^ y)
/-- VSHL (R147). -/
def execVshl (o : VT) (s : State) : Res := s.vecI (.vshl o) o (fun td _ _ x y => x * 2 ^ (y % tyWidth td))
/-- VSHR (R147). -/
def execVshr (o : VT) (s : State) : Res := s.vecI (.vshr o) o (fun td _ _ x y => x / 2 ^ (y % tyWidth td))
/-- VSAR (R147). -/
def execVsar (o : VT) (s : State) : Res :=
  s.vecI (.vsar o) o (fun td _ _ x y => wrapN (tyWidth td) (sInt (tyWidth td) x / 2 ^ (y % tyWidth td)))
/-- VIADDS (R147). -/
def execViadds (o : VT) (s : State) : Res :=
  s.vecI (.viadds o) o (fun td ta tb x y => wrapN (tyWidth td) (satInt (tyWidth td) (td == 1) (intOf ta x + intOf tb y)))

/-- VSEL (R148): every element is written; the mask selects. -/
def execVsel (o : VT) (s : State) : Res :=
  s.vecOp (.vsel o) (fun p k => (k.ent1 p o.a).bind (fun a => (k.ent1 p o.b).bind (fun b =>
    let w := tyWidth (k.qTy o.q)
    let m := k.guardMask p o.g.toNat
    let r := List.zipWith (fun (ix : Nat × Nat) y => (if laneOn m w ix.1 then ix.2 else y, (0 : Flags))) ((List.range (2048 / w)).zip (elems (k.qTy o.a.q) a)) (elems (k.qTy o.b.q) b)
    .done k [k.arrives s.cur.core p o.q.toNat 0 (maskEntry (BitVec.allOnes 64) w 0 r)])))

/-! ## Compares (R149) -/

/-- One test: its outcome and flags. -/
def vcmp (kind ta tb x y : Nat) : Bool × Flags :=
  if tyFloat ta then
    let a := (fmtOf ta).dec x
    let b := (fmtOf tb).dec y
    let nan := a.isNan || b.isNan
    let lt := FV.lt false a b
    let gt := FV.lt false b a
    if nan then (false, if kind == 0 then 0 else flNV)
    else (if kind == 0 then !lt && !gt else if kind == 1 then lt else !gt, 0)
  else
    let a := intOf ta x
    let b := intOf tb y
    (if kind == 0 then a == b else if kind == 1 then decide (a < b) else decide (a ≤ b), 0)

/-- The lanes whose elements all pass; an INT64 element decides both its lanes. -/
def cmpMask (w : Nat) (ts : List Bool) : W64 :=
  w64 ((List.range 64).foldl (fun a j =>
    let ok := if w == 64 then ts.getD (j / 2) false else ((List.range (32 / w)).all (fun i => ts.getD (j * (32 / w) + i) false))
    if ok then a + 2 ^ j else a) 0)

def State.vecCmp (s : State) (i : Instr) (kind : Nat) (d : BitVec 5) (qa qb : QSpec) : Res :=
  s.vecOp i (fun p k => (k.ent1 p qa).bind (fun a => (k.ent1 p qb).bind (fun b =>
    let ta := k.qTy qa.q
    let tb := k.qTy qb.q
    let r := List.zipWith (fun x y => vcmp kind ta tb x y) (elems ta a) (elems tb b)
    (k.orFlags p.ival (r.foldl (fun f x => f ||| x.2) 0)).put p (.pred d.toNat) (cmpMask (tyWidth ta) (r.map (·.1))))))

/-- VCMPEQ (R149). -/
def execVcmpeq (p : BitVec 5) (a b : QSpec) (s : State) : Res := s.vecCmp (.vcmpeq p a b) 0 p a b
/-- VCMPLT (R149). -/
def execVcmplt (p : BitVec 5) (a b : QSpec) (s : State) : Res := s.vecCmp (.vcmplt p a b) 1 p a b
/-- VCMPLE (R149). -/
def execVcmple (p : BitVec 5) (a b : QSpec) (s : State) : Res := s.vecCmp (.vcmple p a b) 2 p a b

/-! ## Conversions (R150, R151) -/

/-- One element converted: between integers by saturation without flags (a widened value too, where UDST reads it unsigned: R150), else
under R47; between identical readings the bits, a NaN that is not canonical too (log 97). -/
def conv1 (tz : Bool) (ts td : Nat) (usrc udst : Bool) (x : Nat) : Nat × Flags :=
  let us := usrc || ts == 1
  let ud := udst || td == 1
  if ts == td && us == ud then (x, 0)
  else if tyInt ts && tyInt td then
    let v : Int := if us then (x : Int) else sInt (tyWidth ts) x
    (wrapN (tyWidth td) (satInt (tyWidth td) ud v), 0)
  else elemEnc td udst tz (elemVal ts usrc x)

def State.vecConv (s : State) (i : Instr) (o : VC) (tz : Bool) : Res :=
  s.vecOp i (fun p k => (k.ent1 p o.a).bind (fun a =>
    let ts := k.qTy o.a.q
    let td := k.qTy o.q
    .done k [k.arrives s.cur.core p o.q.toNat 0 (maskEntry (k.guardMask p o.g.toNat) (tyWidth td) 0 ((elems ts a).map (conv1 tz ts td o.usrc o.udst)))]))

/-- VMOV (R150, R151). -/
def execVmov (o : VC) (s : State) : Res := s.vecConv (.vmov o) o false
/-- VCVTZ (R150, R151). -/
def execVcvtz (o : VC) (s : State) : Res := s.vecConv (.vcvtz o) o true

/-- VPACK (R151): r consecutive entries into one. -/
def execVpack (o : VC) (s : State) : Res :=
  s.vecOp (.vpack o) (fun p k =>
    let ts := k.qTy o.a.q
    let td := k.qTy o.q
    (k.readEnts p o.a (tyWidth ts / tyWidth td)).bind (fun es =>
      let r := (es.flatMap (elems ts)).map (conv1 false ts td o.usrc o.udst)
      .done k [k.arrives s.cur.core p o.q.toNat 0 (maskEntry (k.guardMask p o.g.toNat) (tyWidth td) 0 r)]))

/-- VUNPK (R151): one entry into r consecutive ones, the mask on each. -/
def execVunpk (o : VC) (s : State) : Res :=
  s.vecOp (.vunpk o) (fun p k => (k.ent1 p o.a).bind (fun a =>
    let ts := k.qTy o.a.q
    let td := k.qTy o.q
    let nd := elemCount td
    let all := (elems ts a).map (conv1 false ts td o.usrc o.udst)
    .done k ((List.range (tyWidth td / tyWidth ts)).map (fun j =>
      k.arrives s.cur.core p o.q.toNat j (maskEntry (k.guardMask p o.g.toNat) (tyWidth td) 0 ((all.drop (j * nd)).take nd))))))

/-! ## Broadcast, iota, shuffle, rotate (R152 to R155) -/

/-- An entry whose elements come from a function of their index. -/
def Core.fillEnt (k : Core) (c : Nat) (p : SlipOp) (q : BitVec 3) (g : BitVec 5) (f : Nat → Nat) : OpRes :=
  let td := k.qTy q
  .done k [k.arrives c p q.toNat 0 (maskEntry (k.guardMask p g.toNat) (tyWidth td) 0 ((List.range (elemCount td)).map (fun i => (f i % 2 ^ tyWidth td, 0))))]

/-- VBCAST (R152). -/
def execVbcast (o : VN) (s : State) : Res :=
  s.vecOp (.vbcast o) (fun p k => (k.readReg p o.bs o.s.toNat).bind (fun v => k.fillEnt s.cur.core p o.q o.g (fun _ => v.toNat)))
/-- VIOTA (R153). -/
def execViota (o : VN) (s : State) : Res :=
  s.vecOp (.viota o) (fun p k => (k.readReg p o.bs o.s.toNat).bind (fun v => k.fillEnt s.cur.core p o.q o.g (fun i => v.toNat + i)))
/-- VSHUF (R154). -/
def execVshuf (o : VT) (s : State) : Res :=
  s.vecOp (.vshuf o) (fun p k => (k.ent1 p o.a).bind (fun a => (k.ent1 p o.b).bind (fun b =>
    let td := k.qTy o.q
    let xs := elems (k.qTy o.a.q) a
    let r := (elems (k.qTy o.b.q) b).map (fun ix => (xs.getD (ix % elemCount td) 0, (0 : Flags)))
    .done k [k.arrives s.cur.core p o.q.toNat 0 (maskEntry (k.guardMask p o.g.toNat) (tyWidth td) 0 r)])))
/-- VROT (R155): its scalar register before its queue entry (log 99). -/
def execVrot (o : VS) (s : State) : Res :=
  s.vecOp (.vrot o) (fun p k => (k.readReg p o.bs o.s.toNat).bind (fun v => (k.ent1 p o.a).bind (fun a =>
    let xs := elems (k.qTy o.a.q) a
    k.fillEnt s.cur.core p o.q o.g (fun i => xs.getD ((i + v.toNat) % xs.length) 0))))

/-! ## Reductions (R156) -/

/-- One level of the tree: neighbours combined, an absent one passed over. -/
def redLevel {α : Type} (f : α → α → α × Flags) : List (Option α) → List (Option α) × Flags
  | x :: y :: r =>
    let q := redLevel f r
    match x, y with
    | none, y => (y :: q.1, q.2)
    | some a, none => (some a :: q.1, q.2)
    | some a, some b => let z := f a b; (some z.1 :: q.1, z.2 ||| q.2)
  | l => (l, 0)

/-- The whole tree. -/
def redTree {α : Type} (f : α → α → α × Flags) : Nat → List (Option α) → Flags → Option α × Flags
  | 0, l, fl => ((l.head?).bind id, fl)
  | n + 1, l, fl => let r := redLevel f l; redTree f n r.1 (fl ||| r.2)

/-- comb for floats: VRSUM rounds to FP32 at each node; kind 0 sum, 1 max, 2 min. -/
def redF (kind : Nat) (a b : FV) : FV × Flags :=
  if kind == 0 then let q := a.add b; let r := fp32.enc false q.1; (fp32.dec r.1, q.2 ||| r.2) else (FV.minmax (kind == 1) a b, 0)
/-- comb for integers of a type. -/
def redI (kind t : Nat) (a b : Nat) : Nat × Flags :=
  (if kind == 0 then (a + b) % 2 ^ tyWidth t
   else if kind == 1 then (if intOf t a < intOf t b then b else a) else if intOf t b < intOf t a then b else a, 0)

def State.vecRed (s : State) (i : Instr) (kind : Nat) (o : VU) : Res :=
  s.vecOp i (fun p k => (k.ent1 p o.a).bind (fun a =>
    let ta := k.qTy o.a.q
    let td := k.qTy o.q
    let m := k.guardMask p o.g.toNat
    let xs := (List.range (elemCount ta)).zip (elems ta a)
    let n := Nat.log2 (elemCount ta)
    let leaf {α : Type} (f : Nat → α) : List (Option α) := xs.map (fun x => if laneOn m (tyWidth ta) x.1 then some (f x.2) else none)
    let r : Nat × Flags :=
      if tyFloat ta then
        match redTree (redF kind) n (leaf (fmtOf ta).dec) 0 with
        | (some v, f) => let q := (fmtOf td).enc false v; (q.1, q.2 ||| f)
        | (none, f) => (0, f)
      else ((redTree (redI kind ta) n (leaf id) 0).1.getD 0, 0)
    .done k [k.arrives s.cur.core p o.q.toNat 0 (maskEntry (BitVec.allOnes 64) (tyWidth td) 0 (r :: List.replicate (elemCount td - 1) (0, 0)))]))

/-- VRSUM (R156). -/
def execVrsum (o : VU) (s : State) : Res := s.vecRed (.vrsum o) 0 o
/-- VRMAX (R156). -/
def execVrmax (o : VU) (s : State) : Res := s.vecRed (.vrmax o) 1 o
/-- VRMIN (R156). -/
def execVrmin (o : VU) (s : State) : Res := s.vecRed (.vrmin o) 2 o

/-! ## Scratchpad access (R157 to R159) -/

/-- The checks of VLDS and VSTS (R157). -/
def Core.vspadCheck (k : Core) (ea : W64) (w : Nat) : Option (Nat × Nat) :=
  if ea.toNat % (w / 8) != 0 then some (0x09, 0)
  else if 4194304 < ea.toNat + 256 then some (0x0A, 0)
  else if k.limSpad < ea.toNat + 256 then some (0x07, 4) else none

/-- The enabled elements of a mask. -/
def enabled (m : W64) (w : Nat) : List Nat := (List.range (2048 / w)).filter (laneOn m w)

/-- VLDS (R157). -/
def execVlds (o : VN) (s : State) : Res :=
  s.vecOp (.vlds o) (fun p k => (k.readReg p o.bs o.s.toNat).bind (fun ea =>
    let w := tyWidth (k.qTy o.q)
    let m := k.guardMask p o.g.toNat
    match k.vspadCheck ea w with
    | some (c, d) => .trap c d ea
    | none =>
      if (enabled m w).any (fun i => k.gated (ea.toNat + i * (w / 8)) (w / 8)) || k.storeWait p ea.toNat 256 || k.unfilled p.seq ea.toNat 256 then .wait
      else
        let b := k.spadRead p ea.toNat 256
        .done k [k.arrives s.cur.core p o.q.toNat 0 (maskEntry m w 0 ((chunks (w / 8) (2048 / w) b).map (fun v => (v, 0))))]))

/-- VSTS (R157, R111): its scalar register before its queue entry (log 99). -/
def execVsts (o : VW) (s : State) : Res :=
  let c := s.cur.core
  let k := s.core c
  let p := s.cur.op
  if !(shapeOf k {} (.vsts o)).tyOk then .next (s.raise 0x04 0 0) else
  s.reg (.vsts o) o.bs o.s.toNat (fun ea =>
    match k.ent1 p o.a with
    | .wait => .next (s.requeue (.vsts o))
    | .fault code d => .next (s.raise code d 0)
    | .val b =>
      let w := tyWidth (k.qTy o.a.q)
      let m := k.guardMask p o.g.toNat
      match k.vspadCheck ea w with
      | some (code, d) => .next (s.raise code d ea)
      | none =>
        let xs := elems (k.qTy o.a.q) b
        s.actStore false ((enabled m w).flatMap (fun i => cellsAt (ea.toNat + i * (w / 8)) (leBytes (w / 8) (xs.getD i 0)))) [] [] ea)

/-- The addresses of a gather or scatter by enabled lane, checked (R158): alignment, the lowest lane out of the scratchpad, the lowest out
of the declared bytes. -/
def Core.gathCheck (k : Core) (m : W64) (w : Nat) (base : W64) (ix : List Nat) : Except (Nat × Nat × W64) (List (Nat × Nat)) :=
  let as := (enabled m w).map (fun i => (i, base.toNat + ix.getD i 0 * (w / 8)))
  if base.toNat % (w / 8) != 0 then .error (0x09, 0, base)
  else match as.find? (fun a => decide (4194304 < a.2 + w / 8)) with
    | some a => .error (0x0A, 0, w64 a.2)
    | none => match as.find? (fun a => decide (k.limSpad < a.2 + w / 8)) with
      | some a => .error (0x07, 4, w64 a.2)
      | none => .ok as

/-- VGATH (R158): its scalar register before its queue entry (log 99). -/
def execVgath (o : VS) (s : State) : Res :=
  s.vecOp (.vgath o) (fun p k => (k.readReg p o.bs o.s.toNat).bind (fun base => (k.ent1 p o.a).bind (fun b =>
    let w := tyWidth (k.qTy o.q)
    let m := k.guardMask p o.g.toNat
    match k.gathCheck m w base (elems (k.qTy o.a.q) b) with
    | .error (c, d, a) => .trap c d a
    | .ok as =>
      if as.any (fun a => k.gated a.2 (w / 8) || k.storeWait p a.2 (w / 8) || k.unfilled p.seq a.2 (w / 8)) then .wait
      else
        let v (i : Nat) : Nat := match as.find? (fun a => a.1 == i) with
          | some a => leNat (k.spadRead p a.2 (w / 8))
          | none => 0
        .done k [k.arrives s.cur.core p o.q.toNat 0 (maskEntry m w 0 ((List.range (2048 / w)).map (fun i => (v i, 0))))])))

/-- VSCAT (R159): its scalar register before its queue entries (log 99). -/
def execVscat (o : VS) (s : State) : Res :=
  let c := s.cur.core
  let k := s.core c
  let p := s.cur.op
  if !(shapeOf k {} (.vscat o)).tyOk then .next (s.raise 0x04 0 0) else
  s.reg (.vscat o) o.bs o.s.toNat (fun base =>
    match k.ent1 p o.a with
    | .wait => .next (s.requeue (.vscat o))
    | .fault code d => .next (s.raise code d 0)
    | .val b =>
      match k.ent1 p { b := true, q := o.q, k := 0 } with
      | .wait => .next (s.requeue (.vscat o))
      | .fault code d => .next (s.raise code d 0)
      | .val ib =>
        let w := tyWidth (k.qTy o.a.q)
        let m := k.guardMask p o.g.toNat
        let xs := elems (k.qTy o.a.q) b
        match k.gathCheck m w base (elems (k.qTy o.q) ib) with
        | .error (code, d, a) => .next (s.raise code d a)
        | .ok as => s.actStore false (as.flatMap (fun a => cellsAt a.2 (leBytes (w / 8) (xs.getD a.1 0)))) [] [] base)

/-! ## Accumulator tiles as ops see them -/

def Core.tile (k : Core) (n : Nat) : Tile := k.acc.get n {}
def Core.setTile (k : Core) (n : Nat) (t : Tile) : Core := { k with acc := k.acc.set n t }

/-- The tiles a waiting op names: none where it names none, all where its register is not captured yet. -/
def SlipOp.tiles (p : SlipOp) : Option (List Nat) :=
  let run (c : Nat) : List Nat := if p.rep.n == 0 then [c] else (List.range p.rep.n).map (fun j => c + j * p.rep.step)
  match p.op with
  | .vracc o => (p.capVal o.s.toNat).map (fun v => [bitsAt v.toNat 6 9])
  | .vwacc o => (p.capVal o.s.toNat).map (fun v => [bitsAt v.toNat 6 9])
  | .mmul _ c _ _ | .mmac _ c _ _ => some (run c.toNat)
  | .mzero c _ => some (run c.toNat)
  | .msetx _ c _ | .mscl _ c _ => some (run c.toNat)
  | .mrdout _ c _ => some (run c.toNat)
  | .macccp m c _ => some [m.toNat, c.toNat]
  | _ => some []

/-- The tiles a running repeat has still to write or read. -/
def Core.streamTiles (k : Core) : List Nat :=
  match k.stream with
  | some st => ((List.range (st.op.rep.n - st.j)).map (fun j => (repTile st.op.op) + (st.j + j) * st.op.rep.step))
  | none => []

/-- Is a tile busy for an op (R32, R140): a matrix op is still writing it, or an earlier op that names it has not started? -/
def Core.tileBusy (k : Core) (p : SlipOp) (n : Nat) : Bool :=
  k.jobs.any (fun j => j.tile == n) || (k.stream.any (fun st => decide (st.op.seq < p.place k)) && k.streamTiles.contains n) ||
  k.slots.l.any (fun q => q.2.any (fun o => decide (o.seq < p.place k) && (match o.tiles with
    | none => true
    | some l => l.contains n)))

/-- A tile about to be written (R381, R184): its shadow copy on the first write since the checkpoint, in normal mode; none where the
shadow is full. -/
def Core.shadowTile (k : Core) (p : SlipOp) (n : Nat) : Option Core :=
  let k1 := { k with dirty := if k.dirty.contains n then k.dirty else n :: k.dirty }
  if k.handler || p.ival < k.ival || (k.shadow.find n).isSome then some k1
  else if k.limNshadow ≤ k.shadow.l.length then none
  else some { k1 with shadow := k.shadow.set n (k.tile n) }

/-! ## Accumulator stripes (R160) -/

/-- Tile, row and half that a stripe's scalar selects, or the fault. -/
def Core.stripe (k : Core) (v : W64) : Except (Nat × Nat) (Nat × Nat) :=
  if bitsAt v.toNat 15 49 != 0 then .error (0x04, 0)
  else if k.limNacc ≤ bitsAt v.toNat 6 9 then .error (0x07, 5)
  else .ok (bitsAt v.toNat 6 9, 128 * bitsAt v.toNat 1 5 + 64 * bitsAt v.toNat 0 1)

/-- VRACC (R160). -/
def execVracc (o : VN) (s : State) : Res :=
  s.vecOp (.vracc o) (fun p k => (k.readReg p o.bs o.s.toNat).bind (fun v =>
    match k.stripe v with
    | .error (c, d) => .trap c d 0
    | .ok (n, at_) =>
      if k.tileBusy p n then .wait
      else
        let t := k.tile n
        let r := (List.range 64).map (fun i => fp32.enc false (accVal (t.el.get (at_ + i) 0) t.x))
        .done k [k.arrives s.cur.core p o.q.toNat 0 (maskEntry (k.guardMask p o.g.toNat) 32 0 r)]))

/-- VWACC (R160, R62): its scalar register before its queue entry (log 99). -/
def execVwacc (o : VW) (s : State) : Res :=
  s.vecOp (.vwacc o) (fun p k => (k.readReg p o.bs o.s.toNat).bind (fun v => (k.ent1 p o.a).bind (fun b =>
    match k.stripe v with
    | .error (c, d) => .trap c d 0
    | .ok (n, at_) =>
      let m := k.guardMask p o.g.toNat
      let on := enabled m 32
      if on.isEmpty then .done k []
      else if k.tileBusy p n then .wait
      else match k.shadowTile p n with
        | none => .trap 0x08 2 0
        | some k1 =>
          let xs := elems 8 b
          let w := on.foldl (fun (a : Tile × Flags) i =>
            let r := accWrite a.1.x (fp32.dec (xs.getD i 0))
            ({ a.1 with el := if r.1 == 0 then a.1.el.del (at_ + i) else a.1.el.set (at_ + i) r.1, ovf := a.1.ovf || r.2.1 }, if r.2.2 then a.2 ||| flNV else a.2)) (k1.tile n, 0)
          .done ((k1.setTile n w.1).orFlags p.ival w.2) [])))

/-! ## Arrivals (R20) -/

/-- Flags of an op's entry: ORed in once none of its entries is still to be filled, which completes the op (R51). -/
def Core.landFlags (k : Core) (seq ival : Nat) (f : Flags) : Core :=
  let g := k.opFlags.get seq 0 ||| f
  if k.queues.l.any (fun q => q.2.ents.l.any (fun e => e.2.seq == seq && !e.2.pres && (e.2.st == .reserved || e.2.st == .draining))) then
    { k with opFlags := k.opFlags.set seq g }
  else ({ k with opFlags := k.opFlags.del seq } : Core).orFlags ival g

/-- A result or fill arrives in its entry: written and present; kept while a reader of a popped entry remains, discarded where none does. -/
def Core.entryArrive (k : Core) (a : QArr) : Core :=
  let u := k.queue a.q
  let e := u.ent a.idx
  let put (k : Core) : Core := match a.data with
    | some b => k.writeEntry (u.addr a.idx) b a.seq
    | none => k
  if e.seq != a.seq then k else
  match e.st with
  | .reserved => ((put k).setQueue a.q (u.setEnt a.idx { e with st := .present, pres := true })).landFlags a.seq e.ival a.flags
  | .draining => if e.readers == 0 then (k.setQueue a.q (u.setEnt a.idx {})).landFlags a.seq e.ival a.flags
                 else ((put k).setQueue a.q (u.setEnt a.idx { e with pres := true })).landFlags a.seq e.ival a.flags
  | _ => k

/-- QUEUE_ENTRY_ARRIVAL (R20). A sending end may then ship it (R222). -/
def execQueueEntryArrival (a : QArr) (s : State) : Res :=
  .next ((s.modCore a.core (fun k => k.entryArrive a)).splPoke a.core a.q)

end Sys2Proof.Machine
end

