-- ==== Sys2Proof/Machine/Matrix.lean ====
section
/-! DEFINITION. The matrix slot (06): banks, products, accumulator management, readout and tile conversion, repeats. A tile or an entry gets its
value when its op starts, and is busy until the event that completes it, so no reader sees it earlier (R32). -/
namespace Sys2Proof.Machine

/-! ## Tiles as blocks (R52 to R55) -/

/-- A block: E0, E1, element bits. -/
abbrev QBlock := Nat × Nat × List Nat

/-- m elements of n bits from bytes. -/
def elemsN (n m : Nat) (b : Bytes) : List Nat :=
  if n == 4 then (chunks 1 (m / 2) b).flatMap (fun x => [x % 16, x / 16]) else chunks (n / 8) m b

/-- m elements of n bits as bytes. -/
def packN (n : Nat) : List Nat → Bytes
  | [] => []
  | x :: y :: r => if n == 4 then BitVec.ofNat 8 (x + 16 * y) :: packN n r else leBytes (n / 8) x ++ (leBytes (n / 8) y ++ packN n r)
  | [x] => if n == 4 then [BitVec.ofNat 8 x] else leBytes (n / 8) x

/-- Elements in groups of m. -/
def groupsOf {α : Type} (m : Nat) : Nat → List α → List (List α)
  | 0, _ => []
  | k + 1, l => l.take m :: groupsOf m k (l.drop m)

/-- The rows of a split-form A tile, four blocks each (R54). -/
def rowsOfSplit (n : Nat) (b : Bytes) : List (List QBlock) :=
  let es := b.drop (512 * n)
  (List.range 32).map (fun i =>
    let el := groupsOf 32 4 (elemsN n 128 ((b.drop (16 * n * i)).take (16 * n)))
    (List.range 4).map (fun k => ((es.getD (8 * i + 2 * k) 0).toNat, (es.getD (8 * i + 2 * k + 1) 0).toNat, el.getD k [])))

/-- Bytes of a split-form A tile. -/
def splitSize (n : Nat) : Nat := 512 * n + 256

/-- Rows as a split-form A tile (R54). -/
def splitOfRows (n : Nat) (rows : List (List QBlock)) : Bytes :=
  rows.flatMap (fun r => r.flatMap (fun k => packN n k.2.2)) ++ rows.flatMap (fun r => r.flatMap (fun k => [BitVec.ofNat 8 k.1, BitVec.ofNat 8 k.2.1]))

/-- m packed blocks as rows of four (R53). -/
def rowsOfPacked (n m : Nat) (b : Bytes) : List (List QBlock) :=
  let sz := 2 + 4 * n
  groupsOf 4 (m / 4) ((List.range m).map (fun i =>
    let x := (b.drop (sz * i)).take sz
    ((x.getD 0 0).toNat, (x.getD 1 0).toNat, elemsN n 32 (x.drop 2))))

/-- m rows of 128 values of a non-QB type. -/
def rowsOfVals (t m : Nat) (b : Bytes) : List (List FV) :=
  let w := tyWidth t / 8
  (List.range m).map (fun i => (chunks w 128 ((b.drop (128 * w * i)).take (128 * w))).map (elemVal t false))

/-- Rows of values encoded block by block (R57, R63). -/
def encodeRows (n : Nat) (rows : List (List FV)) : List (List QBlock) × Flags :=
  rows.foldr (fun r a =>
    let bs := (groupsOf 32 4 r).map (qbEncode n)
    (bs.map (fun x => (x.1, x.2.1, x.2.2.1)) :: a.1, bs.foldl (fun f x => f ||| x.2.2.2) a.2)) ([], 0)

/-- The values of rows of blocks (R58). -/
def decodeRows (n : Nat) (rows : List (List QBlock)) : List (List FV) :=
  rows.map (fun r => r.flatMap (fun k => k.2.2.map (qbVal n k.1 k.2.1)))

/-- The format a type takes in the engine (R63). -/
def engineTy (t : Nat) : Nat := if tyQB t then t else 11

/-- An A tile as the engine takes it: rows and ingest flags (R63). -/
def ingestA (t : Nat) (b : Bytes) : List (List QBlock) × Flags :=
  if tyQB t then (rowsOfSplit (qbBits t) b, 0) else encodeRows 16 (rowsOfVals t 32 b)

/-- Rows as four A-form tiles in split form. -/
def splitOfB (n : Nat) (rows : List (List QBlock)) : Bytes := (groupsOf 32 4 rows).flatMap (splitOfRows n)
/-- The columns of a B tile: the rows of its four A-form tiles (R55). -/
def colsOfB (n : Nat) (b : Bytes) : List (List QBlock) :=
  (List.range 4).flatMap (fun t => rowsOfSplit n ((b.drop (splitSize n * t)).take (splitSize n)))

/-! ## Products (R61, R172) -/

/-- One selector group of a block: the exact sum, and whether a NaN takes part. -/
def groupSum (n m : Nat) (ga gb nanE : Bool) (a b : List Nat) : Int × Bool :=
  (a.zip b).foldl (fun acc (p : Nat × Nat) =>
    if p.1.testBit (n - 1) == ga && p.2.testBit (m - 1) == gb then
      (if nanE then (acc.1, true) else (acc.1 + sInt (n - 1) p.1 * sInt (m - 1) p.2, acc.2))
    else acc) (0, false)

/-- A matrix step on one element (R61): new element, overflow, NV. -/
def matStep (n m x : Nat) (a0 : Int) (row col : List QBlock) : Int × Bool × Bool :=
  (row.zip col).foldl (fun acc bk =>
    [(false, false), (false, true), (true, false), (true, true)].foldl (fun (acc : Int × Bool × Bool) g =>
      let ea := if g.1 then bk.1.2.1 else bk.1.1
      let eb := if g.2 then bk.2.2.1 else bk.2.1
      let p := groupSum n m g.1 g.2 (ea == 255 || eb == 255) bk.1.2.2 bk.2.2.2
      if p.2 then (acc.1, true, true)
      else if ea == 0 || eb == 0 then acc
      else
        let r := accAdd acc.1 p.1 ((ea : Int) + eb - (n - 2 : Nat) - (m - 2 : Nat) - x - 103)
        (r.1, acc.2.1 || r.2, acc.2.2)) acc) (a0, false, false)

/-- Elements of a tile as a table that lists no zero. -/
def tileOf (l : List Int) : Tab Int := ⟨((List.range l.length).zip l).filter (fun p => p.2 != 0)⟩

/-- MMUL (mac false) or MMAC on a tile (R172): the tile and flags. -/
def mulTile (mac : Bool) (n m : Nat) (rows cols : List (List QBlock)) (t : Tile) : Tile × Flags :=
  let r := ((List.range 32).zip rows).flatMap (fun ir => ((List.range 128).zip cols).map (fun jc =>
    matStep n m t.x (if mac then t.el.get (128 * ir.1 + jc.1) 0 else 0) ir.2 jc.2))
  ({ el := tileOf (r.map (·.1)), x := t.x, ovf := (mac && t.ovf) || r.any (·.2.1) }, if r.any (·.2.2) then flNV else 0)

/-! ## Resources (R163, R164) -/

def Core.bank (k : Core) (b : Nat) : Bank := k.banks.get b {}
def Core.setBank (k : Core) (b : Nat) (v : Bank) : Core := { k with banks := k.banks.set b v }
/-- Banks in a state. -/
def Core.banksIn (k : Core) (st : BankSt) : Nat := ((List.range 4).filter (fun b => (k.bank b).st == st)).length
/-- Is the conversion unit still producing entries (R163)? -/
def Core.convBusy (k : Core) : Bool :=
  match k.conv with
  | some (q, i, seq) => let e := (k.queue q).ent i; e.seq == seq && !e.pres && (e.st == .reserved || e.st == .draining)
  | none => false
/-- May a bank load start? -/
def Core.loadReady (k : Core) (b : Nat) : Bool := (k.bank b).st == .held && decide (k.banksIn .loading < 2)
/-- Is a tile busy for a product, which may follow an earlier product (R168)? -/
def Core.tileBusyMul (k : Core) (p : SlipOp) (n : Nat) : Bool := ({ k with jobs := k.jobs.filter (fun j => !j.chain) } : Core).tileBusy p n

/-- A write of a tile begins: shadowed, written, busy until its event. None where the shadow is full (R381). -/
def Core.writeTile (k : Core) (c : Nat) (p : SlipOp) (n : Nat) (chain : Bool) (f : Tile → Tile × Flags) : Option (Core × Ev) :=
  (k.shadowTile p n).map (fun k1 =>
    let r := f (k1.tile n)
    ({ k1.setTile n r.1 with jobs := k1.jobs ++ [{ tile := n, seq := p.place k, ival := p.ival, chain := chain, flags := r.2 }] }, .tileWriteComplete c n))

/-- The frame of an M op: its stage guard (R15), its type rules, and its repeat, which the engine runs as a stream (R180). -/
def State.matOp (s : State) (i : Instr) (sg : BitVec 4) (f : SlipOp → Core → OpRes) : Res :=
  let c := s.cur.core
  s.coreOp i (fun p k =>
    if !k.stageGuard p sg then .done k []
    else if !(shapeOf k p.rep i).tyOk then .trap 0x04 0 0
    else if p.rep.n == 0 then f p k
    else if k.stream.isSome then .wait
    else
      let q := streamQueue i
      let na := match q with
        | some q => (aTile (k.queue q).ty).getD 0
        | none => 0
      .done { k with stream := some { op := { p with op := i }, q := q.getD 0, na := na } } [.repeatIterationStart c])

/-! ## Loading banks (R170, R171) -/

/-- A load begins: the bank takes the tile when it is complete (R164, R165). -/
def Core.startLoad (k : Core) (c : Nat) (p : SlipOp) (b ty : Nat) (data : Bytes) (fl : Flags) (ws : Option (Nat × Nat)) : OpRes :=
  let bk := k.bank b
  if bk.rdi then .trap 0x08 0x03 0
  else .done (k.setBank b { bk with st := .loading, ldi := true, incoming := some (ty, data, fl, p.ival), wsOff := ws }) [.bankLoadComplete c b]

/-- MLDB (R170). -/
def execMldb (a : QSpec) (b : BitVec 2) (sg : BitVec 4) (s : State) : Res :=
  s.matOp (.mldb a b sg) sg (fun p k =>
    if !k.loadReady b.toNat then .wait
    else (k.readEnts p a ((bTile (k.qTy a.q)).getD 0)).bind (fun es =>
      let t := k.qTy a.q
      if tyQB t then k.startLoad s.cur.core p b.toNat t es.flatten 0 none
      else
        let r := encodeRows 16 (rowsOfVals t 128 es.flatten)
        k.startLoad s.cur.core p b.toNat 11 (splitOfB 16 r.1) r.2 none))

/-- Bytes of a B tile in the weight store (R171). -/
def wsTileSize (t : Nat) : Nat := if tyQB t then 512 * (2 + 4 * qbBits t) else 32768

/-- MLDBW (R171): the checks of its W before that of its bank (log 100). -/
def execMldbw (bs : Bool) (r : BitVec 6) (t : BitVec 4) (b : BitVec 2) (sg : BitVec 4) (s : State) : Res :=
  let c := s.cur.core
  let win := s.layout.now.ws.getD (4 * s.partOf c + dieOf c) (0, 0)
  s.matOp (.mldbw bs r t b sg) sg (fun p k =>
    if !k.loadReady b.toNat then .wait
    else (k.readReg p bs r.toNat).bind (fun v =>
      let w := v.toNat
      if w % 256 != 0 then .trap 0x09 0 v
      else if win.2 * 65536 < w + wsTileSize t.toNat then .trap 0x0D 0 v
      else
        let data := (s.die (dieOf c)).ws.readN (win.1 * 65536 + w) (wsTileSize t.toNat)
        if tyQB t.toNat then k.startLoad c p b.toNat t.toNat (splitOfB (qbBits t.toNat) (rowsOfPacked (qbBits t.toNat) 512 data)) 0 (some (w, t.toNat))
        else
          let e := encodeRows 16 (rowsOfVals t.toNat 128 data)
          k.startLoad c p b.toNat 11 (splitOfB 16 e.1) e.2 (some (w, t.toNat))))

/-- Does the refresh window hold back a weight-store load (R248, R171)? -/
def State.loadRefresh (s : State) (c : Nat) (b : Bank) : Bool :=
  match b.wsOff, s.clk.refresh with
  | some (w, t), some g =>
    let p := (s.layout.now.ws.getD (4 * s.partOf c + dieOf c) (0, 0)).1 * 65536 + w
    (List.range (wsTileSize t / 256)).any (fun i => (p / 256 + i) % 16 == g)
  | _, _ => false

/-- BANK_LOAD_COMPLETE (R164, R170): the bank takes the new tile and format, and the flags are ORed. -/
def execBankLoadComplete (core bank : Nat) (s : State) : Res :=
  let k := s.core core
  let b := k.bank bank
  if s.loadRefresh core b then .next (s.push (.bankLoadComplete core bank))
  else match b.incoming with
    | some (t, d, f, iv) => .next (s.setCore core ((k.setBank bank { b with st := .held, ty := t, data := d, incoming := none }).orFlags iv f))
    | none => .next s

/-! ## Products (R172) -/

/-- May a product start on a bank and tile? -/
def Core.mulReady (k : Core) (p : SlipOp) (tile b lanes : Nat) : Bool :=
  (k.bank b).st == .held && decide (k.banksIn .computing + lanes ≤ 2) && !k.tileBusyMul p tile

/-- A product begins: the tile is written, the bank computes; `st` is the number of the streamed A tile + 1, or 0. None where the shadow is
full. -/
def Core.startMul (k : Core) (c : Nat) (p : SlipOp) (mac : Bool) (t : Nat) (data : Bytes) (tile b st : Nat) : Option (Core × List Ev) :=
  let bk := k.bank b
  let a := ingestA t data
  (k.writeTile c p tile true (fun x =>
    let r := mulTile mac (qbBits (engineTy t)) (qbBits bk.ty) a.1 (colsOfB (qbBits bk.ty) bk.data) x
    (r.1, r.2 ||| a.2))).map (fun r =>
      ({ r.1.setBank b { bk with st := .computing, rdi := bk.rdi || !bk.ldi } with bankJobs := r.1.bankJobs ++ [(b, st)] }, [.bankComputeComplete c b, r.2]))

def State.mulOp (s : State) (i : Instr) (mac : Bool) (a : QSpec) (tile : Nat) (b : BitVec 2) (sg : BitVec 4) : Res :=
  s.matOp i sg (fun p k =>
    if !k.mulReady p tile b.toNat 1 then .wait
    else (k.readEnts p a ((aTile (k.qTy a.q)).getD 0)).bind (fun es =>
      match k.startMul s.cur.core p mac (k.qTy a.q) es.flatten tile b.toNat 0 with
      | some (k1, e) => .done k1 e
      | none => .trap 0x08 0x02 0))

/-- MMUL (R172). -/
def execMmul (a : QSpec) (c : BitVec 9) (b : BitVec 2) (sg : BitVec 4) (s : State) : Res := s.mulOp (.mmul a c b sg) false a c.toNat b sg
/-- MMAC (R172). -/
def execMmac (a : QSpec) (c : BitVec 9) (b : BitVec 2) (sg : BitVec 4) (s : State) : Res := s.mulOp (.mmac a c b sg) true a c.toNat b sg

/-- TILE_WRITE_COMPLETE (R32, R51): the oldest write of the tile is complete. -/
def execTileWriteComplete (core tile : Nat) (s : State) : Res :=
  let k := s.core core
  match k.jobs.find? (fun j => j.tile == tile) with
  | some j => .next (s.setCore core (({ k with jobs := k.jobs.erase j } : Core).orFlags j.ival j.flags))
  | none => .next s

/-- A tiles that n iterations of a streaming repeat take from its queue (R180). -/
def Stream.tiles (st : Stream) (n : Nat) : Nat := if st.op.rep.alt then (n + 1) / 2 else n

/-- Every iteration of a repeat has started and every tile it takes is popped. -/
def Stream.over_ (st : Stream) : Bool := !st.running && st.popped == st.tiles st.j

/-- The A tile that a bank was the last to read is popped (R180). A checkpoint bundle's own pops belong to the interval it closes (R377), so
the record of its checkpoint follows (log 109). -/
def Core.popStream (k : Core) (st : Stream) : Core :=
  let k1 := k.setQueue st.q ((k.queue st.q).popN st.na)
  let st1 := { st with popped := st.popped + 1 }
  { k1 with stream := if st1.over_ then none else some st1,
            dup := if st.op.ival < k.ival then { k.dup with queues := k.dup.queues.set st.q ((k.dup.queues.get st.q {}).popN st.na) } else k.dup }

/-- BANK_COMPUTE_COMPLETE (R164, R180): the lane is free; the stream pops an A tile when its last reader's bank is done. -/
def execBankComputeComplete (core bank : Nat) (s : State) : Res :=
  let k := s.core core
  match k.bankJobs.find? (fun j => j.1 == bank) with
  | none => .next s
  | some j =>
    let k1 := { k.setBank bank { k.bank bank with st := .held } with bankJobs := k.bankJobs.erase j }
    match k1.stream with
    | some st =>
      if j.2 == 0 || k1.bankJobs.any (fun x => x.2 == j.2) then .next (s.setCore core k1)
      else .next (s.setCore core (k1.popStream st))
    | none => .next (s.setCore core k1)

/-! ## Accumulator management (R173 to R175) -/

/-- A write of a tile that depends on nothing but it. -/
def Core.tileOp (k : Core) (c : Nat) (p : SlipOp) (tile : Nat) (f : Tile → Tile) : OpRes :=
  if k.tileBusy p tile then .wait
  else match k.writeTile c p tile false (fun t => (f t, 0)) with
    | some (k1, e) => .done k1 [e]
    | none => .trap 0x08 0x02 0

def zeroTile (t : Tile) : Tile := { t with el := ⟨[]⟩, ovf := false }
def setScale (x : Nat) (t : Tile) : Tile := { t with x := x }
/-- MSCL on a tile (R174). -/
def moveScale (x : Nat) (t : Tile) : Tile :=
  let r := t.el.l.map (fun p =>
    if t.x ≤ x then (p.1, rneInt p.2 (x - t.x), false) else (p.1, sat40 (p.2 * 2 ^ (t.x - x))))
  { el := ⟨r.map (fun p => (p.1, p.2.1))⟩, x := x, ovf := t.ovf || r.any (·.2.2) }

/-- MZERO (R173). -/
def execMzero (c : BitVec 9) (sg : BitVec 4) (s : State) : Res :=
  s.matOp (.mzero c sg) sg (fun p k => k.tileOp s.cur.core p c.toNat zeroTile)
/-- MSETX (R173). -/
def execMsetx (x : BitVec 8) (c : BitVec 9) (sg : BitVec 4) (s : State) : Res :=
  s.matOp (.msetx x c sg) sg (fun p k => k.tileOp s.cur.core p c.toNat (setScale x.toNat))
/-- MSCL (R174). -/
def execMscl (x : BitVec 8) (c : BitVec 9) (sg : BitVec 4) (s : State) : Res :=
  s.matOp (.mscl x c sg) sg (fun p k => k.tileOp s.cur.core p c.toNat (moveScale x.toNat))
/-- MACCCP (R175): tile m into tile c. -/
def execMacccp (m c : BitVec 9) (sg : BitVec 4) (s : State) : Res :=
  s.matOp (.macccp m c sg) sg (fun p k =>
    if k.tileBusy p m.toNat then .wait else k.tileOp s.cur.core p c.toNat (fun _ => k.tile m.toNat))

/-! ## Readout and conversion (R176 to R179) -/

/-- Rows of values as entries of a type, with flags. -/
def encodeTile (t : Nat) (rows : List (List FV)) : Bytes × Flags :=
  if tyQB t then
    let r := encodeRows (qbBits t) rows
    (splitOfRows (qbBits t) r.1, r.2)
  else
    let r := rows.flatten.map (elemEnc t false false)
    (r.flatMap (fun x => leBytes (tyWidth t / 8) x.1), r.foldl (fun f x => f ||| x.2) 0)

/-- A tile's values by rows. -/
def Tile.rows (t : Tile) : List (List FV) :=
  (List.range 32).map (fun i => (List.range 128).map (fun j => accVal (t.el.get (128 * i + j) 0) t.x))

/-- Entries on their way into an op's reservation, from its j0-th entry; the flags with the last. The conversion unit is busy until then. -/
def Core.produce (k : Core) (c : Nat) (p : SlipOp) (q j0 : Nat) (r : Bytes × Flags) : OpRes :=
  let n := r.1.length / 256
  let es := groupsOf 256 n r.1
  .done { k with conv := some (q, (k.resvIdx p q + j0 + n - 1) % 65536, p.place k) }
    (((List.range n).zip es).map (fun x => k.arrives c p q (j0 + x.1) (x.2, if x.1 + 1 == n then r.2 else 0)))

def Core.readout (k : Core) (c : Nat) (p : SlipOp) (q tile j0 : Nat) : OpRes :=
  if k.convBusy || k.tileBusy p tile then .wait else k.produce c p q j0 (encodeTile (k.queue q).ty (k.tile tile).rows)

/-- MRDOUT (R176). -/
def execMrdout (q : BitVec 3) (c : BitVec 9) (sg : BitVec 4) (s : State) : Res :=
  s.matOp (.mrdout q c sg) sg (fun p k => k.readout s.cur.core p q.toNat c.toNat 0)

/-- The values of one A-form tile of a type. -/
def valsOfTile (t : Nat) (b : Bytes) : List (List FV) :=
  if tyQB t then decodeRows (qbBits t) (rowsOfSplit (qbBits t) b) else rowsOfVals t 32 b

/-- An op of the conversion unit on n source entries. -/
def State.convOp (s : State) (i : Instr) (sg : BitVec 4) (a : QSpec) (q : BitVec 3) (n : Core → Nat) (f : Core → Bytes → Bytes × Flags) : Res :=
  s.matOp i sg (fun p k =>
    if k.convBusy then .wait
    else (k.readEnts p a (n k)).bind (fun es => k.produce s.cur.core p q.toNat 0 (f k es.flatten)))

/-- MCVT (R177). -/
def execMcvt (a : QSpec) (q : BitVec 3) (sg : BitVec 4) (s : State) : Res :=
  s.convOp (.mcvt a q sg) sg a q (fun k => (anyTile (k.qTy a.q)).getD 0) (fun k b => encodeTile (k.qTy q) (valsOfTile (k.qTy a.q) b))

/-- MREQ on a tile (R178): targets from the exponent entry that follows it, if there is one. -/
def requantTile (n n2 : Nat) (b tgt : Bytes) : Bytes × Flags :=
  let r := ((List.range 32).zip (rowsOfSplit n b)).map (fun ir => ((List.range 4).zip ir.2).map (fun kb =>
    let at_ := 8 * ir.1 + 2 * kb.1
    qbRequant n n2 kb.2.1 kb.2.2.1 kb.2.2.2 (if tgt.isEmpty then none else some ((tgt.getD at_ 0).toNat, (tgt.getD (at_ + 1) 0).toNat))))
  (splitOfRows n2 (r.map (fun l => l.map (fun x => (x.1, x.2.1, x.2.2.1)))), r.foldl (fun f l => l.foldl (fun f x => f ||| x.2.2.2) f) 0)

/-- MREQ (R178). -/
def execMreq (a : QSpec) (q : BitVec 3) (t : Bool) (sg : BitVec 4) (s : State) : Res :=
  s.convOp (.mreq a q t sg) sg a q (fun k => (aTile (k.qTy a.q)).getD 0 + (if t then 1 else 0)) (fun k b =>
    let n := qbBits (k.qTy a.q)
    requantTile n (qbBits (k.qTy q)) (b.take (splitSize n)) (b.drop (splitSize n)))

/-- Four A-form tiles transposed (R179). -/
def transposeTiles (t : Nat) (b : Bytes) : Bytes × Flags :=
  if tyQB t then
    let n := qbBits t
    let g := decodeRows n (colsOfB n b)
    let r := encodeRows n ((List.range 128).map (fun i => g.map (fun row => row.getD i .nan)))
    (splitOfB n r.1, r.2)
  else
    let w := tyWidth t / 8
    let g := (List.range 128).map (fun i => chunks w 128 ((b.drop (128 * w * i)).take (128 * w)))
    ((List.range 128).flatMap (fun i => g.flatMap (fun row => leBytes w (row.getD i 0))), 0)

/-- MTRN (R179). -/
def execMtrn (a : QSpec) (q : BitVec 3) (sg : BitVec 4) (s : State) : Res :=
  s.convOp (.mtrn a q sg) sg a q (fun k => 4 * (anyTile (k.qTy a.q)).getD 0) (fun k b => transposeTiles (k.qTy a.q) b)

/-! ## Repeats (R180) -/

/-- The next A tile of a stream: reserved and present, else a wait or fault 0x06. The tiles that earlier iterations are still reading stand
before it in the queue. -/
def Core.streamA (k : Core) (st : Stream) (a : QSpec) : Src Bytes :=
  let u := k.queue a.q.toNat
  let o := st.na * (st.tiles st.j - st.popped)
  let ix := (List.range st.na).map (fun j => (u.head + o + j) % 65536)
  if decide (o + st.na ≤ u.count) && ix.all u.isPres then .val (ix.flatMap (k.entBytes st.op a.q.toNat))
  else if a.b then .wait else .fault 0x06 a.q.toNat

/-- One iteration of a product, or the pair that shares an A tile. -/
def Core.iterMul (k : Core) (c : Nat) (st : Stream) (mac : Bool) (a : QSpec) (tile b : Nat) : OpRes × Nat :=
  let p := st.op
  let t (j : Nat) : Nat := tile + j * p.rep.step
  let pair := p.rep.alt && decide (st.j + 1 < p.rep.n)
  let b0 := if p.rep.alt && st.j % 2 == 1 then b ^^^ 1 else b
  let num := st.tiles st.j + 1
  if !k.mulReady p (t st.j) b0 (if pair then 2 else 1) || (pair && !k.mulReady p (t (st.j + 1)) (b0 ^^^ 1) 2) then (.wait, 0)
  else match k.streamA st a with
    | .wait => (.wait, 0)
    | .fault code d => (.trap code d 0, 0)
    | .val x =>
      match k.startMul c p mac (k.qTy a.q) x (t st.j) b0 num with
      | none => (.trap 0x08 0x02 0, 0)
      | some (k1, e1) =>
        if !pair then (.done k1 e1, 1)
        else match k1.startMul c p mac (k.qTy a.q) x (t (st.j + 1)) (b0 ^^^ 1) num with
          | none => (.trap 0x08 0x02 0, 0)
          | some (k2, e2) => (.done k2 (e1 ++ e2), 2)

/-- What starts next in a repeat, and how many iterations that is. -/
def Core.iterate (k : Core) (c : Nat) (st : Stream) : OpRes × Nat :=
  let p := st.op
  match p.op with
  | .mmul a t b _ => k.iterMul c st false a t.toNat b.toNat
  | .mmac a t b _ => k.iterMul c st true a t.toNat b.toNat
  | .mzero t _ => (k.tileOp c p (t.toNat + st.j * p.rep.step) zeroTile, 1)
  | .msetx x t _ => (k.tileOp c p (t.toNat + st.j * p.rep.step) (setScale x.toNat), 1)
  | .mscl x t _ => (k.tileOp c p (t.toNat + st.j * p.rep.step) (moveScale x.toNat), 1)
  | .mrdout q t _ => (k.readout c p q.toNat (t.toNat + st.j * p.rep.step) (st.j * (anyTile (k.qTy q)).getD 0), 1)
  | _ => (.done k [], 1)

/-- A repeat whose iteration faults starts no more of them. -/
def Core.stopStream (k : Core) (st : Stream) : Core :=
  let st1 := { st with running := false }
  { k with stream := if st.na == 0 || st1.over_ then none else some st1 }

/-- REPEAT_ITERATION_START (R180): the next iteration starts, waits, or faults at the repeat's bundle (R181). Once the core traps, a repeat of the
open interval is abandoned, and one that the checkpoint bundle issued goes on (R184, log 109). -/
def execRepeatIterationStart (core : Nat) (s : State) : Res :=
  let k := s.core core
  match k.stream with
  | none => .next s
  | some st =>
    if !st.running || (k.trap.isSome && !decide (st.op.ival < k.ival)) then .next s
    else match k.iterate core st with
      | (.wait, _) => .next (s.push (.repeatIterationStart core))
      | (.trap code d a, _) => .next ((s.setCore core (k.stopStream st)).takeFault core { code := code, detail := d, addr := a, pc := st.op.pc, slot := 3, single := st.op.single } st.op.next)
      | (.done k1 e, n) =>
        let last := decide (st.op.rep.n ≤ st.j + n)
        let k2 := { k1 with stream := if last && st.na == 0 then none else some { st with j := st.j + n, running := !last } }
        .next ((s.setCore core k2).pushAll (e ++ if last then [] else [.repeatIterationStart core]))

end Sys2Proof.Machine
end

