-- ==== Sys2Proof/Machine/MemSys.lean ====
section
/-! DEFINITION. Where accesses are performed (09, 10): home slices, exported writes, directed packets, atomics, remote writes, the weight store,
refresh windows and failed channels. An acknowledgement is taken into account where the access is performed (log 18). -/
namespace Sys2Proof.Machine

/-! ## Exported writes (R260, R263) -/

/-- The other dies. -/
def otherDies (d : Nat) : List Nat := (List.range 4).filter (· != d)

/-- Bytes at a position of the owner order into a die's view: a byte whose view holds a later write keeps its value (R263). -/
def Die.place (x : Die) (pos : Nat) (data : List (Nat × BitVec 8)) : Die :=
  data.foldl (fun x p => if x.stamp.get p.1 0 ≤ pos then { x with view := x.view.write p.1 p.2, stamp := x.stamp.set p.1 pos } else x) x

/-- The line of a write. -/
def lineOfCells (data : List (Nat × BitVec 8)) : Nat := (data.headD (0, 0)).1 / 64

/-- An exported write on its way to a die. -/
def State.export (s : State) (from_ dest : Nat) (w : Export) : State :=
  let pa := lineOfCells w.data * 64
  s.routePa (.slice from_ (s.homeSlice ((s.windowPart pa).getD 0) from_ pa)) (.slice dest (s.homeSlice ((s.windowPart pa).getD 0) dest pa)) pa 0 1 (.exportedWriteApply dest w)

/-- An HBM-range write made at a die (R263): applied to its view, counted, and exported; the clock it carries. -/
def State.hbmWrite (s : State) (d : Nat) (data : List (Nat × BitVec 8)) : List Nat × State :=
  let line := lineOfCells data
  let x := s.die d
  let clk := x.app.set d (x.app.getD d 0 + 1)
  let o := s.ownerDie (line * 64)
  if o == d then
    let pos := s.ownerPos.get line 0 + 1
    let s1 := ({ s with ownerPos := s.ownerPos.set line pos } : State).setDie d (({ x with app := clk } : Die).place pos data)
    (clk, (otherDies d).foldl (fun s z => s.export d z { src := d, clk := clk, data := data, pos := some pos }) s1)
  else
    let s1 := s.setDie d { x with app := clk, view := x.view.writeAll data, waitLn := x.waitLn ++ [line] }
    (clk, s1.export d o { src := d, clk := clk, data := data, pos := none })

/-- May a die apply an exported write now (R263)? -/
def Die.ready (x : Die) (w : Export) : Bool :=
  decide (x.app.getD w.src 0 + 1 == w.clk.getD w.src 0) &&
  (List.range 4).all (fun y => y == w.src || decide (w.clk.getD y 0 ≤ x.app.getD y 0)) && !(w.pos.isSome && x.waitLn.contains (lineOfCells w.data))

/-- EXPORTED_WRITE_APPLY (R260, R263): in causal order; the owner places the write, tells its source, and forwards it. -/
def execExportedWriteApply (die : Nat) (w : Export) (s : State) : Res :=
  let x := s.die die
  if !x.ready w then .next (s.push (.exportedWriteApply die w)) else
  let x1 := { x with app := x.app.set w.src (w.clk.getD w.src 0) }
  match w.pos with
  | some pos => .next (s.setDie die (x1.place pos w.data))
  | none =>
    let line := lineOfCells w.data
    let pos := s.ownerPos.get line 0 + 1
    let s1 := ({ s with ownerPos := s.ownerPos.set line pos } : State).setDie die (x1.place pos w.data)
    let s2 := s1.modDie w.src (fun y => { y with waitLn := y.waitLn.erase line, stamp := w.data.foldl (fun t p => t.set p.1 (max (t.get p.1 0) pos)) y.stamp })
    .next (((otherDies die).filter (· != w.src)).foldl (fun s z => s.export die z { w with pos := some pos }) s2)

/-! ## Home slices (R245, R257) -/

/-- An access that ends without effect: its sender no longer waits for it. -/
def State.dropAccess (s : State) (a : Access) : State :=
  let s1 := s.unsent a.core a.id
  match a.reply with
  | .host fn off => if a.wr.isSome then s1 else { s1 with msgs := s1.msgs ++ [.read fn off none] }
  | .copy c id k => s1.modCore c (fun x => { x with ports := x.ports.map (fun m => if m.id == id then { m with rds := m.rds.filter (fun r => r.1 != k) } else m) })
  | _ => s1

/-- A command that an access or element of its fails for: it stops, and reports the first one in walk order when it ends (R357). -/
def State.failCmd (s : State) (c : Nat) (m : CopyCmd) (id : Nat) (va : W64) (code detail : Nat) : State :=
  let s1 := s.modCore c (fun x => { x with ports := x.ports.map (fun n =>
    if n.id == m.id then { n with stopped := true, phase := 3, failed := n.failed ++ [(id, va, code * 256 + detail)] } else n) })
  if 3 ≤ m.phase then s1 else s1.push (.copyCommandComplete c m.id)

/-- The command an access belongs to. -/
def State.accessCmd (s : State) (a : Access) : Option CopyCmd :=
  match a.reply with
  | .copy c id _ => (s.core c).ports.find? (fun m => m.id == id)
  | _ => none

/-- An access that ends in a fault at its core: 0x18 where a binding does not serve it (R357), 0x0E where a bridge gate rejects it (R447). A
command stops, and reports the first failing byte of its walk when it ends; a CPREF of a write view drops its lines (R317); a fetch sees the
fault when it is made again. -/
def State.accessFault (s : State) (a : Access) (code detail : Nat) : State :=
  let s1 := s.dropAccess a
  match s.accessCmd a with
  | some m => if m.kind == .cpref && code == 0x18 && detail == 2 then s1 else s1.failCmd a.core m a.id a.va code detail
  | none =>
    if (a.reply == .none && a.wr.isNone) || 200 ≤ a.core then s1 else
    s1.push (.remoteAtomRejection a.core
      { tk := match a.reply with
          | .scalar _ tk _ _ _ => some tk
          | _ => none,
        code := code, detail := detail, pc := a.pc, slot := a.slot, addr := a.va })

/-- The home slice of an access on its agent's die (R245, R257): a core's, or D0's for the host. -/
def State.sliceNode (s : State) (a : Access) : Node :=
  if 200 ≤ a.core then .slice a.die (s.homeSlice (a.core - 200) a.die a.pa) else s.homeNode a.core a.pa

/-- The node that answers an access. -/
def State.answerNode (s : State) (a : Access) : Node := if isSys a.pa then .base 0 25 else s.sliceNode a

/-- A line into a core's L1 (R244): 512 sets of 8 lines; where the set is full another line goes, a free choice (log 20). -/
def State.l1Fill (s : State) (c line : Nat) (b : Bytes) : State :=
  let set := (s.core c).l1.l.filter (fun p => p.1 % Config.l1Sets == line % Config.l1Sets && p.1 != line)
  if set.length < Config.l1Ways then s.modCore c (fun k => { k with l1 := k.l1.set line b })
  else
    let (f, s1) := s.newFresh
    s1.modCore c (fun k => { k with l1 := (k.l1.del (set.getD (Config.victim f % set.length) (0, [])).1).set line b })

/-- The L1 as a read of a line is answered: it takes the line where the read is an LDG and no other access of the core to the line is on its
way; otherwise it keeps no line that could be older than the answer (R261). -/
def State.l1Answer (s : State) (a : Access) (line : Bytes) : State :=
  if 200 ≤ a.core || a.reply == .none then s
  else if a.l1 && !s.lineBusy a.core (a.pa / 64) s.clk.ids then s.l1Fill a.core (a.pa / 64) line
  else s.modCore a.core (fun k => { k with l1 := k.l1.del (a.pa / 64) })

/-- A read's value, fixed here, on its way back (R246). -/
def State.answer (s : State) (a : Access) (line : Bytes) : State :=
  let b := (line.drop (a.pa % 64)).take a.len
  let s2 := (s.unsent a.core a.id).l1Answer a line
  match a.reply with
  | .none => s2
  | .host fn off => { s2 with msgs := s2.msgs ++ [.read fn off (some b)] }
  | .scalar c tk n sg own =>
    let v := leNat (patch a.pa b own)
    s2.routePa (s.answerNode a) (nodeOf c) a.pa 2 1 (.scalarResultArrival c tk (if sg then BitVec.ofInt 64 (sInt (8 * n) v) else w64 v))
  | .copy c id k =>
    (s2.modCore c (fun x => { x with ports := x.ports.map (fun m =>
        if m.id == id then (match m.rds.find? (fun r => r.1 == k) with
          | some r => { m with buf := m.buf.writeAll (cellsAt r.2.1 b) }
          | none => m) else m) })).routePa (s.answerNode a) (nodeOf c) a.pa 2 1 (.copyDataReturn c id k)

/-- A write made at the core's die, and known to its releases (R266). -/
def State.sliceWrite (s : State) (a : Access) (data : List (Nat × BitVec 8)) : State :=
  let (clk, s1) := s.hbmWrite a.die data
  if 200 ≤ a.core then s1 else (s1.unsent a.core a.id).modCore a.core (fun k => { k with expMax := k.expMax.set a.die (clk.getD a.die 0) })

/-- An access to a line of a bound view (R355 to R358). -/
def State.viewAccess (s : State) (a : Access) (arr ent : Nat) (b : Binding) : State :=
  match b.st with
  | .faulted => s.accessFault a 0x18 4
  | .active =>
    match a.wr with
    | some data =>
      if !b.wr then s.accessFault a 0x18 1
      else s.sendDirected (s.sliceNode a) (arr / 2) (unitColl arr ent) 1 3 none (.coll { arr := arr, ent := ent, data := data, acc := a })
    | none =>
      if b.wr then s.accessFault a 0x18 2
      else match (s.die a.die).viewL2.find (a.pa / 64) with
        | some line => s.answer a line
        | none => s.route (s.sliceNode a) (.base (arr / 2) 26) 1 1 (.kneadRecordRequest a)
  | _ => s.push (.homeSliceAccess a)

/-- HOME_SLICE_ACCESS (R245, R257): a core's accesses to one line are performed in the order sent (R260); system memory stands at the host. A bridge gate
stops what leaves the partition (R447). -/
def execHomeSliceAccess (a : Access) (s : State) : Res :=
  if s.lineBusy a.core (a.pa / 64) a.id || (a.wr.isNone && s.atomLate a.core (a.pa / 64)) then .next (s.push (.homeSliceAccess a))
  else if isSys a.pa then
    match a.wr with
    | some data => .next (({ s with hostMem := s.hostMem.writeAll (data.map (fun p => (p.1 - sysBase, p.2))) } : State).dropAccess a)
    | none => .next (s.answer a (s.hostMem.readN (a.pa / 64 * 64 - sysBase) 64))
  else if decide (a.core < 200) && !s.gateOk (s.partOf a.core) (s.sliceNode a) (some a.pa) then .next (s.accessFault a 0x0E 0)
  else match s.bindingAt a.pa with
    | some (arr, ent, b) => .next (s.viewAccess a arr ent b)
    | none =>
      if s.lostData a.pa then .next ((s.dropAccess a).reportLoss (if 200 ≤ a.core then a.core - 200 else s.partOf a.core))
      else match a.wr with
        | some data => .next (s.sliceWrite a data)
        | none => .next (s.answer a ((s.die a.die).view.readN (a.pa / 64 * 64) 64))

/-! ## Directed packets (R263) -/

/-- What a directed packet does at its destination, as the step that does it. -/
def bodyEv : DirBody → Ev
  | .atomg a => .homeSliceAtomic a
  | .atom a => .remoteAtomApply a
  | .post p => .counterPost p
  | .rwrite w => if w.bc then .broadcastDelivery w else .remoteWriteDelivery w
  | .append a => .channelAppend a
  | .coll w => .collectionWrite w

/-- DIRECTED_PACKET_PERFORM (R260, R263): in the order sent to its unit, once the die has applied what the packet's clock names; an atomic
after its core's earlier accesses to the line. -/
def execDirectedPacketPerform (p : Directed) (s : State) : Res :=
  let key := p.src * 8192 + p.unit
  let x := s.die p.dst
  let room := match p.body with
    | .atomg a => !s.lineBusy a.core (a.pa / 64) a.id && (p.src == p.dst || !(s.die p.src).waitLn.contains (a.pa / 64))
    | _ => true
  if s.dpDone.get key 0 == p.ord && (List.range 4).all (fun y => decide (p.clk.getD y 0 ≤ x.app.getD y 0)) && room then
    .next (({ s with dpDone := s.dpDone.set key (p.ord + 1) } : State).pushUrgent (bodyEv p.body))
  else .next (s.push (.directedPacketPerform p))

/-! ## Atomics where they are performed (R237 to R243) -/

/-- The clock a returned value carries: that of the die where it was fixed, when that is another (R265). -/
def State.backClock (s : State) (d c : Nat) : List Nat := if d == dieOf c then [] else (s.die d).app

/-- HOME_SLICE_ATOMIC (R239, R240, R274): one indivisible read and write on the owner die, exported by the owner. On a bound view it waits while the
binding is PENDING or DRAINING (R358), and else faults with DETAIL 3, on a FAULTED binding too (R357, log 96). -/
def execHomeSliceAtomic (a : AtomReq) (s : State) : Res :=
  let d := s.ownerDie a.pa
  let n := atomBytes a.size
  match s.bindingAt a.pa with
  | some (_, _, b) =>
    if b.st == .pending || b.st == .draining then .next (s.push (.homeSliceAtomic a))
    else match (s.core a.core).ports.find? (fun m => m.wrs.contains a.id) with
      | some m => .next ((s.unsent a.core a.id).failCmd a.core m a.id a.ea 0x18 3)
      | none => .next ((s.unsent a.core a.id).rejectTo (128 + d) a.core { tk := a.tk, code := 0x18, detail := 3, pc := a.pc, slot := a.slot, addr := a.ea })
  | none =>
    if s.lostData a.pa then .next ((s.unsent a.core a.id).reportLoss (s.partOf a.core)) else
    let old := leNat ((s.die d).view.readN a.pa n)
    let (clk, s1) := s.hbmWrite d (cellsAt a.pa (leBytes n (atomNew a.aop a.size old a.v.toNat a.c.toNat)))
    let s2 := (s1.unsent a.core a.id).modCore a.core (fun k => { k with expMax := k.expMax.set d (clk.getD d 0) })
    match a.tk with
    | some t => .next (s2.routePa (.slice d (s.homeSlice ((s.windowPart a.pa).getD 0) d a.pa)) (nodeOf a.core) a.pa 2 1
        (.atomicResultArrival a.core t (extendBy a.size old) (s2.backClock d a.core)))
    | none => .next s2

/-- REMOTE_ATOM_APPLY (R238, R243): the target checks the rest, then applies. -/
def execRemoteAtomApply (a : AtomReq) (s : State) : Res :=
  let s0 := s.unsent a.core a.id
  let t := s0.core a.tgt
  let rej (d : Nat) : Res := .next (s0.rejectTo a.tgt a.core { tk := a.tk, code := 0x1E, detail := d, pc := a.pc, slot := a.slot, addr := a.ea })
  if !s.accepts a.tgt a.part a.pasid then rej 1
  else if t.limSpad < a.ea.toNat + atomBytes a.size then rej 2
  else if 4193280 ≤ a.ea.toNat then rej 3
  else
    let (old, t1) := t.atomHere a
    let s1 := s0.setCore a.tgt t1
    match a.tk with
    | some k => .next (s1.route (nodeOf a.tgt) (nodeOf a.core) 2 1 (.atomicResultArrival a.core k (extendBy a.size old) (s.backClock (dieOf a.tgt) a.core)))
    | none => .next s1

/-! ## Remote writes (R316, R319, R329) -/

/-- Bytes written by a copy engine by scratchpad address: data, range table, and the full/empty bit of each word wholly written (R232, R332). -/
def Core.copyBytes (k : Core) (data : List (Nat × BitVec 8)) : Core :=
  let k1 := data.foldl (fun (k : Core) p => k.rtMark p.1 1) { k with spad := k.spad.writeAll data }
  (nub (data.map (fun p => p.1 / 8))).foldl (fun k w => if (List.range 8).all (fun i => data.any (fun p => p.1 == 8 * w + i)) then k.setFull w true else k) k1

/-- A remote write at its target: rejected, or written and then posted. -/
def State.remoteWrite (s : State) (w : RWrite) : State :=
  let own := w.tgt == w.src
  let s0 := if own then s else s.unsent w.src w.id
  let t := s.core w.tgt
  let rej (d : Nat) : State := s0.rejectTo w.tgt w.src { tk := none, code := 0x1E, detail := d, pc := w.pc, slot := w.slot, addr := w.addr }
  if !s.accepts w.tgt w.part w.pasid then rej 1
  else if w.data.any (fun p => decide (t.limSpad ≤ p.1)) then rej 2
  else if (match w.post with
    | some p => decide (t.limNctr ≤ p.1)
    | none => false) then rej 4
  else
    let s1 := s0.setCore w.tgt (t.copyBytes w.data)
    match w.post with
    | some (ctr, n) => s1.applyPost { tgt := w.tgt, ctr := ctr, n := n, src := w.src, tent := false, ival := 0, seq := 0, id := w.id, part := w.part, pasid := w.pasid,
                                      pc := w.pc, slot := w.slot, addr := w.addr }
    | none => s1

/-- REMOTE_WRITE_DELIVERY (R316). -/
def execRemoteWriteDelivery (w : RWrite) (s : State) : Res := .next (s.remoteWrite w)
/-- BROADCAST_DELIVERY (R319). -/
def execBroadcastDelivery (w : RWrite) (s : State) : Res := .next (s.remoteWrite w)

/-! ## The weight store and refresh (R248, R249) -/

/-- Does a work item of a partition run on a die, or is one parked there (R249, R420)? -/
def State.partRuns (s : State) (p d : Nat) : Bool :=
  (List.range 32).any (fun i => match (s.core (32 * d + i)).item with
    | some w => w.part == p
    | none => false) ||
  s.groups.any (fun g => g.part == p && g.die == d && !g.parked.isEmpty)

/-- WEIGHT_STORE_WRITE_PERFORM (R248, R249): the first write in arrival order whose partition runs nothing on the die, outside the refresh of
its bank groups. -/
def execWeightStoreWritePerform (die : Nat) (s : State) : Res :=
  let x := s.die die
  match x.wqueue.find? (fun w => !s.partRuns w.1 die) with
  | none => .next (if x.wqueue.isEmpty then s else s.push (.weightStoreWritePerform die))
  | some w =>
    if w.2.1.any (fun p => some (p.1 / 256 % 16) == s.clk.refresh) then .next (s.push (.weightStoreWritePerform die))
    else
      let s1 := s.setDie die { x with ws := x.ws.writeAll w.2.1, wqueue := x.wqueue.erase w }
      let s2 := match w.2.2 with
        | some (c, id) => s1.unsent c id
        | none => s1
      .next (if (x.wqueue.erase w).isEmpty then s2 else s2.push (.weightStoreWritePerform die))

/-- REFRESH_WINDOW_START (R248): bank group PERIOD mod 16 is refreshed. -/
def execRefreshWindowStart (s : State) : Res := .next { s with clk := { s.clk with refresh := some (s.period % 16) } }
/-- REFRESH_WINDOW_END (R248). -/
def execRefreshWindowEnd (s : State) : Res := .next { s with clk := { s.clk with refresh := none } }

/-- HBM_CHANNEL_FAILURE (R250): reads of the channel are rebuilt from its group from now on. -/
def execHbmChannelFailure (stack ch : Nat) (s : State) : Res :=
  .next { s with hbmFail := if s.hbmFail.contains (stack, ch) then s.hbmFail else s.hbmFail ++ [(stack, ch)] }

end Sys2Proof.Machine
end

