-- ==== Sys2Proof/Machine/Tuinil.lean ====
section
/-! DEFINITION. Tuinil ports, flits and fabric packets (21 R471 to R477): check sums, retransmission, lanes, fabric groups. -/
namespace Sys2Proof.Machine

/-! ## CRC-32 of IEEE 802.3 -/

def crcBit : Nat → BitVec 32 → BitVec 32
  | 0, c => c
  | n + 1, c => crcBit n (if c.getLsbD 0 then (c >>> 1) ^^^ 0xEDB88320#32 else c >>> 1)
def crcByte (c : BitVec 32) (b : BitVec 8) : BitVec 32 := crcBit 8 (c ^^^ b.zeroExtend 32)
/-- CRC-32 of bytes. -/
def crc32 (b : Bytes) : BitVec 32 := ~~~(b.foldl crcByte 0xFFFFFFFF#32)

/-! ## Packets (R476) -/

/-- Header and data. -/
def FabPkt.body (p : FabPkt) : Bytes :=
  leBytes 1 p.kind ++ leBytes 1 (if p.owner then 1 else 0) ++ leBytes 2 p.swgrp ++ leBytes 2 p.src ++ leBytes 2 p.dst ++ leBytes 1 p.epoch ++ leBytes 1 p.chunk ++
  leBytes 1 p.rank ++ leBytes 1 p.nm ++ leBytes 1 p.op ++ leBytes 1 p.dtype ++ leBytes 2 p.data.length ++ leBytes 8 p.token.toNat ++ leBytes 8 0 ++ p.data
/-- A whole packet with its PCRC. -/
def pktBytes (p : FabPkt) : Bytes := let b := FabPkt.body p; b ++ leBytes 4 (crc32 b).toNat

def byteN (b : Bytes) (i n : Nat) : Nat := leNat ((b.drop i).take n)

/-- A packet from its bytes; none where its PCRC fails or a field is reserved. -/
def pktOf (b : Bytes) : Option FabPkt :=
  let len := byteN b 14 2
  let k := byteN b 0 1
  let body := b.take (32 + len)
  if (crc32 body).toNat != byteN b (32 + len) 4 || k == 0 || 5 < k || 1 < byteN b 1 1 || 1 < byteN b 12 1 || byteN b 24 8 != 0 || 2 ^ 37 ≤ byteN b 16 8 ||
    (if k == 1 || k == 2 then len == 0 || len % 256 != 0 || 2048 < len else len != 0) then none
  else some { kind := k, owner := byteN b 1 1 == 1, swgrp := byteN b 2 2, src := byteN b 4 2, dst := byteN b 6 2, epoch := byteN b 8 1, chunk := byteN b 9 1,
              rank := byteN b 10 1, nm := byteN b 11 1, op := byteN b 12 1, dtype := byteN b 13 1, token := w64 (byteN b 16 8), data := (b.drop 32).take len }

/-- Whole packets at the front of a received stream; zero bytes between packets are filler (log 19). The packets, those discarded, the rest. -/
def takePkts : Nat → Bytes → List FabPkt × Nat × Bytes
  | 0, b => ([], 0, b)
  | n + 1, b =>
    let b := b.dropWhile (· == 0)
    if b.length < 32 then ([], 0, b) else
    let len := byteN b 14 2
    let len := if 2048 < len then 0 else len
    if b.length < 36 + len then ([], 0, b) else
    let r := takePkts n (b.drop (36 + len))
    match pktOf (b.take (36 + len)) with
    | some p => (p :: r.1, r.2)
    | none => (r.1, r.2.1 + 1, r.2.2)

/-! ## Flits (R472, R473) -/

/-- The bytes of a flit that its check covers (R472). -/
def flitBytes (f : Flit) : Bytes := leBytes 2 (f.seq + f.kind * 4096) ++ leBytes 2 (f.ack + f.cred * 4096) ++ f.stream
/-- A flit with its stream filled up with zero bytes, no credits, and its check (log 19). -/
def mkFlit (seq kind ack : Nat) (stream : Bytes) : Flit :=
  let f : Flit := { seq := seq, kind := kind, ack := ack, cred := 0, stream := stream ++ List.replicate (248 - stream.length) 0, fcrc := 0 }
  { f with fcrc := crc32 (flitBytes f) }

/-- Data flits sent while the stream holds bytes and fewer than 1,024 flits are unacknowledged. -/
def TPort.emit : Nat → TPort → TPort
  | 0, p => p
  | n + 1, p =>
    if p.tx.isEmpty || 1024 ≤ p.replay.length || p.lanes == 0 then p
    else
      let f := mkFlit p.txSeq 1 ((p.rxSeq + 4095) % 4096) (p.tx.take 248)
      TPort.emit n { p with tx := p.tx.drop 248, txSeq := (p.txSeq + 1) % 4096, replay := p.replay ++ [f], wire := p.wire ++ [f] }

/-- Packet bytes queued on a port and sent as far as may be. -/
def State.tuinilSend (s : State) (port : Nat) (b : Bytes) : State :=
  s.modTport port (fun p => let q := { p with tx := p.tx ++ b }; q.emit (q.tx.length / 248 + 1))

/-- An acknowledgement: flits up to it leave the replay buffer. -/
def TPort.ackTo (p : TPort) (a : Nat) : TPort :=
  if p.replay.any (fun f => f.seq == a) then { p with replay := (p.replay.dropWhile (fun f => f.seq != a)).drop 1 } else p

/-- A NAK sent by a receiver: it carries the last good flit. -/
def TPort.nak (p : TPort) : TPort := { p with wire := p.wire ++ [mkFlit 0 2 ((p.rxSeq + 4095) % 4096) []] }

/-- TUINIL_FLIT_RECEIVE (R472, R473, R476): a good data flit in order joins the stream, and its whole packets are taken; anything else is
discarded, and a bad one answered by a NAK. -/
def execTuinilFlitReceive (port : Nat) (f : Flit) (s : State) : Res :=
  let p := s.tport port
  if p.lanes == 0 then .next s
  else if crc32 (flitBytes f) != f.fcrc || 3 ≤ f.kind then .next (s.modTport port TPort.nak)
  else
    let p1 := (p.ackTo f.ack).emit 1024
    let s1 := { s with tports := s.tports.set port p1 }
    if f.kind == 0 then .next s1
    else if f.kind == 2 then .next (s1.push (.tuinilNakReceive port f.ack))
    else if f.seq != p1.rxSeq then .next (s1.modTport port TPort.nak)
    else
      let r := takePkts 16 (p1.rx ++ f.stream)
      let p2 := { p1 with rxSeq := (p1.rxSeq + 1) % 4096, rx := r.2.2, badPkts := p1.badPkts + r.2.1 }
      .next (({ s with tports := s.tports.set port p2 } : State).pushAll (r.1.filterMap (fun q =>
        if q.dst != Config.fabid.toNat then none
        else if q.kind == 2 then some (.fabricResultDelivery q)
        else if q.kind == 3 then some (.fabricDoneArrival q) else none)))

/-- TUINIL_NAK_RECEIVE (R473): everything after the acknowledged flit is sent again, and its cycles count against the budget. -/
def execTuinilNakReceive (port ack : Nat) (s : State) : Res :=
  .next (s.modTport port (fun p =>
    let q := p.ackTo ack
    ({ q with wire := q.wire ++ q.replay, retry := q.retry + q.replay.length * (16 / max q.lanes 1) } : TPort).emit 1024))

/-- TUINIL_LANE_DROP (R473): a port over its budget of 256 cycles loses a lane; one with one lane goes down. -/
def execTuinilLaneDrop (port : Nat) (s : State) : Res :=
  .next (s.modTport port (fun p => if 256 < p.retry then { p with lanes := p.lanes - 1, retry := 0 } else { p with retry := 0 }))

/-! ## Fabric groups (R475) -/

/-- The words of a group entry of a function. -/
def State.fgrp (s : State) (fn g : Nat) : Nat × Nat := (((s.fn fn).fgrp.get (2 * g) 0).toNat, ((s.fn fn).fgrp.get (2 * g + 1) 0).toNat)
def grpNm (w : Nat) : Nat := bitsAt w 40 4 + 1
/-- The live ports of a mask, ascending. -/
def State.livePorts (s : State) (mask : Nat) : List Nat := (List.range 12).filter (fun i => mask.testBit i && (s.tport i).lanes != 0)
/-- Does an entry act as EN = 1? -/
def State.grpOn (s : State) (w : Nat × Nat) : Bool :=
  w.1.testBit 0 && decide (bitsAt w.1 16 2 < 2) && decide (bitsAt w.1 32 4 < grpNm w.1) && (bitsAt w.1 28 4 == 3 || bitsAt w.1 28 4 == 8) && !(s.livePorts w.2).isEmpty

/-- A packet of a group sent on the port its chunk selects (R480). -/
def State.fabSend (s : State) (w : Nat × Nat) (p : FabPkt) : State :=
  let ps := s.livePorts w.2
  match ps[p.chunk % max ps.length 1]? with
  | some port => s.tuinilSend port (pktBytes { p with dst := (Config.switchAddr port).toNat })
  | none => s

/-- CONTRIB of a CFRED (R480): its operand word, entries, core, counter. -/
def State.contrib (s : State) (c : Nat) (v : W64) (data : Bytes) (post : Option Nat) : State :=
  let w := s.fgrp (s.partOf c) (bitsAt v.toNat 40 6)
  let token := bitsAt v.toNat 0 23 + coreNo c * 2 ^ 23 + dieOf c * 2 ^ 28 + (post.getD 0) * 2 ^ 30 + (if post.isNone then 2 ^ 36 else 0)
  s.fabSend w { kind := 1, owner := w.1.testBit 1, swgrp := bitsAt w.1 48 16, src := Config.fabid.toNat, dst := 0, epoch := bitsAt v.toNat 32 8, chunk := bitsAt v.toNat 24 8,
                rank := bitsAt w.1 32 4, nm := grpNm w.1, op := bitsAt w.1 16 2, dtype := bitsAt w.1 28 4, token := w64 token, data := data }

end Sys2Proof.Machine
end

