-- ==== Sys2Proof/Machine/Copy.lean ====
section
/-! DEFINITION. The copy engine (12 R304 to R322): window walk, start checks, held and immediate commands, data movement, completion. A command
walks one window element per COPY_COMMAND_START; its reads are bounded by lines, and each piece comes back as a COPY_DATA_RETURN. -/
namespace Sys2Proof.Machine

/-! ## The window (R304 to R306) -/

/-- The coordinates of window element k. -/
def elemCoords (r : Lay) (org : List Int) (k : Nat) : List Int :=
  ((List.range (layRank r)).foldl (fun (a : List Int × Nat) d => (a.1 ++ [org.getD d 0 + ((a.2 % max (layWin r d) 1 : Nat) : Int)], a.2 / max (layWin r d) 1)) ([], k)).1

/-- The address of element k, or none outside the tensor. -/
def elemVa (r : Lay) (org : List Int) (k : Nat) : Option W64 :=
  let cs := (List.range (layRank r)).zip (elemCoords r org k)
  if cs.all (fun c => decide (0 ≤ c.2) && decide (c.2 < (layExt r c.1 : Int))) then
    some (BitVec.ofInt 64 ((layBase r : Int) + cs.foldl (fun a c => a + c.2 * layStr r c.1) 0))
  else none

/-- The bytes of a fill value (R300). -/
def fillBytes (r : Lay) : Bytes :=
  let t := layType r
  if tyQB t then List.replicate (elemBytes t) 0 else if t == 12 then leBytes 4 (layFillv r) ++ leBytes 4 (layFillv r) else leBytes (elemBytes t) (layFillv r)

/-- The pieces of a run of bytes, each within one line: offset and length. -/
def lineParts (va n : Nat) : List (Nat × Nat) :=
  (List.range ((va + n + 63) / 64 - va / 64)).map (fun i =>
    let lo := max (64 * (va / 64 + i)) va - va
    (lo, min (64 * (va / 64 + i) + 64) (va + n) - va - lo))

/-- How many window elements from element e make one contiguous access (R305): those of its row that follow in the tensor, where the stride is the
element's size; else itself alone. -/
def runLen (r : Lay) (org : List Int) (e : Nat) : Nat :=
  let w := max (layWin r 0) 1
  if layStr r 0 == (elemBytes (layType r) : Int) then max 1 ((List.range (w - e % w)).takeWhile (fun j => (elemVa r org (e + j)).isSome)).length else 1

/-- Offset o of an image, interleaved (R306); the map is its own inverse. -/
def interleave (r : Lay) (o : Nat) : Nat :=
  if layBkn r == 0 then o else o ^^^ (o / 2 ^ (layBkg r + layBkn r) % 2 ^ layBkn r * 2 ^ layBkg r)

/-- Bytes an image occupies. -/
def imageSize (r : Lay) : Nat :=
  if layBkn r == 0 then layBytes r else let u := 2 ^ (layBkg r + layBkn r); (layBytes r + u - 1) / u * u
/-- The alignment an image address needs (R306, R313). -/
def imageAlign (r : Lay) : Nat :=
  if layBkn r == 0 then (if tyQB (layType r) then 2 else elemBytes (layType r)) else 2 ^ (layBkg r + layBkn r)

/-- Byte j of element k in the entries of a queue copy (R312, R53, R54). -/
def entOff (t k j : Nat) : Nat :=
  if tyQB t then
    let n := qbBits t
    let i := k % 128 / 4
    let b := k % 4
    k / 128 * splitSize n + (if j < 2 then 512 * n + 8 * i + 2 * b + j else 16 * n * i + 4 * n * b + (j - 2))
  else k * elemBytes t + j

/-- The window elements that entry e holds, from and to. -/
def entElems (r : Lay) (e : Nat) : Nat × Nat :=
  let t := layType r
  if tyQB t then
    let per := (aTile t).getD 1
    let j := e % per
    let w := 64 / qbBits t
    if j + 1 == per then (128 * (e / per), 128 * (e / per) + 128) else (128 * (e / per) + j * w, 128 * (e / per) + (j + 1) * w)
  else (e * 256 / elemBytes t, min (layCount r) ((e + 1) * 256 / elemBytes t))

/-! ## Commands -/

def Core.cmd (k : Core) (id : Nat) : Option CopyCmd := k.ports.find? (fun m => m.id == id)
def Core.setCmd (k : Core) (m : CopyCmd) : Core := { k with ports := k.ports.map (fun x => if x.id == m.id then m else x) }
def Core.dropCmd (k : Core) (id : Nat) : Core := { k with ports := k.ports.filter (fun x => x.id != id) }

/-- Window elements a command walks. -/
def CopyCmd.count (m : CopyCmd) : Nat := layCount m.lay

/-- Does a command read a global window? -/
def CopyKind.reads : CopyKind → Bool
  | .cldq | .clds | .ccpy | .cpref | .cws | .cbcast => true
  | _ => false

/-- The scratchpad address of byte o of a command's image. -/
def CopyCmd.imgAddr (m : CopyCmd) (o : Nat) : Nat := m.a0 + interleave m.lay o

/-- Where window byte b stands in the core's scratchpad. -/
def Core.homeByte (k : Core) (m : CopyCmd) (b : Nat) : Nat :=
  let n := elemBytes (layType m.lay)
  match m.kind with
  | .clds | .csts | .cbcast => m.imgAddr b
  | _ => let o := entOff (layType m.lay) (b / n) (b % n); (k.queue m.q).addr (m.idx + o / 256) + o % 256

/-- Has the command written a byte of its image for good? -/
def CopyCmd.byteDone (m : CopyCmd) (o : Nat) : Bool :=
  let e := elemBytes (layType m.lay)
  let el := o / e
  decide (o < layBytes m.lay) && decide (el < m.next) && (layFillen m.lay || (elemVa m.lay m.org el).isSome) &&
  !m.rds.any (fun r => decide (r.2.1 ≤ o) && decide (o < r.2.1 + r.2.2))

/-- Window bytes from an offset into the core's own scratchpad (R312, R313, R332). -/
def Core.deliver (k : Core) (m : CopyCmd) (off : Nat) (b : Bytes) : Core :=
  let cells := ((List.range b.length).zip b).map (fun x => (k.homeByte m (off + x.1), x.2))
  if m.kind == .cldq then cells.foldl (fun (k : Core) p => (k.writeEntry p.1 [p.2] m.seq).rtMark p.1 1) k
  else
    let k1 := cells.foldl (fun (k : Core) p => k.rtMark p.1 1) { k with spad := k.spad.writeAll cells }
    (nub (cells.map (fun p => p.1 / 8))).foldl (fun k w =>
      if (List.range 8).all (fun i => decide (m.a0 ≤ 8 * w + i) && m.byteDone (interleave m.lay (8 * w + i - m.a0))) then k.setFull w true else k) k1

/-- The arrivals of the entries that elements e to e2 of a CLDQ complete (R312). -/
def CopyCmd.arrivals (m : CopyCmd) (c e e2 : Nat) : List Ev :=
  if m.kind != .cldq then [] else
  let n := elemBytes (layType m.lay)
  (List.range m.n).filterMap (fun j =>
    let (lo, hi) := entElems m.lay j
    if decide (lo < e2) && decide (e < hi) && decide (hi ≤ m.next) && !m.rds.any (fun r => decide (r.2.1 < hi * n) && decide (lo * n < r.2.1 + r.2.2)) then
      some (.queueEntryArrival { core := c, q := m.q, idx := (m.idx + j) % 65536, data := none, flags := 0, seq := m.seq }) else none)

/-- A page of a command's translation, from its start or now (R309). -/
def State.copyPage (s : State) (c : Nat) (m : CopyCmd) (va : W64) (a : Acc) : Tr :=
  match Tab.findL m.pas (va.toNat / 4096) with
  | some p => .pa (p * 4096 + va.toNat % 4096)
  | none => s.translate c (1 + m.port) (s.pasidOf c) va a 1

/-- The pieces of a run translated, or why not: the first piece that misses or faults. -/
def State.copyParts (s : State) (c : Nat) (m : CopyCmd) (va : W64) (a : Acc) (n : Nat) : Except (W64 × Tr) (List (Nat × Nat × Nat)) :=
  (lineParts va.toNat n).foldr (fun p acc =>
    let v := va + w64 p.1
    match s.copyPage c m v a with
    | .pa x => acc.map (fun l => (p.1, p.2, x) :: l)
    | t => .error (v, t)) (.ok [])

/-! ## Start of a held command: its pages (R309) -/

/-- Pages translated in walk order, up to the first that misses or faults. -/
def State.preCheck (s : State) (c : Nat) (m : CopyCmd) : Nat → Nat → List (Nat × Nat) → Except (W64 × Tr) (List (Nat × Nat))
  | 0, _, l => .ok l
  | n + 1, k, l =>
    let e := elemBytes (layType m.lay)
    let one (r : Lay) (org : List Int) (a : Acc) (l : List (Nat × Nat)) : Except (W64 × Tr) (List (Nat × Nat)) :=
      match elemVa r org k with
      | none => .ok l
      | some va => (s.copyParts c { m with pas := [] } va a e).map (fun ps =>
          ps.foldl (fun l p => let pg := (va.toNat + p.1) / 4096; if (Tab.findL l pg).isSome then l else (pg, p.2.2 / 4096) :: l) l)
    let acc : Acc := if m.kind == .cred then .rw else if m.kind.reads then .r else .w
    match one m.lay m.org acc l with
    | .error x => .error x
    | .ok l1 =>
      match (if m.kind == .ccpy then one m.lay2 m.org2 .w l1 else .ok l1) with
      | .error x => .error x
      | .ok l2 => s.preCheck c m n (k + 1) l2

/-- A command past its start checks: held in its interval, or given to its port (R321). -/
def State.copyGo (s : State) (i : Instr) (m : CopyCmd) : State :=
  let c := s.cur.core
  let o := s.cur.op
  let s1 := s.modCore c (fun k => { k with ports := k.ports ++ [m] })
  if m.held then
    let s2 := s1.modCore c (fun k => k.hold o s.cur.slot m.rel (.copy m.id))
    if o.ival < (s.core c).ival then s2.poke c else s2
  else
    let _ := i
    s1.sendKind c { seq := m.seq, ival := m.ival, pc := m.pc, slot := m.slot, scope := m.scope, rel := false, kind := .copy m.id }

/-- The rest of a start: the port's room, and for a held command its pages and the limit of its port (R309, R310). -/
def State.copyStart (s : State) (i : Instr) (m0 : CopyCmd) : Res :=
  let c := s.cur.core
  let k := s.core c
  let (id, s1) := s.newId
  let m := { m0 with id := id }
  if !m.held then (if Config.portStarted ≤ k.portLoad m.port then .next (s.requeue i) else .next (s1.copyGo i m))
  else match (if m.kind == .crwr || m.kind == .cfred then .ok [] else s.preCheck c m m.count 0 []) with
    | .error (va, .fault code d) => .next ((s.clearWalk c (1 + m.port) va).raise code d va)
    | .error (va, _) => .next ((s.askWalk c (1 + m.port) (s.pasidOf c) va).requeue i)
    | .ok pas =>
      if Config.portHeld ≤ (k.ports.filter (fun x => x.held && x.ival == m.ival && x.port == m.port)).length then .next (s.raise 0x08 0x04 0)
      else .next (s1.copyGo i { m with pas := pas })

/-- n registers from the first, each waiting while empty (R307). -/
def State.regsN (s : State) (i : Instr) (f : List W64 → Res) : Nat → Nat → List W64 → Res
  | 0, _, l => f l.reverse
  | n + 1, r, l => s.reg i true r (fun v => s.regsN i f n (r + 1) (v :: l))

/-- A layout register as its op captured it (R303). -/
def Core.layOf (k : Core) (p : SlipOp) (l : Nat) : Lay :=
  match Tab.findL p.lays l with
  | some v => v
  | none => k.lays.get l 0

/-- A command with what its op and core fix. -/
def State.cmdOf (s : State) (kind : CopyKind) (heldKind : Bool) (acq rel : Bool) (post : Option Nat) (lay : Lay) : CopyCmd :=
  let c := s.cur.core
  let k := s.core c
  let p := s.cur.op
  { id := 0, kind := kind, port := s.cur.slot - 4, seq := p.place k, ival := p.ival, pc := p.pc, slot := s.cur.slot, scope := p.scope, acq := acq, rel := rel,
    post := post, lay := lay, held := heldKind && holds c k }

/-- Does the range table hold back one of the bytes that a copy of an image touches (R333): those of its elements in the tensor? -/
def Core.imageGated (k : Core) (r : Lay) (org : List Int) (a : Nat) : Bool :=
  let n := elemBytes (layType r)
  k.rts.l.any (fun p => p.2.valid) && (List.range (layCount r)).any (fun e =>
    (elemVa r org e).isSome && (List.range n).any (fun j => k.gated (a + interleave r (e * n + j)) 1))

/-- A scratchpad image's checks and, where it is gated, its wait on the range table (R309, R333). -/
def State.imageAt (s : State) (i : Instr) (r : Lay) (org : List Int) (a : W64) (src : Bool) (f : Res) : Res :=
  let c := s.cur.core
  let k := s.core c
  if a.toNat % imageAlign r != 0 then .next (s.raise 0x09 0 a)
  else if spadSize c < a.toNat + imageSize r then .next (s.raise 0x0A 0 a)
  else if k.limSpad < a.toNat + imageSize r then .next (s.raise 0x07 4 a)
  else if src && k.imageGated r org a.toNat then .next (s.requeue i) else f

/-- The frame of a window command: its stage guard, its records, and its registers: the origin and `x` more. -/
def State.copyOp (s : State) (i : Instr) (sg : BitVec 4) (l : BitVec 3) (sreg x : Nat) (f : Lay → List Int → List W64 → Res) : Res :=
  let k := s.core s.cur.core
  let p := s.cur.op
  if !k.stageGuard p sg then .next s
  else match (if p.lays.isEmpty then k.copyCheck i else none) with
    | some (code, d, a) => .next (s.raise code d (w64 a))
    | none =>
      let r := k.layOf p l.toNat
      let n := layRank r
      s.regsN i (fun vs => f r ((vs.take n).map (·.toInt)) (vs.drop n)) (n + x) sreg []

def postOf (np : Bool) (c : BitVec 6) : Option Nat := if np then none else some c.toNat

/-- The source entries of a command, all present (R312). -/
def State.srcReady (s : State) (i : Instr) (q n : Nat) (f : Nat → Res) : Res :=
  let k := s.core s.cur.core
  match k.readEnts s.cur.op { b := true, q := BitVec.ofNat 3 q, k := 0 } n with
  | .val _ => f (k.srcIdx s.cur.op q 0)
  | .wait => .next (s.requeue i)
  | .fault c d => .next (s.raise c d 0)

/-! ## The commands (R311 to R320) -/

/-- CLDQ (R312). -/
def execCldq (o : CQ) (s : State) : Res :=
  s.copyOp (.cldq o) o.sg o.l o.s.toNat 0 (fun r org _ =>
    let k := s.core s.cur.core
    s.copyStart (.cldq o) { s.cmdOf .cldq false o.acq o.rel (postOf o.np o.c) r with
      org := org, q := o.q.toNat, idx := k.resvIdx s.cur.op o.q.toNat, n := (layEntries r).getD 0 })

/-- CSTQ (R312). -/
def execCstq (o : CQ) (s : State) : Res :=
  s.copyOp (.cstq o) o.sg o.l o.s.toNat 0 (fun r org _ => s.srcReady (.cstq o) o.q.toNat ((layEntries r).getD 0) (fun idx =>
    s.copyStart (.cstq o) { s.cmdOf .cstq true o.acq o.rel (postOf o.np o.c) r with org := org, q := o.q.toNat, idx := idx, n := (layEntries r).getD 0 }))

/-- CLDS (R313). -/
def execClds (o : CN) (s : State) : Res :=
  s.copyOp (.clds o) o.sg o.l o.s.toNat 1 (fun r org vs => let a := vs.headD 0; s.imageAt (.clds o) r org a false
    (s.copyStart (.clds o) { s.cmdOf .clds false o.acq o.rel (postOf o.np o.c) r with org := org, a0 := a.toNat }))

/-- CSTS (R313). -/
def execCsts (o : CN) (s : State) : Res :=
  s.copyOp (.csts o) o.sg o.l o.s.toNat 1 (fun r org vs => let a := vs.headD 0; s.imageAt (.csts o) r org a true
    (s.copyStart (.csts o) { s.cmdOf .csts true o.acq o.rel (postOf o.np o.c) r with org := org, a0 := a.toNat }))

/-- CCPY (R314). -/
def execCcpy (o : CQ) (s : State) : Res :=
  let k := s.core s.cur.core
  s.copyOp (.ccpy o) o.sg o.l o.s.toNat (layRank (k.layOf s.cur.op o.l.toNat)) (fun r org vs =>
    s.copyStart (.ccpy o) { s.cmdOf .ccpy true o.acq o.rel (postOf o.np o.c) r with org := org, lay2 := k.layOf s.cur.op o.q.toNat, org2 := vs.map (·.toInt) })

/-- CRED (R315). -/
def execCred (o : CQ) (s : State) : Res :=
  s.copyOp (.cred o) o.sg o.l o.s.toNat 0 (fun r org _ => s.srcReady (.cred o) o.q.toNat ((layEntries r).getD 0) (fun idx =>
    s.copyStart (.cred o) { s.cmdOf .cred true o.acq o.rel (postOf o.np o.c) r with org := org, q := o.q.toNat, idx := idx, n := (layEntries r).getD 0 }))

/-- CRWR (R316). -/
def execCrwr (o : CQ) (s : State) : Res :=
  let c := s.cur.core
  let k := s.core c
  let n := o.l.toNat + 1
  if !k.stageGuard s.cur.op o.sg then .next s
  else if !k.qOn o.q then .next (s.raise 0x04 0 0)
  else s.reg (.crwr o) true o.s.toNat (fun v => s.srcReady (.crwr o) o.q.toNat n (fun idx =>
    let t := 32 * bitsAt v.toNat 28 2 + bitsAt v.toNat 23 5
    if bitsAt v.toNat 0 23 % 256 != 0 then .next (s.raise 0x09 0 v)
    else if bitsAt v.toNat 30 34 != 0 || t == c then .next (s.raise 0x04 0 v)
    else if s.partOf t != s.partOf c then .next (s.raise 0x0E 0 v)
    else s.copyStart (.crwr o) { s.cmdOf .crwr true o.acq o.rel (postOf o.np o.c) 0 with v := v, q := o.q.toNat, idx := idx, n := n, a0 := t }))

/-- CPREF (R317). -/
def execCpref (o : CN) (s : State) : Res :=
  s.copyOp (.cpref o) o.sg o.l o.s.toNat 0 (fun r org _ =>
    s.copyStart (.cpref o) { s.cmdOf .cpref false o.acq o.rel (postOf o.np o.c) r with org := org })

/-- CWS (R318). -/
def execCws (o : CN) (s : State) : Res :=
  let c := s.cur.core
  s.copyOp (.cws o) o.sg o.l o.s.toNat 1 (fun r org vs =>
    let w := vs.headD 0
    let win := s.wsWindow (s.partOf c) (dieOf c)
    if !isCtl c && !o.np then .next (s.raise 0x04 0 0)
    else if w.toNat % 256 != 0 then .next (s.raise 0x09 0 w)
    else if win.2 * 65536 < w.toNat + layBytes r then .next (s.raise 0x0D 0 w)
    else s.copyStart (.cws o) { s.cmdOf .cws true o.acq o.rel (postOf o.np o.c) r with org := org, a0 := win.1 * 65536 + w.toNat })

/-- CBCAST (R319). -/
def execCbcast (o : CN) (s : State) : Res :=
  s.copyOp (.cbcast o) o.sg o.l o.s.toNat 1 (fun r org vs => let a := vs.headD 0; s.imageAt (.cbcast o) r org a true
    (s.copyStart (.cbcast o) { s.cmdOf .cbcast true o.acq o.rel (postOf o.np o.c) r with org := org, a0 := a.toNat }))

/-- CZERO (R320). -/
def execCzero (o : CN) (s : State) : Res :=
  s.copyOp (.czero o) o.sg o.l o.s.toNat 0 (fun r org _ =>
    s.copyStart (.czero o) { s.cmdOf .czero true o.acq o.rel (postOf o.np o.c) r with org := org })

/-! ## The walk -/

/-- A command stopped by a fault on its way: it posts nothing, and the fault is taken at the next bundle boundary (R309). -/
def State.copyStop (s : State) (c : Nat) (m : CopyCmd) (code d : Nat) (va : W64) : State :=
  (((s.clearWalk c (1 + m.port) va).modCore c (fun k => k.setCmd { m with stopped := true, phase := 3 })).asyncFault c
    { code := code, detail := d, addr := va, pc := m.pc, slot := m.slot, single := false }).push (.copyCommandComplete c m.id)

/-- One access of a command sent: a read of a piece, or a write. -/
def State.copyAccess (s : State) (c : Nat) (m : CopyCmd) (va : W64) (pa len : Nat) (wr : Option (List (Nat × BitVec 8))) : Nat × State :=
  let sys := isSys pa
  let (id, s1) := s.newSent c (match wr with
    | none => 0
    | some _ => if sys then 2 else 1) (if sys then 4 else 2)
  let a : Access := { die := dieOf c, core := c, id := id, va := va, pa := pa, len := len, wr := wr, l1 := false, pc := m.pc, slot := m.slot, reply := .copy c m.id id }
  let s2 := if wr.isSome then s1.modCore c (fun k => { k with l1 := k.l1.del (pa / 64) }) else s1
  (id, s2.routePa (nodeOf c) (if sys then .base 0 25 else s1.homeNode c pa) pa 1 (if wr.isSome then flitsOf len else 1) (.homeSliceAccess a))

/-- Reads of the pieces of a run that starts at element e and has n elements. -/
def State.copyRead (s : State) (c : Nat) (m : CopyCmd) (e n : Nat) (va : W64) (ps : List (Nat × Nat × Nat)) : State :=
  let b := e * elemBytes (layType m.lay)
  let r := ps.foldl (fun (a : CopyCmd × State) p =>
    let (id, s1) := a.2.copyAccess c m (va + w64 p.1) p.2.2 p.2.1 none
    ({ a.1 with rds := a.1.rds ++ [(id, b + p.1, p.2.1)] }, s1)) (m, s)
  r.2.modCore c (fun k => k.setCmd { r.1 with next := e + n })

/-- Writes of the pieces of a run. -/
def State.copyWrite (s : State) (c : Nat) (m : CopyCmd) (e n : Nat) (va : W64) (ps : List (Nat × Nat × Nat)) (b : Bytes) : State :=
  let r := ps.foldl (fun (a : CopyCmd × State) p =>
    let (id, s1) := a.2.copyAccess c m (va + w64 p.1) p.2.2 p.2.1 (some (cellsAt p.2.2 ((b.drop p.1).take p.2.1)))
    ({ a.1 with wrs := a.1.wrs ++ [id] }, s1)) (m, s)
  r.2.modCore c (fun k => k.setCmd { r.1 with next := e + n })

/-- One element reduce-added at the owner's home slice (R315). -/
def State.copyRadd (s : State) (c : Nat) (m : CopyCmd) (e : Nat) (va : W64) (pa : Nat) (b : Bytes) : State :=
  let t := layType m.lay
  let dst := s.ownerDie pa
  let (id, s1) := s.newSent c 2 (if dst == dieOf c then 2 else 3)
  let a : AtomReq := { core := c, tgt := c, id := id, tk := none, pa := pa, ea := va, aop := if t == 8 then 10 else 2, size := if t == 12 then 6#3 else 4#3, v := w64 (leNat b), c := 0,
                       pc := m.pc, slot := m.slot, part := s.partOf c, pasid := s.pasidOf c, clk := [] }
  let s1 := s1.modCore c (fun k => { k with l1 := k.l1.del (pa / 64) })
  let s2 := s1.sendDirected (nodeOf c) dst (unitSlice dst (s.homeSlice ((s.windowPart pa).getD (s.partOf c)) dst pa)) 1 1
    (some (c, { tk := none, code := 0x0E, detail := 0, pc := m.pc, slot := m.slot, addr := va })) (.atomg a)
  s2.modCore c (fun k => k.setCmd { m with next := e + 1, wrs := m.wrs ++ [id] })

/-- One packet of a CRWR or of one member's CBCAST write sent; `n` bytes are posted with it. -/
def State.copyPacket (s : State) (c : Nat) (m : CopyCmd) (t : Nat) (bc : Bool) (addr : W64) (data : List (Nat × BitVec 8)) (n : Nat) : State :=
  let w : RWrite := { bc := bc, tgt := t, src := c, id := 0, data := data, post := m.post.map (fun x => (x, n)), part := s.partOf c, pasid := s.pasidOf c,
                      pc := m.pc, slot := m.slot, addr := addr }
  if t == c then s.remoteWrite w
  else
    let (id, s1) := s.newSent c 2 (coreScope c t)
    (s1.modCore c (fun k => match k.cmd m.id with
      | some x => k.setCmd { x with wrs := x.wrs ++ [id] }
      | none => k)).sendDirected (nodeOf c) (dieOf t) (unitCore t) 1 (flitsOf data.length) (some (c, { tk := none, code := 0x0E, detail := 0, pc := m.pc, slot := m.slot, addr := addr }))
      (.rwrite { w with id := id })

/-- Bytes by blocks of 256, each a packet's payload (R435). -/
def byBlock (data : List (Nat × BitVec 8)) : List (List (Nat × BitVec 8)) := (nub (data.map (fun p => p.1 / 256))).map (fun b => data.filter (fun p => p.1 / 256 == b))

/-- A CRWR or one member's CBCAST write sent, packet by packet. The last one posts its bytes; a command with REL posts after its release instead
(R271, R272). -/
def State.copySend (s : State) (c : Nat) (m : CopyCmd) (t : Nat) (bc : Bool) (data : List (Nat × BitVec 8)) (n : Nat) (addr : W64) : State :=
  let l := byBlock data
  let s1 := l.dropLast.foldl (fun s b => s.copyPacket c m t bc addr b 0) s
  s1.copyPacket c m t bc addr (l.getLastD []) (if m.rel then 0 else n)

/-- The posts of a CRWR or CBCAST whose release is complete (R271). -/
def State.relPosts (s : State) (c : Nat) (m : CopyCmd) : State :=
  let one (n : Nat) (s : State) (t : Nat) : State := match m.post with
    | some ctr => s.sendPost { tgt := t, ctr := ctr, n := n, src := c, tent := false, ival := m.ival, seq := m.seq, id := 0, part := s.partOf c, pasid := s.pasidOf c,
                               pc := m.pc, slot := m.slot, addr := ctrAddr t ctr }
    | none => s
  match m.kind with
  | .crwr => one (256 * m.n) s m.a0
  | .cbcast => (((s.core c).item.map (·.gang)).getD [c]).foldl (one (layBytes m.lay)) s
  | _ => s

/-- The readers of a command's source entries are done. -/
def Core.cmdReadDone (k : Core) (m : CopyCmd) : Core := k.readersDone ((List.range m.n).map (fun j => (m.q, (m.idx + j) % 65536)))

/-- The bytes of n source entries of a command. -/
def Core.cmdEntries (k : Core) (m : CopyCmd) : Bytes := (List.range m.n).flatMap (fun j => k.spad.readN ((k.queue m.q).addr (m.idx + j)) 256)

/-- Image bytes gathered by a command that reads before it writes, by image offset; bytes that nothing wrote are left out. -/
def CopyCmd.gathered (m : CopyCmd) : List (Nat × BitVec 8) :=
  let e := elemBytes (layType m.lay)
  (List.range m.count).flatMap (fun k => if layFillen m.lay || (elemVa m.lay m.org k).isSome then cellsAt (k * e) (m.buf.readN (k * e) e) else [])

/-- A command whose walk has ended and whose reads have come back: its next phase. -/
def State.copyNext (s : State) (c id : Nat) : State :=
  match (s.core c).cmd id with
  | none => s
  | some m =>
    if m.stopped || m.next < m.count || !m.rds.isEmpty || 3 ≤ m.phase then s
    else
      let done (s : State) : State := (s.modCore c (fun k => match k.cmd id with
        | some x => (k.setCmd { x with phase := 3 })
        | none => k)).push (.copyCommandComplete c id)
      match m.kind with
      | .ccpy => if m.phase == 1 then (s.modCore c (fun k => k.setCmd { m with phase := 2, next := 0 })).push (.copyCommandStart c id) else done s
      | .cws =>
        let win := s.wsWindow (s.partOf c) (dieOf c)
        if (win.1 + win.2) * 65536 < m.a0 + layBytes m.lay || m.a0 < win.1 * 65536 then
          (s.modCore c (fun k => k.setCmd { m with stopped := true, phase := 3, failed := m.failed ++ [(0, w64 (m.a0 - win.1 * 65536), 256 * 0x0E)] })).push (.copyCommandComplete c id)
        else
        let (wid, s1) := if isCtl c then s.newSent c 2 2 else (0, s)
        let s2 := s1.modCore c (fun k => k.setCmd { m with wrs := if isCtl c then [wid] else [] })
        done ((s2.modDie (dieOf c) (fun x => { x with wqueue := x.wqueue ++ [(s.partOf c, m.gathered.map (fun p => (m.a0 + p.1, p.2)), if isCtl c then some (c, wid) else none)] })).push
          (.weightStoreWritePerform (dieOf c)))
      | .cbcast =>
        let data := m.gathered.map (fun p => (m.imgAddr p.1, p.2))
        let gang := (((s.core c).item.map (·.gang)).getD [c])
        done (gang.foldl (fun s t => s.copySend c m t true data (layBytes m.lay) (w64 m.a0)) s)
      | .cstq | .cred => done (s.modCore c (fun k => k.cmdReadDone m))
      | _ => done s

/-- The bytes of element e that a storing command writes, or none where it writes nothing there. -/
def Core.copyData (k : Core) (m : CopyCmd) (e : Nat) : Option Bytes :=
  let n := elemBytes (layType m.lay)
  match m.kind with
  | .czero => some (if layFillen m.lay then fillBytes m.lay else List.replicate n 0)
  | .ccpy => if layFillen m.lay || (elemVa m.lay m.org e).isSome then some (m.buf.readN (e * n) n) else none
  | _ => some ((List.range n).map (fun j => k.spad.read (k.homeByte m (e * n + j))))

/-- The bytes that a storing command writes from element e on: of n elements at most, up to the first that it does not write. -/
def Core.runData (k : Core) (m : CopyCmd) (e n : Nat) : List Bytes := ((List.range n).map (fun j => k.copyData m (e + j))).takeWhile Option.isSome |>.map (·.getD [])

/-- One element of the walk, or one contiguous run of elements (R304, R305). -/
def State.copyElem (s : State) (c : Nat) (m : CopyCmd) (e : Nat) : State :=
  let k := s.core c
  let n := elemBytes (layType m.lay)
  let writing := !m.kind.reads || m.phase == 2
  let skip (m : CopyCmd) (k : Core) : State := (s.setCore c (k.setCmd { m with next := e + 1 })).pushAll (({ m with next := e + 1 } : CopyCmd).arrivals c e (e + 1))
  let run := if m.kind == .cred || m.kind == .cpref then 1 else if m.phase == 2 then runLen m.lay2 m.org2 e else runLen m.lay m.org e
  let data := if writing then k.runData m e run else []
  let cnt := if writing then max data.length 1 else run
  match (if m.phase == 2 then elemVa m.lay2 m.org2 e else elemVa m.lay m.org e) with
  | none =>
    if writing || !layFillen m.lay then skip m k
    else if m.kind == .cldq || m.kind == .clds then skip m (k.deliver { m with next := e + 1 } (e * n) (fillBytes m.lay))
    else if m.kind == .cpref then skip m k
    else skip { m with buf := m.buf.writeAll (cellsAt (e * n) (fillBytes m.lay)) } k
  | some va =>
    match s.copyParts c m va (if m.kind == .cred then .rw else if writing then .w else .r) (cnt * n) with
    | .error (v, .fault code d) => if m.kind == .cpref then (s.clearWalk c (1 + m.port) v).modCore c (fun k => k.setCmd { m with next := e + 1 }) else s.copyStop c m code d v
    | .error (v, _) => s.askWalk c (1 + m.port) (s.pasidOf c) v
    | .ok ps =>
      if !writing then s.copyRead c m e cnt va ps
      else if data.isEmpty then skip m k
      else if m.kind == .cred then s.copyRadd c m e va ((ps.headD (0, 0, 0)).2.2) (data.headD [])
      else s.copyWrite c m e cnt va ps data.flatten

/-- COPY_COMMAND_START (R304, R309, R271): the acquire of an ACQ command, then one element of the walk at a time; CRWR reads its entries and
sends them; CFRED releases first, then sends its contribution (R480). -/
def execCopyCommandStart (core id : Nat) (s : State) : Res :=
  let k := s.core core
  match k.cmd id with
  | none => .next s
  | some m =>
    if m.stopped || 3 ≤ m.phase then .next s
    else if m.phase == 0 then
      if m.acq && !(s.acquireReady core m.scope (some m.seq) && k.sent.all (fun r => r.kind == 2) &&
          k.ports.all (fun x => !x.sent || x.id == id || decide (m.seq ≤ x.seq) || decide (3 ≤ x.phase))) then .next (s.push (.copyCommandStart core id))
      else .next ((s.setCore core ((if m.acq then k.acquire m.scope else k).setCmd { m with phase := 1 })).push (.copyCommandStart core id))
    else if m.kind == .cfred then
      if m.rel && !(s.setCore core (k.dropCmd id)).releaseOk core m.scope then .next (s.push (.copyCommandStart core id))
      else
        let (wid, s1) := (s.setCore core ((k.cmdReadDone m).setCmd { m with phase := 3 })).newSent core 2 5
        let s2 := s1.modCore core (fun x =>
          let y := x.setCmd { m with phase := 3, wrs := [wid] }
          if m.rel && m.held && y.relItem then { y with relWait := none, relItem := false } else y)
        let s3 := (s2.contrib core m.v (k.cmdEntries m) m.post).push (.copyCommandComplete core id)
        .next (if k.items.isEmpty then s3 else s3.poke core)
    else if m.kind == .crwr then
      let data := cellsAt (bitsAt m.v.toNat 0 23) (k.cmdEntries m)
      let s1 := s.setCore core ((k.cmdReadDone m).setCmd { m with phase := 3 })
      .next ((s1.copySend core m m.a0 false data (256 * m.n) (w64 (bitsAt m.v.toNat 0 23))).push (.copyCommandComplete core id))
    else if m.next < m.count then
      let s1 := s.copyElem core m m.next
      match (s1.core core).cmd id with
      | some x => .next (if x.stopped then s1 else if x.next < x.count then s1.push (.copyCommandStart core id) else s1.copyNext core id)
      | none => .next s1
    else .next (s.copyNext core id)

/-- COPY_DATA_RETURN (R304, R312, R313): the bytes of one read go to the command's destination. -/
def execCopyDataReturn (core id k : Nat) (s : State) : Res :=
  let x := s.core core
  match x.cmd id with
  | none => .next s
  | some m =>
    match m.rds.find? (fun r => r.1 == k) with
    | none => .next s
    | some r =>
      let m1 := { m with rds := m.rds.filter (fun r => r.1 != k) }
      let n := elemBytes (layType m.lay)
      let b := m.buf.readN r.2.1 r.2.2
      let x1 := if m.kind == .cldq || m.kind == .clds then x.deliver m1 r.2.1 b else x
      .next (((s.setCore core (x1.setCmd m1)).pushAll (m1.arrivals core (r.2.1 / n) ((r.2.1 + r.2.2 + n - 1) / n))).copyNext core id)

/-- COPY_COMMAND_COMPLETE (R310, R271): every access performed, then the release of a REL command, then the post. -/
def execCopyCommandComplete (core id : Nat) (s : State) : Res :=
  let k := s.core core
  match k.cmd id with
  | none => .next s
  | some m =>
    if m.phase < 3 || !m.rds.isEmpty || m.wrs.any (fun w => k.sent.any (fun r => r.id == w)) || (m.rel && !m.stopped && m.kind != .cfred && !s.releaseOk core m.scope) then
      .next (s.push (.copyCommandComplete core id))
    else
      let relHeld := m.rel && m.held && m.kind != .cfred && k.relItem
      let k1 := k.dropCmd id
      let s0 := s.setCore core (if relHeld then { k1 with relWait := none, relItem := false } else k1)
      let s1 := match m.failed.foldl (fun (a : Option (Nat × W64 × Nat)) x => match a with
          | some y => if x.1 < y.1 then some x else some y
          | none => some x) none with
        | some (_, va, d) => s0.asyncFault core { code := d / 256, detail := d % 256, addr := va, pc := m.pc, slot := m.slot, single := false }
        | none => s0
      let s2 := if m.stopped || m.kind == .cfred then s1
        else if m.kind == .crwr || m.kind == .cbcast then (if m.rel then s1.relPosts core m else s1)
        else match m.post with
          | some ctr => s1.push (.counterPost { tgt := core, ctr := ctr, n := layBytes m.lay, src := core, tent := !m.held && (m.kind == .cldq || m.kind == .clds || m.kind == .cpref),
                                                ival := m.ival, seq := m.seq, id := 0, part := s.partOf core, pasid := s.pasidOf core, pc := m.pc, slot := m.slot, addr := ctrAddr core ctr })
          | none => s1
      .next (if k.items.isEmpty then s2 else s2.poke core)

end Sys2Proof.Machine
end

