-- ==== Sys2Proof/Machine/Fabric.lean ====
section
/-! DEFINITION. Fabric reductions (21 R478 to R484): CFRED, results and completions. -/
namespace Sys2Proof.Machine

/-- CFRED (R478, R479). -/
def execCfred (l q : BitVec 3) (sr c : BitVec 6) (rel np : Bool) (sg : BitVec 4) (s : State) : Res :=
  let i : Instr := .cfred l q sr c rel np sg
  let cc := s.cur.core
  let k := s.core cc
  let n := l.toNat + 1
  if !k.stageGuard s.cur.op sg then .next s
  else if !k.qOn q then .next (s.raise 0x04 0 0)
  else s.reg i true sr.toNat (fun v =>
    let w := s.fgrp (s.partOf cc) (bitsAt v.toNat 40 6)
    let a := bitsAt v.toNat 0 23
    if bitsAt v.toNat 46 18 != 0 || v.getLsbD 23 || !s.grpOn w then .next (s.raise 0x04 0 v)
    else if l.toNat != bitsAt w.1 21 3 || k.qTy q != bitsAt w.1 28 4 then .next (s.raise 0x04 0 v)
    else if a % 256 != 0 then .next (s.raise 0x09 0 v)
    else if 4194304 < a + 256 * n then .next (s.raise 0x0A 0 v)
    else if k.limSpad < a + 256 * n then .next (s.raise 0x07 4 v)
    else s.srcReady i q.toNat n (fun idx =>
      s.copyStart i { s.cmdOf .cfred true false rel (postOf np c) 0 with v := v, q := q.toNat, idx := idx, n := n }))

/-- The entry of a function's group that a packet names, if the function has one in use. -/
def State.groupOf (s : State) (fn swgrp : Nat) : Option (Nat × Nat) :=
  ((List.range 64).map (s.fgrp fn)).find? (fun w => w.1.testBit 0 && bitsAt w.1 48 16 == swgrp)

/-- A packet's answer to the switch (R481). -/
def fabReply (p : FabPkt) (kind : Nat) : FabPkt := { p with kind := kind, src := Config.fabid.toNat, data := [] }

/-- A post of the fabric on a core's counter: firm, from another agent (R325, R481). -/
def State.fabPost (s : State) (c ctr n : Nat) : State :=
  let k := s.core c
  let p : Post := { tgt := c, ctr := ctr, n := n, src := 1000, tent := false, ival := 0, seq := 0, id := 0, part := 0, pasid := 0, pc := 0, slot := 7, addr := 0 }
  if k.limNctr ≤ ctr then s
  else match k.postFault false p with
    | some d => s.asyncFault c { code := 0x13, detail := d, addr := ctrAddr c ctr, pc := 0, slot := 7, single := false }
    | none => match k.post ctr n 0 with
      | some k1 => s.setCore c k1
      | none => s

/-- FABRIC_RESULT_DELIVERY (R481): written, counted and posted at the core that the token names, where it runs an item of a partition that
owns the group; otherwise refused. -/
def execFabricResultDelivery (p : FabPkt) (s : State) : Res :=
  let t := p.token.toNat
  let c := 32 * bitsAt t 28 2 + bitsAt t 23 5
  match (s.core c).item with
  | none => .next (match (List.range 16).findSome? (fun n => s.groupOf n p.swgrp) with
    | some w => s.fabSend w (fabReply p 5)
    | none => s)
  | some it =>
    match s.groupOf it.part p.swgrp with
    | none => .next (match (List.range 16).findSome? (fun n => s.groupOf n p.swgrp) with
      | some w => s.fabSend w (fabReply p 5)
      | none => s)
    | some w =>
      let s1 := s.modCore c (fun k => k.copyBytes (cellsAt (bitsAt t 0 23) p.data))
      let s2 := if t.testBit 36 then s1 else s1.fabPost c (bitsAt t 30 6) p.data.length
      .next (s2.fabSend w (fabReply p 4))

/-- FABRIC_DONE_ARRIVAL (R482, R484): the CFRED of the key is acknowledged. -/
def execFabricDoneArrival (p : FabPkt) (s : State) : Res :=
  let t := p.token.toNat
  let c := 32 * bitsAt t 28 2 + bitsAt t 23 5
  match (s.core c).ports.find? (fun m => m.kind == .cfred && decide (3 ≤ m.phase) && bitsAt m.v.toNat 32 8 == p.epoch && bitsAt m.v.toNat 24 8 == p.chunk &&
      bitsAt (s.fgrp (s.partOf c) (bitsAt m.v.toNat 40 6)).1 48 16 == p.swgrp) with
  | some m => .next (m.wrs.foldl (fun s id => s.unsent c id) s)
  | none => .next s

end Sys2Proof.Machine
end

