-- ==== Sys2Proof/Machine/Channel.lean ====
section
/-! DEFINITION. Channel-class memory (11): the channel table, CHOPEN, CHCLOSE, CHSTAT, CHWR, CHRD, ring and spill, commits, and the Proofer. -/
namespace Sys2Proof.Machine

/-! ## The table (R280 to R282) -/

def State.chan (s : State) (ch : Nat) : Chan := (s.die (chanDie ch)).chans.get ch {}
def State.setChan (s : State) (ch : Nat) (e : Chan) : State := s.modDie (chanDie ch) (fun x => { x with chans := x.chans.set ch e })
/-- Entries of the ring, and the capacity (R282). -/
def Chan.re (e : Chan) : Nat := 2 ^ (e.logring + 4)
def Chan.cap (e : Chan) : Nat := e.re + e.spmax * 4096
def Chan.writer (e : Chan) : Nat := 32 * e.wdie + e.wcore
def Chan.reader (e : Chan) : Nat := 32 * e.rdie + e.rcore

/-- Word n of an entry (R281). -/
def Chan.word (e : Chan) (n : Nat) : W64 :=
  match n with
  | 0 => w64 (e.ringoff * 2 ^ 55 + e.rslice * 2 ^ 51 + e.chnum * 2 ^ 36 + e.logring * 2 ^ 32 + e.rcore * 2 ^ 19 + e.rdie * 2 ^ 17 + e.wcore * 2 ^ 12 +
              e.wdie * 2 ^ 10 + (if e.spill then 256 else 0) + e.ty * 16 + (if e.open_ then 1 else 0))
  | 1 => w64 (e.spfirst * 2 ^ 48 + e.spmax * 2 ^ 36 + e.spq * 2 ^ 24 + e.part * 2 ^ 20)
  | 2 => w64 e.tailw
  | 3 => w64 e.tailo
  | 4 => w64 e.headr
  | 5 => w64 e.heado
  | 6 => w64 e.rtail
  | _ => w64 e.spinit

/-- Quanta of a partition's reserve not yet taken (R279). -/
def Part.resFree (p : Part) : Nat := p.resTotal - p.resUsed.length
/-- The lowest free quanta. -/
def Part.freeQuanta (p : Part) : List Nat := (List.range p.resTotal).filter (fun q => !p.resUsed.any (fun u => u % 65536 == q))
/-- n quanta taken for a channel. -/
def Part.takeQuanta (p : Part) (ch n : Nat) : Part := { p with resUsed := p.resUsed ++ (p.freeQuanta.take n).map (fun q => ch * 65536 + q) }
def Part.dropQuanta (p : Part) (ch : Nat) : Part := { p with resUsed := p.resUsed.filter (fun u => u / 65536 != ch) }

/-- The rings that stand in a slice: offset and size in 4 KiB units. -/
def Die.rings (x : Die) (sl : Nat) : List (Nat × Nat) := (x.chans.l.filter (fun e => e.2.open_ && e.2.rslice == sl)).map (fun e => (e.2.ringoff, 2 ^ e.2.logring))
/-- Slice and offset for a ring: the lowest slice, then the lowest aligned offset, within 2 MiB (R278, R283). -/
def Die.ringPlace (x : Die) (size : Nat) : Option (Nat × Nat) :=
  (List.range 16).findSome? (fun sl => ((List.range (512 / size)).find? (fun i => !(x.rings sl).any (fun r => decide (r.1 < i * size + size) && decide (i * size < r.1 + r.2)))).map
    (fun i => (sl, i * size)))

def Core.chanEnd (k : Core) (ch : Nat) : ChanEnd := k.chans.get ch {}
def Core.setChanEnd (k : Core) (ch : Nat) (e : ChanEnd) : Core := { k with chans := k.chans.set ch e }

/-! ## Opening and closing (R283 to R285) -/

/-- An image with the RW fields it gives; none of the RO fields (R281). -/
def chanOfImage (v : Nat) : Chan :=
  { open_ := true, spinit := bitsAt v 448 12, chnum := bitsAt v 36 12, logring := bitsAt v 32 4, rcore := bitsAt v 19 5, rdie := bitsAt v 17 2,
    wcore := bitsAt v 12 5, wdie := bitsAt v 10 2, ty := bitsAt v 4 4, spmax := bitsAt v 448 12 }
def imageReserved (v : Nat) : Bool := bitsAt v 460 52 != 0 || bitsAt v 48 400 != 0 || bitsAt v 24 8 != 0 || bitsAt v 8 2 != 0 || bitsAt v 0 4 != 0

/-- CHOPEN's status and effect for an image (R283, R284). -/
def State.chanOpen (s : State) (part v : Nat) : Nat × State :=
  let e := chanOfImage v
  if s.partOf e.writer != part || s.partOf e.reader != part then (5, s)
  else if (s.chan e.chnum).open_ then (1, s)
  else if imageReserved v || 13 ≤ e.ty || 8 < e.logring || e.writer == e.reader || chanDie e.chnum != e.rdie then (2, s)
  else match (s.die e.rdie).ringPlace (2 ^ e.logring) with
    | none => (3, s)
    | some (sl, off) =>
      if (s.part part).resFree < e.spinit then (4, s)
      else
        let first := if e.spinit == 0 then 0xFFFF else (s.part part).freeQuanta.headD 0xFFFF
        let s1 := (s.modPart part (fun p => p.takeQuanta e.chnum e.spinit)).setChan e.chnum { e with part := part, rslice := sl, ringoff := off, spfirst := first }
        let start (k : Core) : Core := let due := (k.chanEnd e.chnum).due; k.setChanEnd e.chnum { cap := e.cap, due := due, stale := due }
        (0, (s1.modCore e.writer start).modCore e.reader start)

/-- CHOPEN (R283): control cores only. -/
def execChopen (d a : BitVec 6) (s : State) : Res :=
  let c := s.cur.core
  if !isCtl c then .next (s.raise 0x02 0 0)
  else s.reg (.chopen d a) true a.toNat (fun v =>
    if v.toNat % 64 != 0 then .next (s.raise 0x09 0 v)
    else if 1047552 < v.toNat + 64 then .next (s.raise 0x0A 0 v)
    else
      let (st, s1) := s.chanOpen (s.partOf c) (leNat ((s.core c).spad.readN v.toNat 64))
      .next (s1.later d.toNat (w64 st)))

/-- A CHRD position that the table will not deliver: fault 0x11 at the reader (R285, R292). -/
def State.rejectRead (s : State) (r : ChRead) : State :=
  s.rejectTo (128 + chanDie r.ch) r.core { tk := none, code := 0x11, detail := 3, pc := r.pc, slot := r.slot, addr := w64 r.ch }

/-- CHCLOSE's status and effect (R284, R285). -/
def State.chanClose (s : State) (part ch : Nat) (force : Bool) : Nat × State :=
  let e := s.chan ch
  if e.open_ && e.part != part then (5, s)
  else if !e.open_ then (1, s)
  else if !force && e.tailw != e.heado then (6, s)
  else
    let s1 := (s.modPart part (fun p => p.dropQuanta ch)).setChan ch {}
    let note (t : Nat) (s : State) : State :=
      (s.modCore t (fun k => k.setChanEnd ch { k.chanEnd ch with due := (k.chanEnd ch).due + 1 })).route (.ctl (chanDie ch)) (nodeOf t) 3 1 (.channelCloseNotice t ch)
    (0, e.reads.foldl (fun (s : State) r => s.rejectRead r) (note e.reader (note e.writer s1)))

/-- CHCLOSE (R285): control cores only. -/
def execChclose (d a : BitVec 6) (f : Bool) (s : State) : Res :=
  let c := s.cur.core
  if !isCtl c then .next (s.raise 0x02 0 0)
  else s.reg (.chclose d a f) true a.toNat (fun v =>
    if bitsAt v.toNat 12 52 != 0 then .next (s.raise 0x04 0 0)
    else
      let (st, s1) := s.chanClose (s.partOf c) v.toNat f
      .next (s1.later d.toNat (w64 st)))

/-- CHANNEL_CLOSE_NOTICE (R285): the end knows; what it sends later faults. A notice of a closing before the channel was opened again says nothing
of the open one (log 114). -/
def execChannelCloseNotice (core ch : Nat) (s : State) : Res :=
  .next (s.modCore core (fun k =>
    let e := k.chanEnd ch
    k.setChanEnd ch (if e.stale == 0 then { e with closed := true, due := e.due - 1 } else { e with stale := e.stale - 1, due := e.due - 1 })))

/-! ## Answers of the table (R286, R287) -/

/-- The register that names an op's channel, and the word it wants. -/
def chanArg : Instr → Option (Nat × Nat)
  | .chwr _ _ sr _ _ => some (sr.toNat, 0)
  | .chrd _ _ sr _ _ => some (sr.toNat, 0)
  | .chstat _ a n => some (a.toNat, n.toNat)
  | _ => none

/-- CHANNEL_TABLE_ANSWER (R287): the table's word for the op that waits at the head of a slot, and the entry's owner if it is open. -/
def execChannelTableAnswer (core slot : Nat) (s : State) : Res :=
  let k := s.core core
  match k.slots.get slot [] with
  | p :: r =>
    match p.answer, chanArg p.op with
    | some none, some (reg, n) =>
      match k.readReg p true reg with
      | .val v =>
        let e := s.chan (v.toNat % 4096)
        .next (s.setCore core { k with slots := k.slots.set slot ({ p with answer := some (some { word := e.word n, open_ := e.open_, part := e.part, writer := e.writer, reader := e.reader }) } :: r) })
      | _ => .next s
    | _, _ => .next s
  | [] => .next s

/-- The table is asked once, and the op waits in its slot for the answer. -/
def State.askTable (s : State) (i : Instr) (ch : Nat) (f : TableAnswer → Res) : Res :=
  let c := s.cur.core
  match s.cur.op.answer with
  | some (some a) => f a
  | some none => .next (s.requeue i)
  | none =>
    .next ((({ s with cur := { s.cur with op := { s.cur.op with answer := some none } } } : State).requeue i).route (.ctl (chanDie ch)) (nodeOf c) 2 1
      (.channelTableAnswer c s.cur.slot))

/-- CHSTAT (R286). -/
def execChstat (d a : BitVec 6) (n : BitVec 3) (s : State) : Res :=
  s.reg (.chstat d a n) true a.toNat (fun v =>
    if bitsAt v.toNat 12 52 != 0 then .next (s.raise 0x04 0 0)
    else s.askTable (.chstat d a n) v.toNat (fun w =>
      if w.open_ && w.part != s.partOf s.cur.core then .next (s.raise 0x0E 0 v) else .next (s.later d.toNat w.word)))

/-- The checks of CHWR and CHRD (R287); TADDR receives the channel number. -/
def State.chanOp (s : State) (i : Instr) (q : BitVec 3) (sg : BitVec 4) (sr : BitVec 6) (wr : Bool) (f : Nat → Res) : Res :=
  let c := s.cur.core
  let k := s.core c
  if !k.stageGuard s.cur.op sg then .next s
  else if isCtl c then .next (s.raise 0x07 3 0)
  else if !k.qOn q then .next (s.raise 0x04 0 0)
  else s.reg i true sr.toNat (fun v =>
    if bitsAt v.toNat 12 52 != 0 then .next (s.raise 0x04 0 (w64 (v.toNat % 4096)))
    else s.askTable i v.toNat (fun w =>
      if !w.open_ then .next (s.raise 0x11 3 v)
      else if (if wr then w.writer else w.reader) != c || w.part != s.partOf c then .next (s.raise 0x11 (if wr then 1 else 2) v)
      else if bitsAt w.word.toNat 4 4 != k.qTy q then .next (s.raise 0x04 0 v)
      else f v.toNat))

/-! ## CHWR and CHRD (R288, R289) -/

def isChwr : Instr → Bool
  | .chwr .. => true
  | _ => false

/-- Entries of CHWRs captured in an interval (R288). -/
def Core.captured (k : Core) (ival : Nat) : Nat :=
  k.items.foldl (fun a i => if i.ival == ival then (match i.kind with
    | .chwr _ _ es => a + es.length
    | _ => a) else a) 0

/-- May a CHWR of n entries go, by what was last reported (R288)? -/
def ChanEnd.room (e : ChanEnd) (m : Nat) : Bool := decide (e.tailw + e.wpend + m ≤ e.cap + e.heado)
/-- Entries of a CHWR that a replay suppresses. -/
def ChanEnd.suppressed (e : ChanEnd) (n : Nat) : Nat := min n (e.tailw - e.wpos)

/-- The entries that an enabled CHWR waiting in a slot will produce for a channel; none where it does not know its channel yet. -/
def Core.chwrFor (k : Core) (ch : Nat) (o : SlipOp) : Option Nat :=
  match o.op with
  | .chwr l _ sr _ sg =>
    if !k.stageGuard o sg then some 0
    else (o.capVal sr.toNat).map (fun v => if v == w64 ch then l.toNat + 1 else 0)
  | _ => some 0

/-- The entries that CHWRs of a channel up to a place in program order, still waiting in slots, will produce; none where one does not know its
channel yet. -/
def Core.waitingWrites (k : Core) (ch seq : Nat) : Option Nat :=
  k.slots.l.foldl (fun a x => x.2.foldl (fun (a : Option Nat) o => if o.seq ≤ seq then a.bind (fun n => (k.chwrFor ch o).map (fun m => n + m)) else a) a) (some 0)

/-- A report to the writer's core (R292). -/
def State.chanReport (s : State) (ch : Nat) (r : ChReport) : State :=
  s.route (.ctl (chanDie ch)) (nodeOf (s.chan ch).writer) 3 1 (.channelReportArrival (s.chan ch).writer ch r)

/-- Spilled quanta (R281), as if the oldest entry stood at the start of one (log 105). -/
def Chan.countSpill (e : Chan) : Chan := { e with spq := (e.tailw - e.rtail + 4095) / 4096, spill := decide (e.rtail < e.tailw) }

/-- May the oldest spilled entry move into the ring? -/
def Chan.canRefill (e : Chan) : Bool := e.open_ && e.spill && decide (e.rtail - e.heado < e.re)

/-- The commits of an entry that can be made: HEADR and HEADO in order, once all below is delivered; TAILO once appended (R290). -/
def Chan.commitN : Nat → Chan → Chan
  | 0, e => e
  | n + 1, e =>
    match e.headrWant with
    | (v, ob) :: r =>
      if (List.range (v - e.headr)).all (fun i => e.delivered.contains (e.headr + i)) then
        Chan.commitN n { e with headrWant := r, headr := max e.headr v, delivered := e.delivered.filter (fun d => decide (v ≤ d)), heado := if ob then max e.headr v else e.heado }
      else e
    | [] => e

def Chan.commit (e : Chan) : Chan :=
  let e1 := Chan.commitN e.headrWant.length e
  let w := e1.tailoWant.filter (fun v => decide (v ≤ e1.tailw))
  { e1 with tailo := w.foldl max e1.tailo, tailoWant := e1.tailoWant.filter (fun v => decide (e1.tailw < v)),
            data := if e1.heado == e.heado then e1.data else ⟨e1.data.l.filter (fun p => decide (e1.heado ≤ p.1))⟩ }

/-- An entry looked at again after a change: commits, the report of HEADO, the refill. -/
def State.chanTouch (s : State) (ch : Nat) : State :=
  let e := s.chan ch
  let e1 := e.commit
  let s1 := s.setChan ch e1
  let s2 := if e1.heado == e.heado then s1 else s1.chanReport ch (.heado e1.heado)
  if e1.canRefill && !s2.clk.pending.contains (.spillRefill ch) then s2.push (.spillRefill ch) else s2

/-- A writer's operator-boundary commits to its channel's table, those whose entries are known (R290, log 114). -/
def State.placeWant (s : State) (c ch : Nat) : State :=
  let k := s.core c
  let e := k.chanEnd ch
  let known (w : Nat) : Option Nat := (k.waitingWrites ch w).map (fun n => e.wpos + n)
  let ready := e.wants.filterMap known
  if ready.isEmpty then s
  else
    let s1 := s.setCore c (k.setChanEnd ch { e with wants := e.wants.filter (fun w => (known w).isNone) })
    let t := s.chan ch
    (s1.setChan ch { t with tailoWant := t.tailoWant ++ ready }).chanTouch ch
/-- Those of all channels of a core. -/
def State.placeWants (s : State) (c : Nat) : State :=
  ((s.core c).chans.l.filter (fun x => !x.2.wants.isEmpty)).foldl (fun (s : State) x => s.placeWant c x.1) s

/-- CHWR (R288). -/
def execChwr (l q : BitVec 3) (sr : BitVec 6) (rel : Bool) (sg : BitVec 4) (s : State) : Res :=
  let i : Instr := .chwr l q sr rel sg
  let c := s.cur.core
  let k := s.core c
  let p := s.cur.op
  let n := l.toNat + 1
  s.chanOp i q sg sr true (fun ch =>
    let e := k.chanEnd ch
    let sup := e.suppressed n
    let m := n - sup
    if k.slots.l.any (fun x => x.2.any (fun o => isChwr o.op && decide (o.seq < p.place k))) || !e.room m || s.relBlocked rel then .next (s.requeue i)
    else match k.readEnts p { b := true, q := q, k := 0 } n with
      | .wait => .next (s.requeue i)
      | .fault code d => .next (s.raise code d 0)
      | .val es =>
        if holds c k && decide (Config.chCapture < k.captured p.ival + m) then .next (s.raise 0x08 0x05 0)
        else
          let e1 := { e with wpos := e.wpos + n, wpend := e.wpend + m, wposC := if p.ival < k.ival then e.wposC + n else e.wposC }
          (((s.setCore c ((k.readersDone p.srcs).setChanEnd ch e1))).placeWants c).actItem i rel (.chwr ch m (es.drop sup)))

/-- CHRD (R289): the positions its issue took, asked of the controller (R436). -/
def execChrd (l q : BitVec 3) (sr : BitVec 6) (acq : Bool) (sg : BitVec 4) (s : State) : Res :=
  let i : Instr := .chrd l q sr acq sg
  let c := s.cur.core
  let k := s.core c
  let p := s.cur.op
  let n := l.toNat + 1
  s.chanOp i q sg sr false (fun ch =>
    let e := k.chanEnd ch
    let took := Tab.findL p.caps 65
    let pos := match took with
      | some (.val v) => v.toNat
      | _ => e.rpos
    let s1 := if took.isSome then s else s.setCore c (k.setChanEnd ch { e with rpos := e.rpos + n })
    let d : ChRead := { core := c, ch := ch, pos := pos, q := q.toNat, idx := k.resvIdx p q.toNat, acq := if acq then some p.scope else none,
                        seq := p.place k, pc := p.pc, slot := s.cur.slot, ask := n }
    .next (s1.route (nodeOf c) (.ctl (chanDie ch)) 1 1 (.channelDelivery d)))

/-! ## Ring and spill (R290 to R292) -/

/-- Positions whose data the controller sends to their entries (R289, R436). -/
def State.deliver (s : State) (rs : List ChRead) : State :=
  rs.foldl (fun (s : State) r => s.route (.ctl (chanDie r.ch)) (nodeOf r.core) 2 3 (.channelDelivery r)) s

/-- CHANNEL_APPEND (R291, R292): at TAILW in order, to the ring or to the spill; rejected where the entry is not open to this writer. -/
def execChannelAppend (a : ChAppend) (s : State) : Res :=
  let s0 := s.unsent a.core a.id
  let e := s.chan a.ch
  if !e.open_ || e.writer != a.core then
    .next (s0.rejectTo (128 + chanDie a.ch) a.core { tk := none, code := 0x11, detail := 3, pc := a.pc, slot := a.slot, addr := w64 a.ch })
  else
    let e1 := a.ents.foldl (fun (e : Chan) b =>
      let p := e.tailw
      let ring := !e.spill && decide (p - e.heado < e.re)
      ({ e with tailw := p + 1, rtail := if ring then p + 1 else e.rtail, data := e.data.set p b } : Chan).countSpill) e
    let s1 := (s0.setChan a.ch e1).chanReport a.ch (.tailw e1.tailw a.ents.length)
    .next ((s1.deliver (e1.reads.filter (fun r => decide (e.tailw ≤ r.pos) && decide (r.pos < e1.tailw)))).chanTouch a.ch)

/-- The positions that a CHRD's request asks for. -/
def readPositions (d : ChRead) : List ChRead := (List.range d.ask).map (fun j => { d with pos := d.pos + j, idx := (d.idx + j) % 65536, ask := 0 })

/-- A CHRD's request at the table (R289, R292): its positions wait for their data, or are rejected where the entry is not open to this reader. -/
def State.takeReads (s : State) (d : ChRead) : State :=
  let t := s.chan d.ch
  if !t.open_ || t.reader != d.core then s.rejectRead d
  else (s.setChan d.ch { t with reads := t.reads ++ (readPositions d) }).deliver ((readPositions d).filter (fun r => decide (r.pos < t.tailw)))

/-- CHANNEL_DELIVERY (R289, R293): a CHRD's request reaches the table; then each entry takes its position's data, after the acquire of a CHRD with
ACQ. -/
def execChannelDelivery (d : ChRead) (s : State) : Res :=
  let e := s.chan d.ch
  if d.ask != 0 then .next (s.takeReads d)
  else if !e.reads.contains d || e.tailw ≤ d.pos then .next s
  else if (match d.acq with
    | some sc => !s.acquireReady d.core sc (some d.seq)
    | none => false) then .next (s.push (.channelDelivery d))
  else
    let k := match d.acq with
      | some sc => (s.core d.core).acquire sc
      | none => s.core d.core
    let k1 := k.entryArrive { core := d.core, q := d.q, idx := d.idx, data := some (e.data.get d.pos (List.replicate 256 0)), flags := 0, seq := d.seq }
    let s1 := (s.setCore d.core k1).setChan d.ch { e with reads := e.reads.erase d, delivered := if e.delivered.contains d.pos then e.delivered else d.pos :: e.delivered }
    .next ((s1.splPoke d.core d.q).chanTouch d.ch)

/-- SPILL_REFILL (R291): the oldest spilled entry moves into the ring. -/
def execSpillRefill (ch : Nat) (s : State) : Res :=
  let e := s.chan ch
  if !e.canRefill then .next s
  else .next ((s.setChan ch ({ e with rtail := e.rtail + 1 } : Chan).countSpill).chanTouch ch)

/-- CHANNEL_REPORT_ARRIVAL (R288, R292); one sent before the channel was closed and opened again says nothing of the open one. -/
def execChannelReportArrival (core ch : Nat) (r : ChReport) (s : State) : Res :=
  .next (s.modCore core (fun k =>
    let e := k.chanEnd ch
    if e.stale != 0 then k else
    k.setChanEnd ch (match r with
      | .tailw v m => { e with tailw := max e.tailw v, wpend := e.wpend - m }
      | .heado v => { e with heado := max e.heado v }
      | .cap v => { e with cap := v })))

/-- The channel commits of a checkpoint at an end core (R290); `ob` at an operator boundary and at HALT. -/
def State.chanCheckpoint (s : State) (c : Nat) (ob : Bool) : State :=
  (s.core c).chans.l.foldl (fun s x =>
    let ch := x.1
    let k := s.core c
    let e := k.chanEnd ch
    let t := s.chan ch
    let s1 := s.setCore c (k.setChanEnd ch { e with wposC := e.wpos, rposC := e.rpos })
    if !t.open_ then s1
    else if t.reader == c then (s1.setChan ch { t with headrWant := t.headrWant ++ [(e.rpos, ob)] }).chanTouch ch
    else if t.writer == c && ob then (s1.modCore c (fun k => k.setChanEnd ch { k.chanEnd ch with wants := e.wants ++ [k.seqNo] })).placeWant c ch
    else s1) s

/-- Channel ends after a rollback (R290): positions of the checkpoint; requests of ops since it are withdrawn. -/
def State.chanRollback (s : State) (c : Nat) (seqC : Nat) : State :=
  (s.core c).chans.l.foldl (fun s x =>
    let k := s.core c
    let e := k.chanEnd x.1
    let t := s.chan x.1
    let gone := k.items.foldl (fun a i => if i.ival == k.ival then (match i.kind with
      | .chwr ch m _ => if ch == x.1 then a + m else a
      | _ => a) else a) 0
    let s1 := s.setCore c (k.setChanEnd x.1 { e with wpos := e.wposC, rpos := e.rposC, wpend := e.wpend - gone, wants := [] })
    if t.open_ && t.reader == c then
      s1.setChan x.1 { t with reads := t.reads.filter (fun r => decide (r.seq ≤ seqC)), delivered := t.delivered.filter (fun d => decide (d < e.rposC)) }
    else if t.open_ && t.writer == c && !e.wants.isEmpty then (s1.setChan x.1 { t with tailoWant := t.tailoWant ++ [e.wposC] }).chanTouch x.1
    else s1) s

/-! ## The Proofer (R294, R295) -/

/-- The positions of a CHRD that waits in a slot (R289). -/
def SlipOp.chrdReads (o : SlipOp) (c : Nat) : List ChRead :=
  match o.op, Tab.findL o.caps 65 with
  | .chrd l q sr _ _, some (.val p) =>
    (match o.capVal sr.toNat, o.resv.find? (fun r => r.1 == q.toNat) with
    | some v, some r => readPositions { core := c, ch := v.toNat, pos := p.toNat, q := q.toNat, idx := r.2.1, acq := none, seq := o.seq, pc := o.pc, slot := 0, ask := l.toNat + 1 }
    | _, _ => [])
  | _, _ => []

/-- Every CHRD position of a core that is still to be delivered: of ops that wait in a slot, of requests on their way, and at the tables. -/
def State.readsOf (s : State) (c : Nat) : List ChRead :=
  (s.core c).slots.l.flatMap (fun x => x.2.flatMap (fun o => o.chrdReads c)) ++
  s.inFlight.flatMap (fun e => match e with
    | .channelDelivery d => if d.core == c then (readPositions d) else []
    | _ => []) ++
  s.dies.l.flatMap (fun d => d.2.chans.l.flatMap (fun e => e.2.reads.filter (fun r => r.core == c)))

/-- Edges of a blocked core: full edge or not, the channel, the other end. A parked item is not in the graph (R423). -/
def State.waitEdges (s : State) (c : Nat) : List (Bool × Nat × Nat) :=
  let k := s.core c
  let full := [4, 5].filterMap (fun sl => match k.slots.get sl [] with
    | o :: _ => (match o.op, o.answer with
      | .chwr l _ sr _ _, some (some _) =>
        (match o.capVal sr.toNat with
        | some v =>
          let e := k.chanEnd v.toNat
          if e.room (l.toNat + 1 - e.suppressed (l.toNat + 1)) then none else some (true, v.toNat, (s.chan v.toNat).reader)
        | none => none)
      | _, _ => none)
    | [] => none)
  let absent := (List.range 6).flatMap (fun sl => match k.slots.get sl [] with
    | o :: _ => o.srcs.filter (fun p => !(k.queue p.1).isPres p.2)
    | [] => []) ++ (match k.stream with
    | some st => if st.running && st.na != 0 then (List.range st.na).map (fun j => (st.q, ((k.queue st.q).head + j) % 65536)) else []
    | none => [])
  let empty := (nub ((s.readsOf c).filterMap (fun r => let t := s.chan r.ch
    if t.open_ && decide (t.tailw ≤ r.pos) && absent.any (fun a => a.1 == r.q && a.2 == r.idx) then some r.ch else none))).map (fun ch => (false, ch, (s.chan ch).writer))
  (full ++ empty).filter (fun e => !s.groups.any (fun g => g.parked.any (fun x => (x.ends.find e.2.1).isSome)))

/-- Has a core issued nothing and started nothing for a window? -/
def State.blockedFor (s : State) (c w : Nat) : Bool := (s.core c).item.isSome && decide ((s.core c).lastAct + w ≤ s.cyc)

/-- A path of edges from a core back to a target, through blocked cores. -/
def State.cyclePath (s : State) (w target : Nat) : Nat → List Nat → Nat → Option (List (Bool × Nat × Nat))
  | 0, _, _ => none
  | n + 1, seen, c =>
    if !s.blockedFor c w then none else
    (s.waitEdges c).findSome? (fun e =>
      if e.2.2 == target then some [e]
      else if seen.contains e.2.2 then none
      else (s.cyclePath w target n (e.2.2 :: seen) e.2.2).map (fun l => e :: l))

/-- The die whose control core takes a partition's channel deadlock (R295). -/
def State.prooferDie (s : State) (part ch : Nat) : Nat := if s.ctlRuns part (chanDie ch) then chanDie ch else (s.partDies part).headD 0

def State.deadlockFault (s : State) (part ch lowest detail : Nat) : State :=
  s.asyncFault (128 + s.prooferDie part ch) { code := 0x12, detail := detail, addr := w64 lowest, pc := 0, slot := 7, single := true }

def lowestOf (l : List Nat) : Nat := l.foldl min (l.headD 0)

/-- May a channel grow (R292)? -/
def State.canGrow (s : State) (ch : Nat) : Bool := let e := s.chan ch; e.open_ && decide (e.spmax < 4095) && decide (1 ≤ (s.part e.part).resFree)

/-- A core of a reported cycle and the bundles it had issued then, as one number. -/
def State.cycleMark (s : State) (m : Nat) : Nat := m * 2 ^ 40 + (s.core m).bundleNo

/-- A cycle that has been reported, by the marks of its cores; marks of cores that have issued since are over (R295). -/
def State.noteCycle (s : State) (part : Nat) (marks : List Nat) : State :=
  s.modPart part (fun p => { p with reported := p.reported.filter (fun m => s.cycleMark (m / 2 ^ 40) == m) ++ marks })

/-- Partitions that hold an open channel. -/
def State.chanParts (s : State) : List Nat := nub (s.dies.l.flatMap (fun d => (d.2.chans.l.filter (fun e => e.2.open_)).map (fun e => e.2.part)))

/-- PROOFER_DETECTION (R294, R295): the first cycle of cores all blocked for the window that is not reported yet: growth of its lowest full
channel, or fault 0x12. -/
def execProoferDetection (part : Nat) (s : State) : Res :=
  let w := max 4096 (s.part part).prfcfg
  let cores := (List.range 128).filter (fun c => s.partOf c == part)
  let members (c : Nat) (es : List (Bool × Nat × Nat)) : List Nat := c :: (es.map (·.2.2)).filter (· != c)
  match cores.findSome? (fun c => match s.cyclePath w c 128 [c] c with
    | some es => if ((members c es).map s.cycleMark).all (fun m => (s.part part).reported.contains m) then none else some (c, es)
    | none => none) with
  | none => .next s
  | some (c, es) =>
      let fulls := (es.filter (·.1)).map (·.2.1)
      let lowest := lowestOf (es.map (·.2.1))
      let note (s : State) : State := s.noteCycle part ((members c es).map s.cycleMark)
      if fulls.isEmpty then .next (note (s.deadlockFault part lowest lowest 1))
      else if !s.canGrow (lowestOf fulls) then .next (note (s.deadlockFault part (lowestOf fulls) lowest 2))
      else .next ((((members c es).foldl (fun s m => s.modCore m (fun k => { k with lastAct := s.cyc })) s).modPart part (fun p => { p with
        growing := p.growing.filter (fun x => x.1 != lowestOf fulls) ++ [(lowestOf fulls, (members c es).map s.cycleMark)] })).push (.channelGrowth part (lowestOf fulls) lowest))

/-- CHANNEL_GROWTH (R292, R295): one more quantum of spill, or fault 0x12 where it has become impossible; dropped where the channel has closed. -/
def execChannelGrowth (part ch lowest : Nat) (s : State) : Res :=
  let e := s.chan ch
  let marks := (((s.part part).growing.find? (fun x => x.1 == ch)).map (·.2)).getD []
  let s := s.modPart part (fun p => { p with growing := p.growing.filter (fun x => x.1 != ch) })
  if !e.open_ then .next s
  else if !s.canGrow ch then .next ((s.deadlockFault part ch lowest 2).noteCycle part marks)
  else
    let first := if e.spfirst == 0xFFFF then (s.part e.part).freeQuanta.headD 0xFFFF else e.spfirst
    .next (((s.modPart e.part (fun p => p.takeQuanta ch 1)).setChan ch { e with spmax := e.spmax + 1, spfirst := first }).chanReport ch (.cap (e.cap + 4096)))

end Sys2Proof.Machine
end

