-- ==== Sys2Proof/Machine/Sched.lean ====
section
/-! DEFINITION. Work and launch (07): records and headers, LAUNCH, WQTAKE, the scoreboard, placement, the start and end of work items, HALT. -/
namespace Sys2Proof.Machine

/-! ## Launch records and kernel headers (R187 to R193) -/

/-- n bytes of a record at an offset, little-endian. -/
def fieldAt (b : Bytes) (off n : Nat) : Nat := leNat ((b.drop off).take n)

def recExt (r : Bytes) (f : Nat) : Nat := fieldAt r (0x10 + 4 * f) 4
def recDep (r : Bytes) (k : Nat) : Nat := fieldAt r (0x30 + 2 * k) 2
def recClass (r : Bytes) : Nat := fieldAt r 0x38 1 % 4
def recDone (r : Bytes) : Nat := fieldAt r 0x3A 1
/-- The target die of a record from an issuing die (R191), which stands for a reserved one too (log 101). -/
def recDie (r : Bytes) (d : Nat) : Nat := let x := fieldAt r 0x39 1 % 8; if 3 < x then d else x

/-- A dependence with a reserved bit or kind (R191). -/
def depBad (d : Nat) : Bool :=
  match bitsAt d 14 2 with
  | 0 => bitsAt d 0 14 != 0
  | 1 => bitsAt d 6 7 != 0
  | 2 => bitsAt d 12 2 != 0
  | _ => true

/-- BADREC (R193). -/
def recBad (r : Bytes) : Bool :=
  fieldAt r 0 8 % 128 != 0 || decide (4 ≤ fieldAt r 0x38 1) || decide (8 ≤ fieldAt r 0x39 1) || (decide (4 ≤ fieldAt r 0x39 1) && decide (fieldAt r 0x39 1 ≤ 6)) ||
  (recDone r).testBit 6 || fieldAt r 0x3B 5 != 0 || (List.range 4).any (fun k => depBad (recDep r k))

def hdrNfield (h : Bytes) : Nat := fieldAt h 6 1
def hdrGang (h : Bytes) : Nat := fieldAt h 7 1
def hdrW (h : Bytes) (f : Nat) : Nat := fieldAt h (8 + f) 1
/-- The place of field f in a WID (R185). -/
def hdrO (h : Bytes) (f : Nat) : Nat := (List.range f).foldl (fun a i => a + hdrW h i) 0
def hdrLimq (h : Bytes) : Nat := fieldAt h 0x18 8
def hdrLims (h : Bytes) : Nat := fieldAt h 0x20 8
def hdrLima (h : Bytes) : Nat := fieldAt h 0x28 8
def hdrLimk (h : Bytes) : Nat := fieldAt h 0x30 8
def hdrQd (h : Bytes) (q : Nat) : Nat := fieldAt h (0x40 + 4 * q) 4
def hdrLogc (h : Bytes) (q : Nat) : Nat := bitsAt (hdrLimq h) (4 * q) 4

/-- The queue descriptors of a header (R188, R189). -/
def hdrQueuesOk (h : Bytes) : Bool :=
  (List.range 8).all (fun q =>
    let d := hdrQd h q
    let lg := hdrLogc h q
    let b := bitsAt d 0 14
    if lg == 0 then d == 0
    else decide (lg ≤ 12) && bitsAt d 14 14 == 0 && decide (bitsAt d 28 4 ≤ 12) && decide (b + 2 ^ lg ≤ bitsAt (hdrLims h) 32 23 / 256) &&
      (List.range q).all (fun j => hdrLogc h j == 0 || decide (b + 2 ^ lg ≤ bitsAt (hdrQd h j) 0 14) || decide (bitsAt (hdrQd h j) 0 14 + 2 ^ hdrLogc h j ≤ b)))

/-- A header the stream controller accepts (R189). -/
def hdrOk (h : Bytes) : Bool :=
  fieldAt h 0 4 == 0x5244484B && fieldAt h 4 2 == 1 && decide (1 ≤ hdrNfield h) && decide (hdrNfield h ≤ 6) && decide (hdrGang h ≤ hdrNfield h) &&
  (List.range 6).all (fun f => decide (f < hdrNfield h) || hdrW h f == 0) && decide (hdrO h 6 ≤ 64) && fieldAt h 0x0E 2 == 0 &&
  fieldAt h 0x10 8 % 4 == 0 && bitsAt (hdrLimq h) 32 32 == 0 &&
  (let l := hdrLims h
   bitsAt l 55 9 == 0 && bitsAt l 13 19 == 0 && bitsAt l 7 1 == 0 && decide (1 ≤ bitsAt l 0 7) && decide (bitsAt l 0 7 ≤ 64) && decide (bitsAt l 8 5 ≤ 24) &&
   bitsAt l 32 23 % 256 == 0 && decide (bitsAt l 32 23 ≤ 4193280)) &&
  (let l := hdrLima h; bitsAt l 23 41 == 0 && bitsAt l 10 6 == 0 && decide (bitsAt l 0 10 ≤ 512) && decide (bitsAt l 16 7 ≤ 64)) &&
  (let l := hdrLimk h
   bitsAt l 23 41 == 0 && bitsAt l 14 2 == 0 && bitsAt l 4 4 == 0 && decide (bitsAt l 16 7 ≤ 64) && decide (bitsAt l 8 6 ≤ 32) && decide (bitsAt l 0 4 ≤ 8)) &&
  hdrQueuesOk h && (h.drop 0x60).all (· == 0)

/-- The work space is valid (R192). -/
def spaceOk (r h : Bytes) : Bool :=
  fieldAt r 8 8 / 2 ^ hdrO h 6 == 0 &&
  (List.range 6).all (fun f =>
    if f < hdrNfield h then decide (1 ≤ recExt r f) && decide (bitsAt (fieldAt r 8 8) (hdrO h f) (hdrW h f) + recExt r f ≤ 2 ^ hdrW h f)
    else recExt r f == 0)

/-- Gang size and number of work items (R186, R191). -/
def gangSize (r h : Bytes) : Nat := (List.range (hdrGang h)).foldl (fun a f => a * recExt r f) 1
def itemCount (r h : Bytes) : Nat := (List.range (hdrNfield h)).foldl (fun a f => a * recExt r f) 1

/-- The WID of work item n, F0 varying fastest (R185, R192). -/
def widOf (r h : Bytes) (n : Nat) : W64 :=
  let go := (List.range (hdrNfield h)).foldl (fun (a : Nat × Nat) f =>
    (a.1 + (a.2 % recExt r f) * 2 ^ hdrO h f, a.2 / recExt r f)) (0, n)
  w64 (fieldAt r 8 8 + go.1)

/-- Enabled tile cores of a partition on a die (R207, R402). -/
def State.enabledCores (s : State) (p d : Nat) : List Nat :=
  ((List.range 32).map (32 * d + ·)).filter (fun c => s.partOf c == p && !(s.die d).disabled.contains (coreNo c))

/-- The checks of R193 that need no header: the status and the target die. -/
def State.launchPre (s : State) (p d : Nat) (r : Bytes) : Nat × Nat :=
  let t := recDie r d
  (if recBad r then 0x02 else if !s.partOnDie p t then 0x06 else 0, t)

/-- The checks of R193 on the header, but SBFULL. -/
def State.launchPost (s : State) (p t : Nat) (r h : Bytes) : Nat :=
  if !hdrOk h then 0x03
  else if !spaceOk r h then 0x08
  else if 32 < gangSize r h then 0x04
  else if (s.enabledCores p t).length < gangSize r h || (s.part p).frmTotal < gangSize r h then 0x05 else 0

/-- What sd receives (R198). -/
def launchWord (st die e held : Nat) : W64 := w64 (held * 2 ^ 16 + die * 2 ^ 14 + e * 2 ^ 8 + st)

/-! ## The scoreboard (R202, R203, R211) -/

/-- One placement decision of a die asked for (R208). -/
def State.pokePlace (s : State) (d : Nat) : State := if s.clk.pending.contains (.gangPlacement d) then s else s.push (.gangPlacement d)

/-- The lowest entry that is FREE, within the partition's quota (R211). -/
def State.freeEntry (s : State) (d p : Nat) : Option Nat :=
  if s.quota d ≤ (s.die d).used (some p) then none
  else (List.range 64).find? (fun e => ((s.die d).entries.get e {}).st == .free)

/-- A launch enters the scoreboard (R199, R202). -/
def State.accept (s : State) (d e p pasid tag : Nat) (r h : Bytes) (hdrVa : W64) : State :=
  let deps := (List.range 4).map (fun k => bitsAt (recDep r k) 14 2 == 0)
  let x := s.die d
  let ent : LEntry :=
    { st := if deps.all id then .ready else .waiting, record := r, hdr := h, part := p, pasid := pasid, tag := tag, hdrVa := hdrVa, readyAt := s.cyc,
      order := x.order, total := itemCount r h, deps := deps }
  (s.setDie d { x with order := x.order + 1, entries := x.entries.set e ent }).pokePlace d

/-- Is a dependence satisfied now (R203)? A counter counts while the partition's context runs on the die. -/
def State.depNow (s : State) (d e k : Nat) : Bool :=
  let x := (s.die d).entries.get e {}
  let v := recDep x.record k
  match bitsAt v 14 2 with
  | 0 => true
  | 1 => s.ctlRuns x.part d && ((s.core (128 + d)).ctrs.get (bitsAt v 0 6) {}).phase == v.testBit 13
  | 2 => let c := s.chan (bitsAt v 0 12); c.open_ && c.part == x.part
  | _ => false

/-- DEPENDENCE_SATISFIED (R202, R203): a dependence observed satisfied stays so; with the last one the entry is READY. -/
def execDependenceSatisfied (die e k : Nat) (s : State) : Res :=
  let x := (s.die die).entries.get e {}
  if x.st != .waiting || !s.depNow die e k then .next s else
  let deps := x.deps.set k true
  let x1 : LEntry := { x with deps := deps, st := if deps.all id then .ready else .waiting, readyAt := s.cyc, aged := false }
  .next ((s.modDie die (fun y => { y with entries := y.entries.set e x1 })).pokePlace die)

/-- The dependences of waiting entries that hold and have not been seen (R203). -/
def State.depsDue (s : State) : List Ev :=
  (List.range 4).flatMap (fun d => (s.die d).entries.l.flatMap (fun e =>
    if e.2.st == .waiting then ((List.range 4).filter (fun k => !e.2.deps.getD k true && s.depNow d e.1 k)).map (fun k => Ev.dependenceSatisfied d e.1 k) else []))

/-! ## Cores and lines free for placement (R207) -/

/-- May a tile core take a new gang: it is vacant, not held, and no post that waits names it (R412)? -/
def State.coreFree (s : State) (c : Nat) : Bool :=
  (s.core c).item.isNone && (s.core c).freeAt && !(s.die (dieOf c)).hold.contains c && !s.peelPosts.any (fun p => p.cores.contains c)

/-- The cores R207 chooses for n members, if they are free. -/
def State.pickCores (s : State) (p d n : Nat) : Option (List Nat) :=
  let f := (s.enabledCores p d).filter s.coreFree
  match (List.range 4).find? (fun q => n ≤ (f.filter (fun c => quadOf c == 4 * d + q)).length) with
  | some q => some ((f.filter (fun c => quadOf c == 4 * d + q)).take n)
  | none => if n ≤ f.length then some (f.take n) else none

/-- The lowest free sync line. -/
def State.freeLine (s : State) (d : Nat) : Option Nat := (List.range 8).find? (fun l => !((s.die d).lines.get l {}).held)

/-- Does a weight-store write of a partition wait on a die (R249)? -/
def State.wsWaiting (s : State) (p d : Nat) : Bool := (s.die d).wqueue.any (fun w => w.1 == p)

/-- Does a new gang of n items fit (R207, R249, R409)? -/
def State.fits (s : State) (p d n : Nat) : Bool :=
  (s.pickCores p d n).isSome && (n == 1 || (s.freeLine d).isSome) && decide (n ≤ (s.part p).frames.length) && !s.wsWaiting p d

/-! ## Work-item start (R205, R206) -/

/-- The queues of a header (R205). -/
def hdrQueues (h : Bytes) : Tab Queue :=
  ⟨((List.range 8).filter (fun q => hdrLogc h q != 0)).map (fun q =>
    (q, { en := true, ty := bitsAt (hdrQd h q) 28 4, base := bitsAt (hdrQd h q) 0 14, logc := hdrLogc h q }))⟩

/-- The capture of R378: what a rollback takes back. -/
def Core.capture (k : Core) : Core :=
  { k with dup := { regs := k.regs, preds := k.preds, fflags := k.sys.fflags, loop := k.loop, queues := k.queues, ctrs := k.ctrs, trst := k.pc, target := k.target, seq := k.seqNo } }

/-- s1 to s15 (R403). -/
def Core.graphRegs (k : Core) : List W64 := (List.range' 1 15).map (fun n => k.base (.reg n))

/-- The state of R205, from the start of the item or from a graph position (R404); the scratchpad is zero after an item of another partition or PASID,
otherwise free values under number n (R11, log 8). What a core keeps besides: acceptances that have arrived, its channel ends, and the running
numbers of this model. -/
def startCore (k : Core) (w : WorkItem) (pos : W64 × List W64) (cyc n : Nat) : Core :=
  let zero := k.lastOwner.isSome && k.lastOwner != some (w.part, w.pasid)
  let h := w.hdr
  let k1 : Core :=
    { regs := ⟨(List.range 15).map (fun i => (i + 1, pos.2.getD i 0))⟩, queues := hdrQueues h, pc := pos.1,
      sys := { widv := w.wid, limq := w64 (hdrLimq h), lims := w64 (hdrLims h), lima := w64 (hdrLima h), limk := w64 (hdrLimk h),
               opbmax := BitVec.ofNat 32 (fieldAt h 0x38 4), trst := pos.1 },
      spad := if zero || k.clean then {} else { cells := [], free := some n }, empty := k.empty,
      opbBase := cyc, lastAct := cyc, rbBase := cyc, seqNo := k.seqNo + 1, bundleNo := k.bundleNo + 4, ival := k.ival + 1,
      splices := ⟨k.splices.l.map (fun x => (x.1, { acc := x.2.acc }))⟩, chans := k.chans, expMax := k.expMax,
      item := some { w with started := false, bpos := pos, bival := k.ival + 1, latIval := k.ival + 1 }, lastOwner := some (w.part, w.pasid), freeAt := false }
  k1.capture

/-- The start values of R205: the entry, and s1 = ARG. -/
def WorkItem.entryPos (w : WorkItem) : W64 × List W64 := (w.entryPc, w.arg :: List.replicate 14 0)

/-- A gang of items on cores, with a line where there are two or more (R186, R207). -/
def State.placeItems (s : State) (d : Nat) (ws : List WorkItem) (cores : List Nat) : State :=
  let line := if ws.length < 2 then none else s.freeLine d
  let s1 := match line with
    | some l => s.modDie d (fun x => { x with lines := x.lines.set l { held := true, g := ws.length, members := cores } })
    | none => s
  (ws.zip cores).foldl (fun s p =>
    let (n, s1) := s.newFresh
    s1.modCore p.2 (fun k => startCore k { p.1 with gang := cores, line := line } p.1.entryPos s.cyc n)) s1

/-- The next gang of an entry placed (R202, R207, R409). -/
def State.placeNext (s : State) (d e : Nat) : State :=
  let x := (s.die d).entries.get e {}
  let g := gangSize x.record x.hdr
  match s.pickCores x.part d g with
  | none => s
  | some cores =>
    let fr := (s.part x.part).frames
    let pc := x.hdrVa + w64 (fieldAt x.hdr 0x10 8)
    let ws := (List.range g).map (fun i => ({ part := x.part, pasid := x.pasid, tag := x.tag, die := d, entry := e, hdr := x.hdr, wid := widOf x.record x.hdr (x.cursor + i), arg := w64 (fieldAt x.record 0x28 8), entryPc := pc, costHint := fieldAt x.hdr 0x3C 4, frame := fr.getD i 0, gang := [], line := none, bpos := (pc, []) } : WorkItem))
    let s1 := s.modPart x.part (fun p => { p with frames := p.frames.drop g })
    let s2 := s1.placeItems d ws cores
    let x1 : LEntry := { x with cursor := x.cursor + g, readyAt := s.cyc, aged := false, st := if x.total ≤ x.cursor + g then .running else .ready }
    (s2.modDie d (fun y => { y with entries := y.entries.set e x1 })).push (.workItemStart cores)

/-- WORK_ITEM_START (R201, R206): every member of a gang starts in one step, after the implied acquire at package scope. -/
def execWorkItemStart (cores : List Nat) (s : State) : Res :=
  if cores.all (fun c => match (s.core c).item with
    | some w => !w.started
    | none => false) then
    .next (cores.foldl (fun s c => s.modCore c (fun k =>
      { k.acquire 3 with item := k.item.map (fun w => { w with started := true }), opbBase := s.cyc, lastAct := s.cyc, rbBase := s.cyc })) (cores.foldl State.dropFaults s))
  else .next s

/-! ## Placement (R208) -/

/-- What may be placed: a READY entry, or a parked group as a pending gang of its entry (R420). -/
inductive Cand where
  | entry (e : Nat)
  | group (g : Nat)
  deriving DecidableEq, Repr

/-- A candidate with its order of acceptance, class, size, and whether it is aged. -/
structure CandRec where
  c : Cand
  order : Nat
  cls : Nat
  n : Nat
  aged : Bool
  deriving DecidableEq, Repr

/-- The gangs of a parked group, by their former cores. -/
def Group.gangs (g : Group) : List (List Nat) := nub (g.parked.map (fun x => x.item.gang))
/-- The gangs that need a line. -/
def Group.lined (g : Group) : List (List Nat) := g.gangs.filter (fun q => decide (2 ≤ (g.parked.filter (fun x => x.item.gang == q)).length))
/-- The lines of a die that are free. -/
def State.freeLines (s : State) (d : Nat) : List Nat := (List.range 8).filter (fun l => !((s.die d).lines.get l {}).held)

/-- Does a parked group fit: its cores, and a line for each of its gangs of two or more (R420)? -/
def State.groupFits (s : State) (g : Group) : Bool :=
  (s.pickCores g.part g.die g.parked.length).isSome && decide (g.lined.length ≤ (s.freeLines g.die).length)

def insertCand (x : CandRec) : List CandRec → List CandRec
  | [] => [x]
  | y :: r => if y.order ≤ x.order then y :: insertCand x r else x :: y :: r

/-- The candidates of a partition on a die, in acceptance order; an entry's parked groups come before its further gangs. A parked group waits
for the vacancy of its posts. -/
def State.cands (s : State) (p d : Nat) : List CandRec :=
  let x := s.die d
  let amax := (x.sel.get p {}).scage
  let gs := (s.groups.filter (fun g => g.st == .parked && g.part == p && g.die == d && !g.parked.isEmpty && !s.peelPosts.any (fun y => g.posts.contains y.id))).map (fun g =>
    let e := x.entries.get ((g.parked.head?.map (·.item.entry)).getD 0) {}
    ({ c := .group g.id, order := e.order, cls := recClass e.record, n := g.parked.length, aged := false } : CandRec))
  let es := (x.entries.l.filter (fun e => e.2.st == .ready && e.2.part == p)).map (fun e =>
    ({ c := .entry e.1, order := e.2.order, cls := recClass e.2.record, n := gangSize e.2.record e.2.hdr,
       aged := amax != 0 && decide (amax ≤ s.cyc - e.2.readyAt) } : CandRec))
  (gs ++ es).foldl (fun l c => insertCand c l) []

def State.candFits (s : State) (p d : Nat) (c : CandRec) : Bool :=
  match c.c with
  | .entry _ => s.fits p d c.n
  | .group g => match s.groups.find? (fun x => x.id == g) with
    | some x => s.groupFits x
    | none => false

def State.placeCand (s : State) (d : Nat) (c : CandRec) : State :=
  match c.c with
  | .entry e => s.placeNext d e
  | .group g => s.pushUrgent (.groupResumePlacement g)

def Sel.q (x : Sel) (c : Nat) : Nat := bitsAt x.scquant.toNat (8 * c) 8

/-- The loop of R208 for one partition: the selection state, and the candidate placed. -/
def selLoop (cs : List CandRec) (fit : CandRec → Bool) : Nat → Sel → Sel × Option CandRec
  | 0, x => (x, none)
  | n + 1, x =>
    let h := cs.find? (fun c => c.cls == x.cls)
    let d := x.def_.getD x.cls 0
    let go : Option CandRec := match h with
      | some c => if fit c && decide (c.n ≤ d) then some c else none
      | none => none
    match go with
    | some c => ({ x with def_ := x.def_.set x.cls (d - c.n) }, some c)
    | none =>
      let df := if h.isNone then x.def_.set x.cls 0 else x.def_
      let nc := (x.cls + 1) % 4
      selLoop cs fit n { x with cls := nc, def_ := df.set nc (min (df.getD nc 0 + x.q nc) 255) }

/-- The selection state after n cycles in which the partition had nothing to place (R208): each of them moves CLS on by one and leaves that class's
quantum as the only deficit. -/
def Sel.idle (x : Sel) (n : Nat) : Sel :=
  if n == 0 then x else
  let c := (x.cls + n) % 4
  { x with cls := c, def_ := [0, 0, 0, 0].set c (x.q c) }

/-- One partition's decision (R208), after the cycles since its last one that had no candidate. -/
def State.decide1 (s : State) (p d : Nat) : State × Bool :=
  let cs := s.cands p d
  let x0 := (s.die d).sel.get p {}
  let x1 := { x0.idle (if x0.none_ then s.cyc - x0.last - 1 else 0) with last := s.cyc, none_ := cs.isEmpty }
  match cs.find? (·.aged) with
  | some a =>
    let s1 := s.modDie d (fun y => { y with sel := y.sel.set p x1 })
    if s.candFits p d a then (s1.placeCand d a, true) else (s1, false)
  | none =>
    let (x, c?) := selLoop cs (s.candFits p d) 5 x1
    let s1 := s.modDie d (fun y => { y with sel := y.sel.set p x })
    match c? with
    | some c => (s1.placeCand d c, true)
    | none => (s1, false)

/-- The first partition in rotation that places something. -/
def State.decideN (s : State) (d : Nat) (ps : List Nat) : Nat → Nat → State
  | 0, _ => s
  | n + 1, i =>
    let j := i % max ps.length 1
    let (s1, ok) := s.decide1 (ps.getD j 0) d
    if ok then s1.modDie d (fun x => { x with rot := (j + 1) % max ps.length 1 }) else State.decideN s1 d ps n (i + 1)

/-- The partitions of a die, ascending. -/
def State.diePartList (s : State) (d : Nat) : List Nat := (List.range 16).filter (fun p => s.partOnDie p d)

/-- GANG_PLACEMENT (R208): one decision of a die's stream controller; another follows while something waits to be placed. -/
def execGangPlacement (die : Nat) (s : State) : Res :=
  let ps := s.diePartList die
  if ps.any (fun p => !(s.cands p die).isEmpty) then .next ((s.decideN die ps ps.length (s.die die).rot).pokePlace die) else .next s

/-- SCOREBOARD_AGE_LIMIT (R208): an entry's AGE has reached AGEMAX, and the stream controller looks at it; it is aged while that holds. -/
def execScoreboardAgeLimit (die e : Nat) (s : State) : Res :=
  let x := (s.die die).entries.get e {}
  let amax := ((s.die die).sel.get x.part {}).scage
  if x.st == .ready && amax != 0 && decide (amax ≤ s.cyc - x.readyAt) then
    .next ((s.modDie die (fun y => { y with entries := y.entries.set e { x with aged := true } })).pokePlace die)
  else .next s

/-- Entries whose age limit has come and is not yet noted. -/
def State.agesDue (s : State) : List Ev :=
  (List.range 4).flatMap (fun d => (s.die d).entries.l.flatMap (fun e =>
    let amax := ((s.die d).sel.get e.2.part {}).scage
    if e.2.st == .ready && !e.2.aged && amax != 0 && decide (amax ≤ s.cyc - e.2.readyAt) then [Ev.scoreboardAgeLimit d e.1] else []))

/-! ## The end of a work item (R132, R202, R204, R215) -/

/-- The DONE post of a launch at the counter of its die's control core, or of its partition's saved context there (R202, R425). -/
def State.donePost (s : State) (d : Nat) (x : LEntry) : State :=
  let n := recDone x.record % 64
  let p : Post := { tgt := 128 + d, ctr := n, n := 1, src := 32 * d, tent := false, ival := 0, seq := 0, id := 0, part := x.part, pasid := x.pasid, pc := 0, slot := 7, addr := 0 }
  if s.ctlRuns x.part d then
    match (s.core (128 + d)).postFault true p with
    | some f => s.asyncFault (128 + d) { code := 0x13, detail := f, addr := ctrAddr (128 + d) n, pc := 0, slot := 7, single := true }
    | none => match (s.core (128 + d)).post n 1 0 with
      | some k => s.setCore (128 + d) k
      | none => s
  else s.modDie d (fun y => match y.ctx.find x.part with
    | some k => (match k.post n 1 0 with
      | some k1 => { y with ctx := y.ctx.set x.part k1 }
      | none => { y with ctx := y.ctx.set x.part { k with async := k.async ++ [{ code := 0x13, detail := 1, addr := ctrAddr (128 + d) n, pc := 0, slot := 7, single := true }] } })
    | none => y)

/-- Entries of a die whose last work item has ended: FREE, once the release of a DONE post is complete (R202, R272). -/
def State.finishEntries (s : State) (d : Nat) : State :=
  (s.die d).entries.l.foldl (fun s e =>
    let x := e.2
    if x.st == .running && decide (x.total ≤ x.ended) && (!(recDone x.record).testBit 7 || s.exported x.exp) then
      let s1 := s.modDie d (fun y => { y with entries := y.entries.set e.1 {} })
      if (recDone x.record).testBit 7 then s1.donePost d x else s1
    else s) s

/-- Does an entry wait for that release? -/
def State.entriesDue (s : State) (d : Nat) : Bool := (s.die d).entries.l.any (fun e => e.2.st == .running && decide (e.2.total ≤ e.2.ended))

/-- A member leaves its line: at its last member's end the line is free; before that the line is broken (R204, R215). -/
def State.leaveLine (s : State) (c : Nat) (w : WorkItem) : State :=
  match w.line with
  | none => s
  | some l => s.modDie (dieOf c) (fun x =>
      let ln := x.lines.get l {}
      let m := ln.members.filter (· != c)
      { x with lines := x.lines.set l (if m.isEmpty then {} else { ln with members := m, broken := true, arrived := ln.arrived.filter (· != c) }) })

/-- An item ends on its core and is reported (R204): its frame returns (R409), its line and its entry count it as ended. -/
def State.endItem (s : State) (c : Nat) : State :=
  match (s.core c).item with
  | none => s
  | some w =>
    let d := dieOf c
    let exp := (s.core c).expMax
    let s1 := (s.leaveLine c w).modPart w.part (fun p => { p with frames := p.frames ++ [w.frame] })
    let s2 := s1.modDie w.die (fun y =>
      let x := y.entries.get w.entry {}
      if x.st == .free then y
      else { y with entries := y.entries.set w.entry { x with ended := x.ended + 1, exp := (List.range 4).map (fun i => max (x.exp.getD i 0) (exp.getD i 0)) } })
    let s3 := s2.modCore c (fun k =>
      { k with item := none, freeAt := false, halting := false, trap := none, async := [], slots := ⟨[]⟩, items := [], pend := [], arrived := false, goSync := false,
               handler := false, serial := false, stream := none, target := none, relWait := none, relItem := false, subm := [], cstall := false,
               ports := k.ports.filter (fun x => x.sent) })
    let s4 := (s3.push (.coreFree c)).finishEntries d
    let s5 := if w.group.isSome then s4.push (.peelRunPark c) else s4
    let s6 := if s5.entriesDue d then s5.push (.workItemEnd c) else s5
    if (s6.die d).wqueue.isEmpty || s6.clk.pending.contains (.weightStoreWritePerform d) then s6 else s6.push (.weightStoreWritePerform d)

/-- Every op of the core that has issued has completed (R33). A held command and a held atomic count as complete once held (R241, R321). -/
def Core.quiet (k : Core) : Bool :=
  k.slots.l.all (fun p => p.2.isEmpty) && k.stream.isNone && k.jobs.isEmpty && !k.convBusy && k.bankJobs.isEmpty &&
  k.pend.all (fun p => !p.op || p.val.isSome) && k.ports.all (fun x => x.held) &&
  (List.range 8).all (fun q => (k.queue q).spl == 2 || (k.queue q).ents.l.all (fun e => e.2.st != .reserved && !(e.2.st == .draining && !e.2.pres)))

/-- Writes to a weight store that its controller has accepted (R249). -/
def State.accepted (s : State) (c : Nat) : List Nat :=
  s.dies.l.flatMap (fun d => d.2.wqueue.filterMap (fun w => match w.2.2 with
    | some x => if x.1 == c then some x.2 else none
    | none => none))

/-- HALT is complete (R132): every issued op has completed, every released store and command has been accepted by its destination, and every splice
end is local again. -/
def State.haltDone (s : State) (c : Nat) : Bool :=
  let k := s.core c
  (k.abandoned || k.quiet) && k.items.isEmpty && k.sent.all (fun r => (s.accepted c).contains r.id) && k.ports.isEmpty && k.subm.isEmpty && k.relWait.isNone && k.outs.isEmpty &&
  (List.range 8).all (fun q => (k.queue q).spl == 0)

/-- Splice ends at the end of an item (R227): sending ends close, or discard; receiving ends refuse an open peer and are local,
once an acceptance that is still held has gone. -/
def State.haltSplices (s : State) (c : Nat) : State :=
  (List.range 8).foldl (fun s q =>
    let k := s.core c
    let u := k.queue q
    let r := k.splice q
    if u.spl == 1 then
      (if r.st == .pending || r.st == .open_ then (s.setCore c (k.setSplice q { r with st := .closing, unspliced := k.ival })).splPoke c q
       else if r.st == .closing then s.splPoke c q
       else s.setCore c (k.unspliced q))
    else if u.spl == 2 then
      if r.st == .accepting && k.items.any (fun i => match i.kind with
          | .accept m => m.pq == q
          | _ => false) then s else
      let s1 := if r.st == .ropen then s.refuse c q r.pcore r.pq else s
      s1.modCore c (fun k => (k.setQueue q u.local_).setSplice q { acc := r.acc })
    else s) s

/-- WORK_ITEM_END (R204): a core whose HALT is complete ends its item; an entry whose DONE post waits for its release is looked at again. -/
def execWorkItemEnd (core : Nat) (s : State) : Res :=
  let k := s.core core
  let d := dieOf core
  if k.item.isSome && k.halting then
    (if s.haltDone core then .next (s.endItem core) else .next (((s.pump core).haltSplices core).push (.workItemEnd core)))
  else
    let s1 := s.finishEntries d
    .next (if s1.entriesDue d then s1.push (.workItemEnd core) else s1)

/-- CORE_FREE (R204): the core may be placed again, once the commands that an abandoned item had sent are complete (R384). -/
def execCoreFree (core : Nat) (s : State) : Res :=
  if !(s.core core).ports.isEmpty then .next (s.push (.coreFree core))
  else
    let s1 := (s.modCore core (fun k => { k with freeAt := true })).pokePlace (dieOf core)
    .next (if s1.peelPosts.isEmpty then s1 else s1.push (.peelRunPark core))

/-- A control core's context ends (R132, R491); another may then start on the core. -/
def State.endContext (s : State) (c : Nat) : State :=
  let d := dieOf c
  let p := (s.core c).ctl.part
  ((s.modCore c (fun k => { k with ctl := { k.ctl with running := false }, serial := false })).modFn p (fun f => { f with dies := f.dies &&& (15 ^^^ 2 ^ d) })).push (.schedulerContextSaved d)

/-- HALT (R132, R227, R290): the interval is released as at a checkpoint bundle, splice ends close, channel positions commit, and the item ends
once all has been accepted. On a control core the context ends when everything it sent has been accepted. -/
def execHalt (s : State) : Res :=
  let c := s.cur.core
  let k := s.core c
  if isCtl c then
    (if k.sent.all (fun r => (s.accepted c).contains r.id) && k.ports.isEmpty && k.outs.isEmpty && k.relWait.isNone then .next (s.endContext c) else .next (s.requeue .halt))
  else if k.halting then .next s
  else
    let s1 := s.modCore c (fun k => { k with halting := true })
    .next (((((s1.pump c).freePassed c).haltSplices c).chanCheckpoint c true).push (.workItemEnd c))

/-! ## LAUNCH (R198 to R200) -/

/-- Bytes of global memory as the running op reads them (R111, R231): the op waits for a line of a read view (R355) and for data that is lost, which
is reported (R250); where a binding does not serve the access it ends with fault 0x18 at its core (R357). -/
def State.readAt (s : State) (i : Instr) (pa n : Nat) (va : W64) (f : Bytes → Res) : Res :=
  let c := s.cur.core
  match s.memRead (dieOf c) pa n with
  | .bytes b => f (patch pa b ((s.core c).forwarded s.cur.op pa n))
  | .line p => .next ((s.askLine (dieOf c) c p va).requeue i)
  | .bad d p => .next (s.push (.remoteAtomRejection c { tk := s.cur.op.tk, code := 0x18, detail := d, pc := s.cur.op.pc, slot := s.cur.slot, addr := va + w64 (p - pa) }))
  | .lost => .next ((s.reportLoss (s.partOf c)).requeue i)

/-- Is a write of the core to one of the lines of a range still on its way? -/
def State.rangeBusy (s : State) (c pa n : Nat) : Bool := (List.range ((n + 63) / 64)).any (fun i => s.lineBusy c (pa / 64 + i) s.clk.ids || s.atomLate c (pa / 64 + i))

/-- LAUNCH on a control core, with its record (R199). -/
def State.launchCtl (s : State) (i : Instr) (d : Nat) (r : Bytes) : Res :=
  let c := s.cur.core
  let p := s.partOf c
  let (st, t) := s.launchPre p (dieOf c) r
  if !s.releaseOk c (max 3 s.cur.op.scope) then .next (s.requeue i)
  else if st != 0 then .next (s.later d (launchWord st t 0 0))
  else
    let hv := w64 (fieldAt r 0 8)
    let pasid := (s.core c).ctl.wqpas
    match s.translate c 0 pasid hv .r 128 with
    | .miss => .next ((s.askWalk c 0 pasid hv).requeue i)
    | .fault _ _ => .next ((s.clearWalk c 0 hv).later d (launchWord 0x07 t 0 0))
    | .pa pa => s.readAt i pa 128 hv (fun h =>
      let st2 := s.launchPost p t r h
      if st2 != 0 then .next (s.later d (launchWord st2 t 0 0))
      else match s.freeEntry t p with
        | none => .next (s.later d (launchWord 0x01 t 0 0))
        | some e => .next ((s.later d (launchWord 0 t e 0)).accept t e p pasid (s.core c).ctl.wqcur r h hv))

/-- LAUNCH on a tile core, with its record (R200): the header is read too before the checks of R193, wherever it stands (log 113). -/
def State.launchTile (s : State) (i : Instr) (d : Nat) (va : W64) (r : Bytes) : Res :=
  let c := s.cur.core
  let k := s.core c
  let p := s.partOf c
  let (st, t) := s.launchPre p (dieOf c) r
  let hv := w64 (fieldAt r 0 8)
  s.globalAt i hv .r (if hv.toNat % 128 == 0 then 128 else 1) (fun pa =>
    if s.rangeBusy c pa 128 then .next (s.requeue i) else
    s.readAt i pa 128 hv (fun h =>
      let st2 := if st != 0 then st else s.launchPost p t r h
      if st2 != 0 then .next (s.raise 0x1D st2 va)
      else if !holds c k && (k.loadsBefore (s.cur.op.place k) || !s.releaseOk c (max 3 s.cur.op.scope)) then .next (s.requeue i)
      else (s.later d (launchWord 0 t 0 1)).actItem i true (.launch h r t hv)))

/-- LAUNCH (R198). -/
def execLaunch (d : BitVec 6) (ba : Bool) (a : BitVec 6) (g : BitVec 5) (s : State) : Res :=
  let i : Instr := .launch d ba a g
  let c := s.cur.core
  if !(s.core c).guard s.cur.op g.toNat then .next s else
  s.reg i ba a.toNat (fun v =>
    if v.toNat % 64 != 0 then .next (s.raise 0x09 0 v)
    else if isCtl c then
      (if 1047552 < v.toNat + 64 then .next (s.raise 0x0A 0 v)
       else s.launchCtl i d.toNat ((s.core c).spadRead s.cur.op v.toNat 64))
    else s.globalAt i v .r 64 (fun pa => if s.rangeBusy c pa 64 then .next (s.requeue i) else s.readAt i pa 64 v (s.launchTile i d.toNat v)))

/-- LAUNCH_SUBMISSION_ACCEPT (R200): the core's first submission takes an entry, or waits for one within the quota; the core stalls meanwhile. -/
def execLaunchSubmissionAccept (core : Nat) (s : State) : Res :=
  let k := s.core core
  match k.subm, k.item with
  | i :: r, some w =>
    match i.kind with
    | .launch h rec t hv =>
      match s.freeEntry t w.part with
      | none => .next (s.push (.launchSubmissionAccept core))
      | some e => .next (((s.setCore core { k with subm := r, cstall := !r.isEmpty }).accept t e w.part w.pasid w.tag rec h hv).poke core)
    | _ => .next (s.setCore core { k with subm := r, cstall := !r.isEmpty })
  | _, _ => .next s

/-! ## Work queues (R197, R457 to R462) -/

def WQ.en (q : WQ) : Bool := q.w0.getLsbD 0
def WQ.die (q : WQ) : Nat := bitsAt q.w0.toNat 1 2
def WQ.logr (q : WQ) : Nat := bitsAt q.w0.toNat 32 4
/-- The ring slot of a position (R458). -/
def WQ.slot (q : WQ) (pos : Nat) : Nat := bitsAt q.ring.toNat 7 45 * 128 + 128 * (pos % 2 ^ q.logr)

/-- Is a queue bound to a die and partition (R457)? -/
def State.bound (s : State) (q d p : Nat) : Bool := (s.wq q).en && s.layout.now.wqOwner.getD q 0 == p && (s.wq q).die == d
/-- Does a queue hold a packet that the die's view has taken? -/
def State.hasPacket (s : State) (q d : Nat) : Bool :=
  match (s.wq q).clks with
  | c :: _ => decide (c ≤ (s.die d).app.getD 0 0)
  | [] => false

/-- A write of the device to a PA: an agent of D0, or a system write (R257). -/
def State.devWrite (s : State) (pa : Nat) (b : Bytes) : State :=
  if isSys pa then { s with hostMem := s.hostMem.writeN (pa - sysBase) b }
  else (linesOf (cellsAt pa b)).foldl (fun s l => (s.hbmWrite 0 ((cellsAt pa b).filter (fun p => p.1 / 64 == l))).2) s

/-- Bytes of memory as the device reads them, an agent of D0 (R257); free values where a binding does not serve the read (log 49). -/
def State.devRead (s : State) (pa n : Nat) : Bytes :=
  match s.memRead 0 pa n with
  | .bytes b => b
  | _ => (List.range n).map (Config.freeByte s.clk.fresh)

/-- The device's reads for an event of a function (R250, R355): where a line of a read view has still to come, or data is lost and is reported, the
event is performed again. -/
def State.devReads (s : State) (fn : Nat) (e : Ev) (l : List (Nat × Nat)) (f : State → Res) : Res :=
  match l.findSome? (fun x => match s.memRead 0 x.1 x.2 with
    | .line p => some (s.askLine 0 (200 + fn) p (w64 p))
    | .lost => some (s.reportLoss fn)
    | _ => none) with
  | some s1 => .next (s1.push e)
  | none => f (s.newFresh).2

/-- The completion record of a queue written (R462). -/
def State.crecWrite (s : State) (q status : Nat) : State :=
  let x := s.wq q
  s.devWrite (bitsAt x.crec.toNat 6 46 * 64) (leBytes 4 x.nref ++ leBytes 4 x.ndrop ++ leBytes 4 x.lseq ++ leBytes 4 x.lpas ++ leBytes 4 status ++
    leBytes 4 (s.fn (s.layout.now.wqOwner.getD q 0)).rgen ++ List.replicate 40 0)

/-- Is a PASID revoked (R461)? The op reads its table entry. -/
def State.revoked (s : State) (i : Instr) (p pasid : Nat) (f : Bool → Res) : Res :=
  let t := (s.fn p).pastab.toNat
  let a := bitsAt t 12 40 * 4096 + 16 * pasid
  if 2 ^ (min (t % 32) 20) ≤ pasid then f true else s.readAt i a 8 (w64 a) (fun b => f (!(w64 (leNat b)).getLsbD 0))

/-- The queue a WQTAKE may take from now (R197): by number, or with ANY the first after the queue last taken. -/
def State.pickQueue (s : State) (c : Nat) (any : Bool) (q : Nat) : Option Nat :=
  let d := dieOf c
  let p := s.partOf c
  let ok (x : Nat) : Bool := s.bound x d p && s.hasPacket x d
  if any then
    let st := match (s.core c).ctl.lastQ with
      | some l => l + 1
      | none => 0
    let have_ := (s.wqs.l.map (·.1)).filter ok
    let up := have_.filter (fun x => st ≤ x)
    if up.isEmpty then (if have_.isEmpty then none else some (lowestOf have_)) else some (lowestOf up)
  else if ok q then some q else none

/-- A packet of a queue taken (R197, R461), its 72 bytes read: copied to the scratchpad, or refused where its PASID is revoked. -/
def State.takePacket (s : State) (c d q dst : Nat) (b : Bytes) (refuse : Bool) : State :=
  let x := s.wq q
  let pasid := bitsAt (fieldAt b 64 4) 0 20
  let p := s.partOf c
  let s1 := s.modWq q (fun y => { y with rpos := (y.rpos + 1) % 2 ^ 32, clks := y.clks.drop 1 })
  let word (st : Nat) : W64 := w64 (q % 1024 * 256 + st)
  if refuse then
    let s2 := (s1.modWq q (fun y => { y with nref := (y.nref + 1) % 2 ^ 32, lseq := fieldAt b 68 4, lpas := pasid })).crecWrite q 0x12
    let s3 := if x.w0.getLsbD 3 then s2.interrupt (dieOf c) p (bitsAt x.w0.toNat 16 11) else s2
    (s3.modCore c (fun k => { k with ctl := { k.ctl with lastQ := some q } })).later d (word 0x12)
  else
    (s1.modCore c (fun k => { k with spad := k.spad.writeN dst (b.take 64), ctl := { k.ctl with lastQ := some q, wqcur := q, wqpas := pasid } })).later d (word 0x10)

/-- WQTAKE with its operand (R197). -/
def State.wqtakeOp (s : State) (d a : BitVec 6) (any wait : Bool) : Res :=
  let c := s.cur.core
  let i : Instr := .wqtake d a any wait
  s.reg i true a.toNat (fun v =>
    let q := bitsAt v.toNat 0 10
    let dst := bitsAt v.toNat 16 14 * 64
    if bitsAt v.toNat 10 6 != 0 || bitsAt v.toNat 30 34 != 0 || (any && q != 0) then .next (s.raise 0x04 0 0)
    else if 1047552 < dst + 64 then .next (s.raise 0x0A 0 (w64 dst))
    else if !any && !s.bound q (dieOf c) (s.partOf c) then .next (s.later d.toNat (w64 (q * 256 + 0x13)))
    else match s.pickQueue c any q with
      | some x => s.readAt i ((s.wq x).slot (s.wq x).rpos) 72 (w64 ((s.wq x).slot (s.wq x).rpos)) (fun b =>
        s.revoked i (s.partOf c) (bitsAt (fieldAt b 64 4) 0 20) (fun r => .next (s.takePacket c d.toNat x dst b r)))
      | none => if wait then .next (s.requeue i) else .next (s.later d.toNat (w64 (q * 256 + 0x11))))

/-- WQTAKE (R197): on a tile core fault 0x02. -/
def execWqtake (d a : BitVec 6) (any wait : Bool) (s : State) : Res :=
  if !isCtl s.cur.core then .next (s.raise 0x02 0 0) else s.wqtakeOp d a any wait

/-- WQTAKE_WAKE (R197): the waiting WQTAKE of a die's control core is looked at again, as when a packet has arrived. -/
def execWqtakeWake (die : Nat) (s : State) : Res :=
  let c := 128 + die
  match (s.core c).slots.get 0 [] with
  | o :: r =>
    match o.op with
    | .wqtake d a any wait =>
      (({ s with cur := { core := c, slot := 0, op := o } } : State).modCore c (fun k => { k with slots := k.slots.set 0 r })).wqtakeOp d a any wait
    | _ => .next s
  | [] => .next s

end Sys2Proof.Machine
end

