-- ==== Sys2Proof/Machine/Issue.lean ====
section
/-! DEFINITION. The issue unit (01 R22 to R34, 03 R64 to R79): reading a bundle, its checks in order, and its issue. -/
namespace Sys2Proof.Machine

/-! ## Reading a bundle -/

/-- A bundle as fetched: each op word with its slot and what decoding gave. -/
structure Bundle where
  pc : W64
  next : W64
  single : Bool
  scope : Nat := 0
  pops : List (Nat × Nat) := []
  ckp : Bool := false
  opb : Bool := false
  rep : Rep := {}
  words : List (Nat × Except Nat Instr) := []

/-- What reading gives: a bundle, a walk to wait for, or a fault of the bundle as a whole. -/
inductive BRead where
  | got (b : Bundle)
  | miss (va : W64)
  | bad (code detail : Nat) (addr : W64)

/-- The op words of a wide bundle after its header and prefix: a surrendered slot's word extends the op before it (R69, R70). -/
def wideWords (ctl : Bool) (h : W32) : List Nat → List W32 → List (Nat × Except Nat Instr)
  | [], _ => []
  | sl :: rest, ws =>
    if !hdrPresent h sl || hdrSurrender h sl then wideWords ctl h rest (if hdrPresent h sl then ws.drop 1 else ws)
    else
      let ext : Option W32 := if hdrSurrender h (sl + 1) && decide (sl < 5) then (ws.drop 1).head? else none
      let cls := if sl == 0 then 0 else if sl ≤ 2 then 1 else if sl == 3 then 2 else 3
      (sl, decodeOp ctl cls (ws.headD 0) ext) :: wideWords ctl h rest (ws.drop 1)

/-- The slot a single-op bundle uses (R77). -/
def singleSlot (n : Nat) : Nat := if n == 0 then 0 else if n == 1 then 1 else if n == 2 then 3 else 4

/-- Checks 1 and 2 of R79 (TADDR names the target of a taken transfer that is no header, R117, log 107), and the words of the bundle at an address (R64 to R77). -/
def State.readBundle (s : State) (c : Nat) (pc : W64) : BRead :=
  let ctl := isCtl c
  let k := s.core c
  match s.fetch c pc with
  | .miss va => .miss va
  | .fault code d va => .bad code d va
  | .word h =>
    if hdrKind h != 5 && hdrKind h != 6 then .bad 0x01 0 (if k.jumped then pc else 0)
    else if hdrKind h == 5 && ctl then .bad 0x01 0 0
    else if hdrKind h == 5 && k.handler then .bad 0x1C 0 0
    else if hdrKind h == 5 && wideHdrBad h then .bad 0x03 0 0
    else if hdrKind h == 6 && singleHdrBad h then .bad 0x03 0 0
    else
      let n := (hdrWords h).getD 1
      match s.fetchN c (pc + 4) (n - 1) [] with
      | .error (.miss va) => .miss va
      | .error (.fault code d va) => .bad code d va
      | .error (.word _) => .bad 0x01 0 0
      | .ok ws =>
        let next := pc + w64 (4 * n)
        if hdrKind h == 6 then
          .got { pc := pc, next := next, single := true, scope := bitsAt h.toNat 22 3, pops := hdrPops h,
                 words := [(singleSlot (bitsAt h.toNat 26 3), decodeOp ctl (bitsAt h.toNat 26 3) (ws.headD 0) (if h.getLsbD 25 then ws[1]? else none))] }
        else
          let pfx := if hdrPfx h then ws.headD 0 else 0
          if pfxBad pfx then .bad 0x03 0 0
          else .got { pc := pc, next := next, single := false, scope := bitsAt pfx.toNat 29 3, pops := hdrPops h, ckp := hdrCkp h || hdrOpb h, opb := hdrOpb h,
                      rep := { n := bitsAt pfx.toNat 16 13, step := bitsAt pfx.toNat 12 4, alt := pfx.getLsbD 11 },
                      words := wideWords ctl h (List.range 6) (if hdrPfx h then ws.drop 1 else ws) }

/-- An op word that decoded, with what it names and whether its guard enables it (R15). -/
structure BOp where
  slot : Nat
  i : Instr
  sh : Shape
  en : Bool

/-- The repeat of the op in a slot: the prefix's for the M op (R75). -/
def Bundle.repOf (b : Bundle) (slot : Nat) : Rep := if slot == 3 then b.rep else {}

def Core.enabled (k : Core) (sh : Shape) : Bool := k.guard {} sh.guard && k.stageGuard {} sh.sg

/-- The decoded ops of a bundle. -/
def Bundle.ops (b : Bundle) (k : Core) : List BOp :=
  b.words.filterMap (fun w => match w.2 with
    | .ok i => let sh := shapeOf k (b.repOf w.1) i; some { slot := w.1, i := i, sh := sh, en := k.enabled sh }
    | .error _ => none)

/-! ## What keeps a bundle from issuing -/

/-- Is a predicate's value one that an op in a slot has still to write (R29)? -/
def Core.predWaits (k : Core) (n : Nat) : Bool :=
  match pendFor k.pend (.pred n) k.bundleNo with
  | some p => p.val.isNone
  | none => false

/-- The predicates an op reads at issue. -/
def Shape.predsAt (sh : Shape) : List Nat :=
  sh.preds ++ (if sh.guard == 31 then [] else [sh.guard]) ++ (if sh.sg.getLsbD 3 then [16 + (sh.sg.extractLsb' 0 3).toNat] else [])

/-- A register that the issue itself needs (R113, R289): a value, a wait, or fault 0x06. -/
def Core.regNow (k : Core) (single : Bool) (r : Nat × Bool) : Src W64 := k.readReg { single := single } r.2 r.1

/-- Queues that a running or waiting repeat streams (R181). -/
def Core.streamed (k : Core) : List Nat :=
  (match k.stream with
   | some st => if st.na == 0 then [] else [st.q]
   | none => []) ++
  (k.slots.get 3 []).filterMap (fun o => if o.rep.n == 0 then none else streamQueue o.op)

/-- Does a repeated op run or wait (R377)? -/
def Core.repeats (k : Core) : Bool := k.stream.isSome || (k.slots.get 3 []).any (fun o => o.rep.n != 0)

/-- The layout registers that an earlier LSET in the S slot has still to write (R301). -/
def Core.lsetWaits (k : Core) : List Nat :=
  (k.slots.get 0 []).filterMap (fun o => match o.op with
    | .lset _ l _ => some l.toNat
    | _ => none)

def isSync : Instr → Bool
  | .sync => true
  | _ => false

/-- The acquire of an enabled FENCE, if the bundle has one: REL of that FENCE is kept apart (R268). -/
def BOp.acq (o : BOp) : Bool :=
  match o.i with
  | .fence _ a => a
  | _ => false

/-- A checkpoint bundle whose items wait on a release, on outstanding atomics or on a port's room is not complete, and the core waits (R243, R269, R310). -/
def Core.ckptWaits (k : Core) : Bool :=
  k.cstall ||
  (match k.items with
   | i :: _ => decide (i.ival < k.ival) && (k.relWait.isSome || (match i.kind with
      | .atom _ a => a.tk.isSome && decide (Config.atomicsOut ≤ k.outs.length)
      | .copy id => (match k.ports.find? (fun x => x.id == id) with
        | some x => decide (Config.portStarted ≤ k.portLoad x.port)
        | none => false)
      | _ => false))
   | [] => false)

/-- May a core issue at all? -/
def State.mayIssue (s : State) (c : Nat) : Bool :=
  let k := s.core c
  k.trap.isNone && !k.halting && !s.corePaused c && !k.ckptWaits &&
  (if isCtl c then k.ctl.running && !k.ctl.saving
   else match k.item with
    | some w => w.started && !w.parked
    | none => false)

/-! ## The checks of R79 and R22 -/

/-- A fault of the checks: code, detail, address, slot. -/
abbrev IFault := Nat × Nat × W64 × Nat

/-- Queues an op names. -/
def Shape.queues (sh : Shape) : List Nat := sh.qsrc.map (fun p => p.1.q.toNat) ++ sh.app.map (·.1) ++ sh.quse.toList

/-- On a control core an op with a queue operand exceeds a declared resource, whatever else holds of the queue (R194). -/
def ctlQueueOp (ctl : Bool) (sh : Shape) : Bool := ctl && !(sh.qsrc.isEmpty && sh.app.isEmpty)

/-- Checks 3 to 5 of one op word (R79). `sq` is the queue that a serialising op of the S slot keeps for itself (R122). -/
def Core.wordFault (k : Core) (ctl : Bool) (b : Bundle) (sq : Option Nat) (w : Nat × Except Nat Instr) : Option IFault :=
  match w.2 with
  | .error code => some (code, 0, 0, w.1)
  | .ok i =>
    let sh := shapeOf k (b.repOf w.1) i
    if ctlQueueOp ctl sh then none
    else if !sh.tyOk then some (0x04, 0, 0, w.1)
    else match (if isCopy i && k.enabled sh then k.copyCheck i else none) with
      | some (c, d, a) => some (c, d, a, w.1)
      | none => if w.1 != 0 && sq.any (fun q => sh.queues.contains q) then some (0x04, 0, 0, w.1) else none

/-- Check 6 of R79 (R75, R122, R180), and a bundle that crosses END of the running loop (R119; its place and SLOT: log 98). -/
def Core.repFault (k : Core) (b : Bundle) (sq : Option Nat) : Option IFault :=
  let m := (b.words.find? (fun w => w.1 == 3)).bind (fun w => match w.2 with
    | .ok i => some i
    | .error _ => none)
  let sl := if m.isSome then 3 else 7
  let bad := match m with
    | none => b.rep.n != 0 || b.rep.step != 0 || b.rep.alt
    | some i =>
      (b.rep.n != 0 && !repOk i) || (b.rep.n == 0 && (b.rep.step != 0 || b.rep.alt)) || (b.rep.alt && !altOk i) ||
      (b.rep.n != 0 && decide (511 < repTile i + (b.rep.n - 1) * b.rep.step)) ||
      (b.rep.n != 0 && (match streamQueue i with
        | some q => b.pops.any (fun p => p.2 != 0 && p.1 == q)
        | none => false))
  if bad then some (0x04, 0, 0, sl)
  else if b.pops.any (fun p => p.2 != 0 && sq == some p.1) then some (0x04, 0, 0, 7)
  else if k.loop.act && decide (b.pc.toNat < k.loop.end_.toNat) && decide (k.loop.end_.toNat < b.next.toNat) then some (0x04, 0, 0, 7)
  else none

/-- Step 2 of R22: occupancy for each queue source of an enabled op. -/
def Core.occFault (k : Core) (ctl : Bool) (o : BOp) : Option IFault :=
  if !o.en || ctlQueueOp ctl o.sh then none
  else (o.sh.qsrc.find? (fun p => decide ((k.queue p.1.q.toNat).occ < p.1.k.toNat + p.2))).map (fun p => (0x05, p.1.q.toNat, 0, o.slot))

/-- Step 3 of R22, both pop fields of one queue counting as one (R71). -/
def Core.popFault (k : Core) (b : Bundle) : Option IFault :=
  (b.pops.find? (fun p => p.2 != 0 && decide ((k.queue p.1).occ < (b.pops.filter (fun r => r.1 == p.1)).foldl (fun a r => a + r.2) 0))).map (fun p => (0x05, p.1, 0, 7))

/-- Splice use of an op (R225). -/
def Core.splFault (k : Core) (o : BOp) : Option IFault :=
  let at_ (b : Bool) (d : Nat) : Option IFault := if b then some (0x14, d, 0, o.slot) else none
  if !o.en then none
  else if o.sh.qsrc.any (fun p => (k.queue p.1.q.toNat).spl == 1) then some (0x14, 1, 0, o.slot)
  else match o.i with
  | .qsplice _ q | .qaccept _ q => at_ (!(k.queue q.toNat).fresh && k.limLogc q.toNat != 0) 3
  | .qcfg _ q | .qwr _ q => at_ ((k.queue q.toNat).spl != 0) 4
  | .qreset q => at_ ((k.queue q.toNat).spl != 0) 4
  | .qunsplice q => at_ ((k.queue q.toNat).spl == 0 && k.limLogc q.toNat != 0) 8
  | _ => (o.sh.app.findSome? (fun p =>
    let u := k.queue p.1
    let r := k.splice p.1
    if u.spl == 2 then some 2
    else if u.spl == 1 then (match r.st with
      | .closing => some 5
      | .failed => some 6
      | .ended => some 7
      | _ => none)
    else none)).map (fun d => (0x14, d, 0, o.slot))

/-- Step 4 of R22: declared limits (R100, R308). A disabled copy command is spared them. -/
def Core.limFault (k : Core) (ctl : Bool) (o : BOp) : Option IFault :=
  if isCopy o.i && !o.en then none
  else if ctlQueueOp ctl o.sh then some (0x07, 3, 0, o.slot)
  else (k.limitFault (localCtrs o.i o.sh) o.i).map (fun d => (0x07, d, 0, o.slot))

/-- The reservations of a bundle in order: slot, queue, how many before it in the bundle, how many (R23). -/
def resvList (ops : List BOp) : List (Nat × Nat × Nat × Nat) :=
  (ops.foldl (fun (a : List (Nat × Nat) × List (Nat × Nat × Nat × Nat)) o =>
    if !o.en then a else
    o.sh.app.foldl (fun a p =>
      let n := (Tab.findL a.1 p.1).getD 0
      (Tab.setL a.1 p.1 (n + p.2), a.2 ++ [(o.slot, p.1, n, p.2)])) a) ([], [])).2

/-- R380: an append over an entry that a rollback must find. -/
def Core.winFault (k : Core) (r : Nat × Nat × Nat × Nat) : Option IFault :=
  let q := r.2.1
  let u := k.queue q
  let w := k.dup.queues.get q {}
  if u.spl == 2 || w.spl != 0 || k.dup.recon.contains q then none
  else if (List.range r.2.2.2).any (fun j =>
    let x := (u.tail + r.2.2.1 + j + 65536 - w.head) % 65536
    decide (u.cap ≤ x) && decide (x < u.cap + w.count)) then some (0x08, 6, 0, r.1) else none

/-- R24: can every reservation of the bundle succeed? -/
def Core.canReserve (k : Core) (rs : List (Nat × Nat × Nat × Nat)) : Bool :=
  rs.all (fun r =>
    let u := k.queue r.2.1
    (List.range r.2.2.2).all (fun j => (u.ent (u.tail + r.2.2.1 + j)).st == .free && decide (u.count + r.2.2.1 + j < u.cap)))

/-- The first of several checks that fails. -/
def firstFault (l : List (Option IFault)) : Option IFault := l.findSome? id

/-- The checks of a bundle in the order of R79 and R22. -/
def Core.bundleFault (k : Core) (ctl : Bool) (b : Bundle) (ops : List BOp) : Option IFault :=
  let sq := (ops.head?.bind (fun o => if o.slot == 0 then serialQueue o.i else none))
  firstFault (b.words.map (k.wordFault ctl b sq) ++ [k.repFault b sq] ++ ops.map (k.occFault ctl) ++ [k.popFault b] ++ ops.map k.splFault ++
    [if b.pops.any (fun p => p.2 != 0 && (k.queue p.1).spl == 1) then some (0x14, 1, 0, 7) else none] ++ ops.map (k.limFault ctl) ++ (resvList ops).map k.winFault)

/-! ## Issuing -/

/-- The newest value of a destination before an op, for R243. -/
def Core.before (k : Core) (d : Dst) : W64 := ((pendFor k.pend d (k.bundleNo + 4)).bind (·.val)).getD (k.base d)

/-- A register as an op captures it (R28). -/
def Core.capReg (k : Core) (n : Nat) : Cap :=
  if n == 0 then .val 0 else
  match pendFor k.pend (.reg n) k.bundleNo with
  | none => .val (k.base (.reg n))
  | some p => match p.val with
    | some v => .val v
    | none => .wait p.tk p.fe

/-- The value of a queue op that its issue fixes (R125, R126). -/
def Core.queueVal (k : Core) : Instr → Option W64
  | .qocc _ q => some (k.queue q.toNat).occVal
  | .qrd _ q => some (k.queue q.toNat).desc
  | _ => none

/-- The channel of a CHRD, and how many positions it takes (R289). -/
def Core.chrdOf (k : Core) (single : Bool) : Instr → Option (Nat × Nat)
  | .chrd l _ s _ _ => match k.regNow single (s.toNat, true) with
    | .val v => some (v.toNat, l.toNat + 1)
    | _ => none
  | _ => none

/-- The op as its slot holds it (R23, R28). `n` is its place in the bundle, `took` the channel positions that CHRDs before it in the bundle
take (R289). -/
def Core.slipOp (k : Core) (b : Bundle) (rs : List (Nat × Nat × Nat × Nat)) (took : List (Nat × Nat)) (o : BOp) (n : Nat) : SlipOp :=
  let rep := b.repOf o.slot
  let stream := rep.n != 0 && (streamQueue o.i).isSome
  let srcs := if stream then [] else nub (o.sh.qsrc.flatMap (fun p => (List.range p.2).map (fun j =>
    (p.1.q.toNat, ((k.queue p.1.q.toNat).head + p.1.k.toNat + j) % 65536))))
  { op := if b.single then o.i else (match o.i with
      | .fence r true => .fence r false
      | i => i),
    seq := k.seqNo + 1 + n, bundle := k.bundleNo, pc := b.pc, next := b.next, single := b.single, scope := b.scope, ival := k.ival,
    caps := (nub ((o.sh.regs ++ o.sh.now).map (·.1))).map (fun r => (r, k.capReg r)) ++
      (match k.queueVal o.i with
        | some v => [(64, Cap.val v)]
        | none => []) ++
      (match k.chrdOf b.single o.i with
        | some (ch, _) => [(65, Cap.val (w64 ((k.chanEnd ch).rpos + took.foldl (fun a x => if x.1 == ch then a + x.2 else a) 0)))]
        | none => []),
    preds := (nub o.sh.predsAt).map (fun p => (p, k.readPred {} p)),
    lays := o.sh.lays.map (fun l => (l, k.lays.get l 0)),
    heads := (nub (o.sh.qsrc.map (fun p => p.1.q.toNat))).map (fun q => (q, (k.queue q).head)),
    resv := (rs.filter (fun r => r.1 == o.slot)).map (fun r => (r.2.1, ((k.queue r.2.1).tail + r.2.2.1) % 65536, r.2.2.2)),
    srcs := srcs, tk := o.sh.dst.map (fun _ => k.seqNo + 1 + n), rep := rep }

/-- Is a register empty because a result of an op that has issued is still to come (R13, R14)? -/
def Core.isEmpty (k : Core) (d : Dst) : Bool :=
  d != .reg 0 && k.pend.any (fun p => p.dst == d && p.fe && !p.dead && p.val.isNone)

/-- The result that an op's issue opens (R13, R31). Where its register is empty, an exposed result keeps it so and is what every later bundle
waits for (R14). -/
def Core.openPend (k : Core) (b : Bundle) (p : SlipOp) (sh : Shape) : List Pend :=
  match sh.dst with
  | some (d, lat) =>
    let fe := match lat with
      | .fe => true
      | _ => false
    let behind := !fe && k.isEmpty d
    [{ tk := p.seq, dst := d, vis := k.bundleNo + (if b.single || fe || behind then 1 else lat.bundles), fe := fe || behind, val := none, ival := k.ival, old := k.before d,
       held := behind }]
  | none => []

/-- What fills the entries that an op reserves. -/
def fillerOf : Instr → Filler
  | .chrd .. => .read
  | i => if isCopy i then .copy else .op

/-- Reservations, then readers, then pops (R20, R23). -/
def Core.queueIssue (k : Core) (b : Bundle) (rs : List (Nat × Nat × Nat × Nat)) (ps : List SlipOp) : Core :=
  let k1 := rs.foldl (fun k r =>
    let o := ps.find? (fun p => p.resv.any (fun x => x.1 == r.2.1 && x.2.1 == (k.queue r.2.1).tail))
    k.setQueue r.2.1 ((k.queue r.2.1).reserveN ((o.map (fun p => fillerOf p.op)).getD .op) ((o.map (·.seq)).getD 0) k.ival r.2.2.2)) k
  let k2 := (ps.flatMap (·.srcs)).foldl (fun k x => k.setQueue x.1 ((k.queue x.1).addReader x.2)) k1
  b.pops.foldl (fun k p => if p.2 == 0 then k else k.setQueue p.1 ((k.queue p.1).popN p.2)) k2

/-- A destination as bundle `bundleNo` reads it, settled: results that are visible by now are over, later ones are still to come (R120). A
result of a closed interval stays the duplicate's (R379). -/
def Core.visible (k : Core) (d : Dst) : Core :=
  match (pendFor k.pend d k.bundleNo).bind (·.val) with
  | some v => ({ k with pend := k.pend.map (fun p => if p.dst == d && !p.dead && p.val.isSome && decide (p.vis ≤ k.bundleNo) then { p with dead := true, deadIv := k.ival } else p) } : Core).setBase d v
  | none => k

/-- The loop engine at the bundle at END (R119): the engine, the stage predicates, and the next bundle; `drained` where a drain request keeps
it from leaving (R418). -/
def Core.rotate (k : Core) (after : W64) : Core × Bool :=
  let l := k.loop
  let k := (List.range l.s).foldl (fun (x : Core) i => x.visible (.pred (16 + i))) k
  let v (i : Nat) : W64 := k.base (.pred (16 + i))
  let k1 := (List.range' 1 (l.s - 1)).foldl (fun (x : Core) i => x.setBase (.pred (16 + i)) (v (i - 1))) k
  let k2 := k1.setBase (.pred 16) (if l.lc != 0 then BitVec.allOnes 64 else 0)
  let k3 : Core := { k2 with loop := { l with lc := l.lc - 1 } }
  if (List.range l.s).all (fun i => k3.base (.pred (16 + i)) == 0) then
    match k3.item.bind (·.drain) with
    | some _ => ({ k3 with pc := l.start }, true)
    | none => ({ k3 with loop := { k3.loop with act := false }, pc := after }, false)
  else ({ k3 with pc := l.start }, false)

/-- What a branch op of the bundle does: the target, and whether s63 takes the link (R113 to R116). -/
def Core.branchOf (k : Core) (o : BOp) (b : Bundle) : Option (W64 × Bool) :=
  let p : SlipOp := { pc := b.pc }
  match o.i with
  | .br x => if k.taken p x then some (branchTarget p x, false) else none
  | .call x => if k.taken p x then some (branchTarget p x, true) else none
  | .jr ba a _ => if !o.en then none else
    (match k.regNow b.single (a.toNat, ba) with
    | .val t => some (t, false)
    | _ => none)
  | _ => none

def isBranch : Instr → Bool
  | .br _ => true
  | .call _ => true
  | .jr .. => true
  | _ => false

/-- The actions of a checkpoint at the point it is taken, with the PC at the next bundle (R378, R403). An item of a RUN group stops at its operator
boundary, whose channel commits go into its park frame (R417). -/
def State.checkpoint (s : State) (c : Nat) (opb : Bool) (ckSeq : Nat) : State :=
  let k := s.core c
  let k1 : Core := { k with ival := k.ival + 1, shadow := ⟨[]⟩, banks := ⟨k.banks.l.map (fun b => (b.1, { b.2 with ldi := false, rdi := false }))⟩,
                            sys := { k.sys with trst := k.pc }, rbFaults := [], rbMach := 0, rbBase := s.cyc, ckSeq := ckSeq }
  let k2 := k1.capture
  let k3 : Core := if opb then { k2 with opbBase := s.cyc, opbHit := false, dirty := [], item := k2.item.map (fun w => { w with bpos := (k.pc, k2.graphRegs), bival := k2.ival, latIval := if w.latched.isNone then k2.ival else w.latIval, rsent := if w.latched.isNone then 0 else w.rsent }) } else k2
  let parks := opb && s.groups.any (fun x => x.st == .runb && k.item.bind (·.group) == some x.id)
  let s1 := ((((s.setCore c k3).chanCheckpoint c (opb && !parks)).freePassed c).pump c).pokeSplices c
  if parks then (s1.modCore c (fun k => { k with item := k.item.map (fun w => { w with parked := true }) })).push (.peelRunPark c) else s1

/-- What an attempt to issue gives: it ran to the end, or a single op is to be executed now. -/
inductive Issued where
  | ran (s : State)
  | start (i : Instr) (s : State)

/-- A fault of the issue unit: the bundle has no effect (R22). -/
def State.issueFault (s : State) (c : Nat) (f : IFault) (next : W64) : State :=
  s.takeFault c { code := f.1, detail := f.2.1, addr := f.2.2.1, pc := (s.core c).pc, slot := f.2.2.2, single := s.singleAt c (s.core c).pc } next

/-- The address a control core's TRST takes for a fault at a bundle (R195). -/
def State.trstAfter (s : State) (c : Nat) (pc : W64) : W64 :=
  match s.fetch c pc with
  | .word h => if hdrKind h == 6 then pc + w64 (4 * (hdrWords h).getD 0) else pc
  | _ => pc

/-- The wide bundle's next bundle and loop rotation; whether a drain point was reached. -/
def Core.advance (k : Core) (b : Bundle) (br : Option (W64 × Bool)) (link : W64) (afterEnd : W64) : Core × Bool :=
  let seqNext := k.target.getD b.next
  match br with
  | some (t, lk) => (({ (if lk then k.link link else k) with pc := seqNext, jumped := k.target.isSome } : Core).transfer false t, false)
  | none =>
    if k.loop.act && b.pc == k.loop.end_ then ({ k with target := none, jumped := false } : Core).rotate afterEnd
    else ({ k with pc := seqNext, target := none, jumped := k.target.isSome }, false)

/-- A wide bundle issues: all of R23 and R378. -/
def State.issueWide (s : State) (c : Nat) (b : Bundle) (ops : List BOp) (link afterEnd : W64) : State :=
  let k := s.core c
  let live := ops.filter (fun o => o.en && !isSync o.i)
  let rs := resvList ops
  let run := live.filter (fun o => !isBranch o.i && (match o.i with
    | .fence false _ => false
    | _ => true))
  let ps := (run.zip (List.range run.length)).map (fun x =>
    (x.1, k.slipOp b rs ((live.filter (fun o => decide (o.slot < x.1.slot))).filterMap (fun o => k.chrdOf false o.i)) x.1 x.2))
  let br := live.findSome? (fun o => k.branchOf o b)
  let pend := ps.flatMap (fun x => k.openPend b x.2 x.1.sh)
  let chr := live.filterMap (fun o => k.chrdOf false o.i)
  let k1 := k.queueIssue b rs (ps.map (·.2))
  let k2 : Core := chr.foldl (fun (k : Core) x => let e := k.chanEnd x.1; k.setChanEnd x.1 { e with rpos := e.rpos + x.2 }) k1
  let k3 : Core := { k2 with pend := k2.pend ++ pend, seqNo := k2.seqNo + run.length + 1,
                             slots := ps.foldl (fun t x => t.set x.1.slot (t.get x.1.slot [] ++ [x.2])) k2.slots,
                             serial := live.any (fun o => isSerial o.i) }
  let (k4, drained) := k3.advance b br link afterEnd
  let k5 : Core := { k4 with bundleNo := k4.bundleNo + 1, lastAct := s.cyc, stall := false,
                             goSync := if ops.any (fun o => isSync o.i) then false else k4.goSync, arrived := if ops.any (fun o => isSync o.i) then false else k4.arrived }
  let k6 := if live.any BOp.acq then k5.acquire b.scope else k5
  let s1 := s.setCore c k6
  let s2 := if b.ckp then s1.checkpoint c b.opb k.seqNo else s1
  if drained then ((if b.ckp then s2 else s2.checkpoint c false k.seqNo).modCore c (fun k => { k with item := k.item.map (fun w => { w with parked := true, after := afterEnd }) })).push (.drainPoint c)
  else s2

/-- A single-op bundle issues: its pops act, and its op is to be executed at once (R33). -/
def State.issueSingle (s : State) (c : Nat) (b : Bundle) (ops : List BOp) (afterEnd : W64) : Issued :=
  let k := s.core c
  let rs := resvList ops
  match ops.head? with
  | none => .ran s
  | some o =>
    let p := k.slipOp b rs [] o 0
    let live := o.en
    let k1 := k.queueIssue b rs (if live then [p] else [])
    let k2 : Core := match (if live then k.chrdOf true o.i else none) with
      | some x => let e := k1.chanEnd x.1; k1.setChanEnd x.1 { e with rpos := e.rpos + x.2 }
      | none => k1
    let br := if live then k.branchOf o b else none
    let k3 : Core := { k2 with pend := k2.pend ++ (if live then k.openPend b p o.sh else []), seqNo := k2.seqNo + 2, serial := true }
    let (k4, drained) := match br with
      | some _ => ({ k3 with pc := k3.target.getD b.next, target := none, jumped := k3.target.isSome }, false)
      | none => k3.advance b none 0 afterEnd
    let k5 : Core := { k4 with bundleNo := k4.bundleNo + 1, lastAct := s.cyc, stall := false }
    let s1 := s.setCore c k5
    let s2 := if drained then ((s1.checkpoint c false k.seqNo).modCore c (fun k => { k with item := k.item.map (fun w => { w with parked := true, after := afterEnd }) })).push (.drainPoint c) else s1
    if live then .start o.i { s2 with cur := { core := c, slot := o.slot, op := p } } else .ran s2

/-- Does the bundle stall the whole core before its checks: a guard or predicate that a slipped op has still to write, a streamed queue, a
layout register that an LSET has still to write (R29, R181, R301)? -/
def Core.bundleStalls (k : Core) (b : Bundle) (ops : List BOp) : Bool :=
  let live := ops.filter (·.en)
  let predsAt := live.flatMap (fun o => o.sh.predsAt) ++ ops.flatMap (fun o => (if o.sh.guard == 31 then [] else [o.sh.guard]) ++ (if o.sh.sg.getLsbD 3 then [16 + (o.sh.sg.extractLsb' 0 3).toNat] else [])) ++
    (if k.loop.act && b.pc == k.loop.end_ then List.range' 16 k.loop.s else [])
  let names := b.pops.filterMap (fun p => if p.2 == 0 then none else some p.1) ++ live.flatMap (fun o => o.sh.qsrc.map (fun q => q.1.q.toNat) ++ o.sh.quse.toList)
  predsAt.any k.predWaits || live.any (fun o => isCopy o.i && o.sh.lays.any (fun l => k.lsetWaits.contains l)) || names.any (fun q => k.streamed.contains q)

/-- Must the bundle wait before its checks (R29, R33, R122, R181, R213, R268, R301, R377, R403)? -/
def State.bundleWaits (s : State) (c : Nat) (b : Bundle) (ops : List BOp) : Bool :=
  let k := s.core c
  let live := ops.filter (·.en)
  let serial := b.single || live.any (fun o => isSerial o.i)
  k.bundleStalls b ops ||
  (live.any BOp.acq && (!s.acquireReady c b.scope none || k.slots.l.any (fun p => p.2.any (fun o => isRead o.op)))) ||
  (serial && (!k.quiet || k.pend.any (fun p => (!p.fe || p.held) && p.val.isNone))) ||
  (b.ckp && (k.repeats || k.pend.any (fun p => (!p.fe || p.held) && p.val.isNone))) ||
  (b.opb && (List.range' 1 15).any (fun n => k.pend.any (fun p => p.dst == .reg n && p.fe && !p.dead && p.val.isNone)))

/-- A SYNC bundle arrives at its line before it issues (R213): held, ready to issue, or fault 0x15. A single-op one waits first as R33 says (R214). -/
def State.syncGate (s : State) (c : Nat) (b : Bundle) (ops : List BOp) : Option State :=
  let k := s.core c
  if !ops.any (fun o => isSync o.i) || k.goSync then none
  else if b.single && s.bundleWaits c b ops then some s
  else if !k.slots.l.all (fun p => p.2.isEmpty) || k.repeats then some s
  else match s.arrive c with
    | .hold s1 => some s1
    | .fault d => some (s.issueFault c (0x15, d, 0, 0) b.next)

/-- R27, R113, R289: the slots' room and the registers that the issue itself needs. -/
def Core.nowCheck (k : Core) (b : Bundle) (o : BOp) : Option (Option IFault) :=
  if !o.en then none
  else if !b.single && !isBranch o.i && decide (9 ≤ (k.slots.get o.slot []).length) then some none
  else o.sh.now.findSome? (fun r => match k.regNow b.single r with
    | .val v => (match o.i with
      | .jr .. => if !b.single && v.toNat % 4 != 0 then some (some (0x09, 0, v, o.slot)) else none
      | _ => none)
    | .wait => some none
    | .fault code d => some (some (code, d, 0, o.slot)))

/-- The address that a bundle needs of the code beyond it: a CALL's delay bundle, or the bundle at END (R115, R119). -/
def State.needAfter (s : State) (c : Nat) (want : Bool) (va : W64) : Except W64 W64 := if want then s.after c va else .ok 0

/-- The core's next bundle stalls the whole core (R24, R27, R29, R113): CORESTAT shows it until the bundle issues (R130). -/
def State.stallCore (s : State) (c : Nat) : State := s.modCore c (fun k => { k with stall := true })

/-- A bundle that has been read: its waits, its checks, its issue. -/
def State.issueBundle (s : State) (c : Nat) (b : Bundle) : Issued :=
  let k := s.core c
  let ops := b.ops k
  match s.syncGate c b ops with
  | some s1 => .ran s1
  | none =>
    if s.bundleWaits c b ops then .ran (if k.bundleStalls b ops then s.stallCore c else s) else
    let settled := if b.single || b.ckp || ops.any (fun o => o.en && isSerial o.i) then ({ k with pend := k.pend.map (fun p => if p.val.isSome then { p with vis := min p.vis k.bundleNo } else p) } : Core).settle k.bundleNo else k
    let s0 := s.setCore c settled
    let ops := b.ops settled
    match settled.bundleFault (isCtl c) b ops with
    | some f => .ran (s0.issueFault c f b.next)
    | none =>
      if !settled.canReserve (resvList ops) then .ran (s0.stallCore c)
      else match ops.findSome? (settled.nowCheck b) with
        | some none => .ran (s0.stallCore c)
        | some (some f) => .ran (s0.issueFault c f b.next)
        | none =>
          let live := ops.filter (·.en)
          let call := live.any (fun o => match o.i with
            | .call x => settled.taken {} x
            | _ => false)
          let seqNext := settled.target.getD b.next
          match s0.needAfter c (call && !b.single) seqNext, s0.needAfter c (settled.loop.act && b.pc == settled.loop.end_) b.pc with
          | .error va, _ => .ran (s0.askFetch c va)
          | _, .error va => .ran (s0.askFetch c va)
          | .ok link, .ok after => if b.single then s0.issueSingle c b ops after else .ran (s0.issueWide c b ops link after)

/-- One attempt of a core to issue: faults of the boundary first, then the bundle at the PC. -/
def State.issue (s : State) (c : Nat) : Issued :=
  let k := s.core c
  if !s.mayIssue c || (k.serial && !k.quiet) then .ran s else
  let s1 := s.setCore c (({ k with serial := false } : Core).settle k.bundleNo)
  if !k.async.isEmpty && !k.handler && !k.goSync then .ran (s1.takeAsync c) else
  match s1.readBundle c k.pc with
  | .miss va => .ran (s1.askFetch c va)
  | .bad code d va => .ran ((s1.clearWalk c 0 va).issueFault c (code, d, va, 7) (s1.trstAfter c k.pc))
  | .got b => s1.issueBundle c b

/-- An attempt that ends at the issue of a single op, its op put at the head of its slot. -/
def Issued.state : Issued → State
  | .ran s => s
  | .start i s => s.modCore s.cur.core (fun k => { k with slots := k.slots.set s.cur.slot ({ s.cur.op with op := i } :: k.slots.get s.cur.slot []) })

/-- What a bundle at the PC is, as its header reads. -/
inductive BKind where
  | wide | single | ckpt | opb | other
  deriving DecidableEq, Repr

def State.bkind (s : State) (c : Nat) : BKind :=
  match s.fetch c (s.core c).pc with
  | .word h =>
    if hdrKind h == 5 then (if hdrOpb h then .opb else if hdrCkp h then .ckpt else .wide)
    else if hdrKind h == 6 then .single else .other
  | _ => .other

/-- WIDE_BUNDLE_ISSUE (R22): a core whose next bundle is a wide one tries to issue it. -/
def execWideBundleIssue (core : Nat) (s : State) : Res := if s.bkind core == .single then .next s else .next (s.issue core).state
/-- SINGLE_OP_BUNDLE_ISSUE (R33): the issue of a single-op bundle; its op then stands at the head of its slot. -/
def execSingleOpBundleIssue (core : Nat) (s : State) : Res := if s.bkind core == .single then .next (s.issue core).state else .next s
/-- CHECKPOINT_BUNDLE (R377, R378): the issue of a wide bundle with CKP. -/
def execCheckpointBundle (core : Nat) (s : State) : Res := if s.bkind core == .ckpt then .next (s.issue core).state else .next s
/-- OPERATOR_BOUNDARY_BUNDLE (R403): the issue of a wide bundle with OPB. -/
def execOperatorBoundaryBundle (core : Nat) (s : State) : Res := if s.bkind core == .opb then .next (s.issue core).state else .next s

end Sys2Proof.Machine
end

