-- ==== Sys2Proof/Machine/Trap.lean ====
section
/-! DEFINITION. Rollback, handler entry, abandonment, watchdogs and hardware errors of a core (16, R383 to R400). -/
namespace Sys2Proof.Machine

/-! ## Rollback (R384) -/

/-- Is an entry of the core still on its way (R21)? -/
def arrivalFor (c : Nat) : Ev → Bool
  | .queueEntryArrival a => a.core == c
  | .counterPost p => p.tgt == c && p.src == c
  | _ => false

/-- Is an event a core's request for channel positions, on its way to the table? -/
def asksFor (c : Nat) : Ev → Bool
  | .channelDelivery d => d.ask != 0 && d.core == c
  | _ => false

/-- Step 1 of R384, with R270: every op issued before the checkpoint and every op and command that has started is complete, their items are
sent, and nothing is on its way to the core's entries and counters. -/
def State.rollbackReady (s : State) (c : Nat) : Bool :=
  let k := s.core c
  k.slots.l.all (fun p => p.2.isEmpty) && !k.stream.any (fun st => decide (st.op.ival < k.ival)) && k.jobs.isEmpty && !k.convBusy && k.bankJobs.isEmpty && k.banks.l.all (fun b => b.2.st != .loading) &&
  k.ports.all (fun x => x.held && !x.sent) && k.items.all (fun i => decide (k.ival ≤ i.ival)) && k.subm.isEmpty &&
  !s.clk.pending.any (arrivalFor c) && !s.clk.urgent.any (arrivalFor c) && !s.inFlight.any (asksFor c)

/-- Step 2: the open interval's withheld stores, held commands, held releases and submissions are discarded. -/
def Core.discardOpen (k : Core) : Core :=
  { k with items := k.items.filter (fun i => decide (i.ival < k.ival)), ports := k.ports.filter (fun x => !(x.held && !x.sent && x.ival == k.ival)) }

/-- Step 3: registers, predicates, FFLAGS and loop take their duplicates, and the PC takes TRST. Results of ops of earlier intervals are
still to come (R379). A drain request stays pending (R418). -/
def Core.restoreRegs (k : Core) : Core :=
  let d := k.dup
  let k1 : Core :=
    { k with regs := d.regs, preds := d.preds, loop := d.loop, pc := k.sys.trst, target := d.target, sys := { k.sys with fflags := d.fflags }, stream := none, serial := false,
             pend := (k.pend.filter (fun p => decide (p.ival < k.ival))).map (fun p => { p with dead := p.dead && (p.fin || decide (p.deadIv < k.ival)) }) }
  match k.item with
  | some w => if w.drain.isSome && d.loop.act && d.loop.lc != 0 then { k1 with loop := { d.loop with lc := 0 }, item := some { w with drain := some d.loop.lc } } else k1
  | none => k1

/-- Step 4: each shadowed tile takes its shadow. -/
def Core.restoreTiles (k : Core) : Core := { k with acc := k.shadow.l.foldl (fun t x => t.set x.1 x.2) k.acc, shadow := ⟨[]⟩ }

/-- The n entries from an index, PRESENT. -/
def presentEnts (u : Queue) (idx : Nat) : Nat → Queue
  | 0 => u
  | n + 1 => presentEnts (u.setEnt idx { st := .present, pres := true }) ((idx + 1) % 65536) n

/-- A local queue as recorded at the checkpoint: its window PRESENT, every other entry FREE (R384 step 5). An entry that a channel read of an
earlier op has still to fill stays RESERVED (R289). -/
def Queue.restoreLocal (now d : Queue) (ival : Nat) : Queue :=
  let u := presentEnts { d with ents := ⟨[]⟩ } d.head d.count
  if now.base == d.base && now.logc == d.logc then
    (List.range d.count).foldl (fun u j => let e := now.ent (d.head + j); if e.filler == .read && decide (e.ival < ival) && !e.pres && (e.st == .reserved || e.st == .draining) then u.setEnt (d.head + j) { e with st := .reserved, readers := 0 } else u) u
  else u

/-- A sending end (R226): TAIL returns, HEAD stays, entries since the checkpoint are discarded. -/
def Queue.restoreSend (now d : Queue) : Queue :=
  presentEnts { now with spl := 1, tail := d.tail, ents := ⟨[]⟩ } now.head ((d.tail + 65536 - now.head) % 65536)

/-- A receiving end (R226): HEAD returns, TAIL and the delivered entries stay, those popped since the checkpoint too. An end that a QUNSPLICE has
made local since is one again, with the delivered index it had (`cut`). -/
def Queue.restoreRecv (now d : Queue) (cut : Option Nat) : Queue :=
  match cut with
  | none => { now with spl := 2, head := d.head, rd := [] }
  | some tail =>
    let n := (tail + 65536 - d.head) % 65536
    presentEnts { d with spl := 2, tail := tail, rd := [], ents := ⟨(now.ents.l.filter (fun e => e.2.passed)).map (fun e => (e.1, { st := .present, pres := true }))⟩ } d.head
      (if d.cap < n then 0 else n)

/-- The record of a splice after a rollback (R226), from the record of the checkpoint and the present one: an acceptance that has arrived
since is held. -/
def Splice.restore (old now : Splice) (ty : Nat) : Splice :=
  match old.st with
  | .local_ => { old with acc := if old.acc.isSome then old.acc else if now.acc.isSome then now.acc else if now.got then some (now.pcore, now.pq, ty, now.cred) else none }
  | .pending => if now.got then { now with st := .open_ } else old
  | .open_ => { now with st := .open_ }
  | .accepting | .ropen => if now.st == .closed then { old with st := .closed } else old
  | _ => old

/-- One queue and its record (R384 step 5, R226). -/
def Core.restoreQueue (k : Core) (q : Nat) : Core :=
  let now := k.queue q
  let d := k.dup.queues.get q {}
  let r := k.splice q
  let old := Tab.findL k.dup.splices q
  let r1 := match old with
    | some o => o.restore r now.ty
    | none => r
  let cut := old.isSome && (r1.st == .failed || r1.st == .ended)
  let u := if d.spl == 1 && r1.st == .local_ then { d with spl := 0, head := d.tail, ents := ⟨[]⟩, rd := [] }
    else if d.spl == 1 then (if cut then presentEnts { d with ents := ⟨[]⟩ } d.head d.count else now.restoreSend d)
    else if d.spl == 2 then now.restoreRecv d (old.map (·.cred))
    else now.restoreLocal d k.ival
  (k.setQueue q u).setSplice q (if d.spl == 2 then { r1 with cred := 0 } else r1)

/-- Step 5 for the queues. -/
def Core.restoreQueues (k : Core) : Core :=
  let k1 := (List.range 8).foldl Core.restoreQueue k
  { k1 with dup := { k1.dup with splices := [], recon := [] } }

/-- Step 6: OWN counters return, and the posts of commands issued before the checkpoint are applied again (R326); the first that overshoots. -/
def Core.restoreCtrs (k : Core) : Core × Option Nat :=
  let own (n : Nat) : Bool := !(k.dup.ctrs.get n {}).shared && !(k.ctrs.get n {}).shared
  let k1 := (List.range 64).foldl (fun (x : Core) n => if own n && (k.dup.ctrs.get n {}) != (x.ctrs.get n {}) then { x with ctrs := x.ctrs.set n (k.dup.ctrs.get n {}) } else x) k
  k.dup.posts.foldl (fun (a : Core × Option Nat) p =>
    if !own p.1 then a
    else match (a.1.ctrs.get p.1 {}).post p.2 with
      | some c => ({ a.1 with ctrs := a.1.ctrs.set p.1 c }, a.2)
      | none => (a.1, if a.2.isNone then some p.1 else a.2)) (k1, none)

/-- Steps 2 to 6 of R384. -/
def State.undo (s : State) (c : Nat) : State :=
  let s1 := s.chanRollback c (s.core c).dup.seq
  let r := ((((s1.core c).discardOpen.restoreRegs).restoreTiles).restoreQueues).restoreCtrs
  let s2 := (s1.setCore c r.1).withdraw c
  let s3 := match r.2 with
    | some n => s2.asyncFault c { code := 0x13, detail := 1, addr := ctrAddr c n, pc := 0, slot := 7, single := false }
    | none => s2
  (s3.dropFaults c).pokeSplices c

/-! ## Abandonment (R390) -/

/-- Channel ends after a discard by the Peel (R290): WPOS := TAILO; RPOS := HEADR := HEADO. -/
def State.chanDiscard (s : State) (c : Nat) : State :=
  (s.core c).chans.l.foldl (fun s x =>
    let k := s.core c
    let e := k.chanEnd x.1
    let t := s.chan x.1
    if t.open_ && t.reader == c then
      (s.setChan x.1 { t with headr := t.heado, reads := [], delivered := [], headrWant := [] }).setCore c (k.setChanEnd x.1 { e with rpos := t.heado, rposC := t.heado })
    else if t.open_ && t.writer == c then
      let w := t.tailoWant.foldl max t.tailo
      s.setCore c (k.setChanEnd x.1 { e with wpos := w, wposC := w })
    else s) s

/-- ABNST (R390). -/
def abnst (code core cause : Nat) : W64 := w64 (code * 65536 + core * 256 + cause)

/-- The abandonment as the control core will take it: DETAIL holds CAUSE, TADDR the WID, TPC the control core's next bundle. -/
def abnFault (cause : Nat) (wid : W64) : FaultRec := { code := 0x1B, detail := cause, addr := wid, pc := 0, slot := 7, single := true }

/-- The control core that takes a partition's report from a die: that die's, else the lowest that runs its context (R390). -/
def State.reportDie (s : State) (p d : Nat) : Option Nat := if s.ctlRuns p d then some d else (List.range 4).find? (s.ctlRuns p)

/-- ABANDONMENT_REPORT (R390): the reports of a die's work items reach a control core of their partition, in order, or wait for one. -/
def execAbandonmentReport (die : Nat) (s : State) : Res :=
  let s1 := s.parts.l.foldl (fun (s : State) x =>
    (s.part x.1).reports.foldl (fun (s : State) r =>
      if r.1 != die then s else
      match s.reportDie x.1 die with
      | none => s
      | some d =>
        ((s.modPart x.1 (fun p => { p with reports := p.reports.erase r })).modCore (128 + d) (fun k => { k with ctl := { k.ctl with abn := k.ctl.abn ++ [r.2] } })).asyncFault (128 + d) r.2.1) s) s
  .next (if s1.parts.l.any (fun x => x.2.reports.any (fun r => r.1 == die)) then s1.push (.abandonmentReport die) else s1)

/-- The ops of the open interval that have not started leave their slots. -/
def Core.dropOpen (k : Core) : Core :=
  let gone := k.slots.l.flatMap (fun p => (p.2.filter (fun o => !decide (o.ival < k.ival))).flatMap (fun o => o.srcs))
  { k.readersDone gone with slots := ⟨k.slots.l.map (fun p => (p.1, p.2.filter (fun o => decide (o.ival < k.ival))))⟩ }

/-- Open peers of the core's splice ends told that it has gone, where it can wait no longer. -/
def State.cutSplices (s : State) (c : Nat) : State :=
  (List.range 8).foldl (fun s q =>
    let r := (s.core c).splice q
    if ((s.core c).queue q).spl == 0 then s
    else if r.st == .open_ || r.st == .ropen || (r.st == .closing && r.got) then s.refuse c q r.pcore r.pq else s) s

/-- A work item abandoned (R390): the report, the channel and splice ends, and its end as at HALT. An item that hangs in its own HALT, or in an
abandonment, ends at once. -/
def State.abandon (s : State) (c cause code : Nat) : State :=
  let k := s.core c
  match k.item with
  | none => s
  | some w =>
    if k.abandoned then (s.cutSplices c).endItem c
    else
      let s1 := (s.modCore c (fun k => { k with trap := none, halting := true, abandoned := true, lastAct := s.cyc })).chanDiscard c
      let s2 := s1.modPart w.part (fun p => { p with reports := p.reports ++ [(dieOf c, abnFault cause w.wid, abnst code (coreNo c) cause)] })
      if k.halting then ((s2.cutSplices c).push (.abandonmentReport (dieOf c))).endItem c
      else (((s2.pump c).haltSplices c).push (.abandonmentReport (dieOf c))).push (.workItemEnd c)

/-! ## The end of a rollback (R384 to R386) -/

/-- ROLLBACK_COMPLETE (R384): once step 1 is done, steps 2 to 6; then for a fault the handler, or abandonment with TVEC = 0 (R386). A fault in
handler mode abandons the item (R390). -/
def execRollbackComplete (core : Nat) (s : State) : Res :=
  let k := s.core core
  match k.trap with
  | none => .next s
  | some t =>
    if !s.rollbackReady core then .next ((s.pump core).push (.rollbackComplete core))
    else match t with
      | .machine => .next ((s.undo core).modCore core (fun k => { k with trap := none }))
      | .fault f =>
        if k.handler then .next (s.abandon core 2 f.code)
        else
          let s1 := (s.undo core).modCore core (fun k => { k with trap := none, rbFaults := (s.cyc :: k.rbFaults).take 2 })
          if k.sys.tvec == 0 then .next ((s1.modCore core (fun k => k.trapRegs f)).abandon core 3 f.code)
          else .next (s1.modCore core (fun k => k.enterHandler f))

/-! ## Watchdogs (R391, R392) -/

/-- Is a core hung (R391)? -/
def State.hung (s : State) (c : Nat) : Bool :=
  let k := s.core c
  match k.item with
  | some w =>
    let n := (s.part w.part).wdcfg * 8192
    w.started && !w.parked && n != 0 && (decide (k.lastAct + n ≤ s.cyc) || (decide (k.rbBase + n ≤ s.cyc) && (k.rbFaults[1]?).any (fun t => decide (s.cyc ≤ t + n))))
  | none => false

/-- HANG_WATCHDOG (R391): a hung core's item is abandoned with CAUSE 1; its open interval is discarded first (R390). -/
def execHangWatchdog (core : Nat) (s : State) : Res :=
  if !s.hung core then .next s
  else if (s.core core).handler || (s.core core).halting then .next (s.abandon core 1 0)
  else .next (((s.modCore core Core.dropOpen).undo core).abandon core 1 0)

/-- Has an operator passed its bound without having been told (R392)? -/
def State.overBound (s : State) (c : Nat) : Bool :=
  let k := s.core c
  k.item.any (·.started) && k.sys.opbmax != 0 && !k.opbHit && decide (k.sys.opbmax.toNat < s.opbcy c)

/-- OPERATOR_BOUND_EXCEEDED (R392): fault 0x1F once, at the next bundle boundary. -/
def execOperatorBoundExceeded (core : Nat) (s : State) : Res :=
  if !s.overBound core then .next s
  else .next ((s.modCore core (fun k => { k with opbHit := true })).asyncFault core { code := 0x1F, detail := 0, addr := 0, pc := 0, slot := 7, single := false })

/-! ## Hardware errors (R397 to R400) -/

/-- MACHINE_ROLLBACK (R399): a transient error on a tile core in normal mode rolls it back; the third with no checkpoint between resets the
partition (R401). In handler mode and on a control core the op is executed again (R400). -/
def execMachineRollback (core : Nat) (s : State) : Res :=
  let k := s.core core
  if isCtl core || k.handler || k.trap.isSome || k.halting then .next s
  else match k.item with
    | none => .next s
    | some w =>
      if k.goSync then .next (s.push (.machineRollback core))
      else if 3 ≤ k.rbMach + 1 then .next ((s.modCore core (fun k => { k with rbMach := k.rbMach + 1 })).pushReset w.part 2)
      else .next (((s.withdraw core).modCore core (fun k => { k.beginTrap .machine with rbMach := k.rbMach + 1 })).push (.rollbackComplete core))

/-- SINGLE_OP_ERROR_RETRY (R400): the op is cancelled before it writes and executed again: nothing is left of the error. -/
def execSingleOpErrorRetry (_core : Nat) (s : State) : Res := .next s

/-- CORRECTABLE_ERROR (R397): corrected before use and counted. -/
def execCorrectableError (_word : Nat) (s : State) : Res := .next { s with mgpLog := s.mgpLog + 1 }

/-- The partitions that lose stored state (R398): the one whose state it is, or those with a binding on an array (R369). -/
def State.losers (s : State) : Loss → List Nat
  | .part p => [p]
  | .array a => nub ((s.arr a).binds.l.filterMap (fun b => if b.2.st == .free then none else some b.2.part))

/-- LOSS_OF_STORED_STATE (R398, R369): the management processor resets the partitions (R401). -/
def execLossOfStoredState (what : Loss) (s : State) : Res := .next ((s.losers what).foldl (fun s p => s.pushReset p 1) s)

end Sys2Proof.Machine
end

