-- ==== Sys2Proof/Machine/Peel.lean ====
section
/-! DEFINITION. The Peel (17): deadline posts, groups and their decision, the three paths, resumption, scheduler contexts and fence records. -/
namespace Sys2Proof.Machine

/-- A bit of a function's FERR becomes 1 (R456, R465). -/
def State.setFerr (s : State) (p bit : Nat) : State :=
  let f := s.fn p
  let s1 := s.modFn p (fun f => { f with ferr := f.ferr ||| w64 (2 ^ bit) })
  if !f.ferr.getLsbD bit && f.fctl.getLsbD 7 then s1.push (.interruptEvent p (bitsAt f.fctl.toNat 8 11) f.rgen) else s1

/-! ## Scheduler contexts (R425, R492) -/

/-- The enabled tile cores of a partition. -/
def State.partCores (s : State) (p : Nat) : List Nat := (List.range 4).flatMap (s.enabledCores p)

/-- Is a partition under a partition eviction, or every core of it held after one (R412, R420)? -/
def State.partHeld (s : State) (p : Nat) : Bool :=
  s.peelPosts.any (fun x => x.whole && x.part == p) || (s.partCores p).all (fun c => (s.die (dieOf c)).hold.contains c)

/-- The context that starts on a control core (R492): all registers 0 but s1 and s2, the scratchpad zero but for scheduler data (R429), at VA. -/
def startCtl (k : Core) (p d : Nat) (f : Fn) : Core :=
  { Core.resetCtl with
    regs := ⟨[(1, w64 f.seq), (2, w64 d)]⟩, spad := Spad.writeN {} 0 f.sdata, pc := w64 (bitsAt f.sched.toNat 2 46 * 4),
    ctl := { running := true, part := p }, seqNo := k.seqNo + 1, bundleNo := k.bundleNo + 4, ival := k.ival + 1, expMax := k.expMax }

/-- May a die's control core take a context? -/
def State.ctlIdle (s : State) (d : Nat) : Bool := !(s.core (128 + d)).ctl.running

/-- A context of a partition started on a die, or taken up again where it was saved. -/
def State.wakeOne (s : State) (p d : Nat) : State :=
  if !s.ctlIdle d then s else
  let f := s.fn p
  match (s.die d).ctx.find p with
  | some k =>
    if s.partHeld p then s
    else ((s.setCore (128 + d) k).modDie d (fun x => { x with ctx := x.ctx.del p })).modFn p (fun f => { f with dies := f.dies ||| 2 ^ d })
  | none =>
    if f.toStart.testBit d then
      let left := f.toStart &&& (15 ^^^ 2 ^ d)
      ((s.setCore (128 + d) (startCtl (s.core (128 + d)) p d f)).modDie d (fun x => { x with sel := x.sel.set p { last := s.cyc } })).modFn p (fun f =>
        { f with dies := f.dies ||| 2 ^ d, toStart := left, sched := if left == 0 then f.sched &&& ~~~(1#64) else f.sched })
    else s

/-- Contexts that can run now do. -/
def State.wakeContexts (s : State) : State :=
  (List.range 16).foldl (fun s p => (List.range 4).foldl (fun s d => s.wakeOne p d) s) s

/-- A WQTAKE or WAITC that waits is abandoned at an eviction of its context, and executes again at its resumption (R425). -/
def SlipOp.abandonable (o : SlipOp) : Bool :=
  o.waits && (match o.op with
    | .wqtake .. => true
    | .waitc .. => true
    | _ => false)

/-- Has a control core reached a single-op boundary (R425)? A PEELPOST in progress keeps running in the Peel. -/
def State.ctlQuiet (s : State) (c : Nat) : Bool :=
  let k := s.core c
  k.trap.isNone && k.sent.isEmpty && k.ports.isEmpty && k.outs.isEmpty && k.relWait.isNone &&
  k.slots.l.all (fun p => p.2.all SlipOp.abandonable) &&
  k.pend.all (fun p => p.val.isSome || s.peelPosts.any (fun x => x.tk == some (c, p.tk)) || k.slots.l.any (fun q => q.2.any (fun o => o.tk == some p.tk)))

/-- SCHEDULER_CONTEXT_SAVED (R425): a control core that is being evicted saves its context at an op boundary; it resumes at the next op.
A control core that is free takes a context that waits for it. -/
def execSchedulerContextSaved (die : Nat) (s : State) : Res :=
  let c := 128 + die
  let k := s.core c
  if k.ctl.running && k.ctl.saving then
    if !s.ctlQuiet c then .next (s.push (.schedulerContextSaved die))
    else
      let s1 := s.modDie die (fun x => { x with ctx := x.ctx.set k.ctl.part { k with ctl := { k.ctl with saving := false } } })
      let s2 := s1.setCore c { Core.resetCtl with seqNo := k.seqNo, bundleNo := k.bundleNo, ival := k.ival, expMax := k.expMax }
      .next ((s2.modFn k.ctl.part (fun f => { f with dies := f.dies &&& (15 ^^^ 2 ^ die) })).wakeContexts)
  else .next s.wakeContexts

/-! ## Posts (R410 to R412) -/

/-- The cores a request record names. -/
def recCores (r : Bytes) : List Nat := (List.range 128).filter (fun c => (fieldAt r (8 + 4 * (c / 32)) 4).testBit (c % 32))

/-- BADREC (R411). -/
def recPostBad (r : Bytes) : Bool :=
  let fl := fieldAt r 0x18 1
  fl / 4 != 0 || (r.drop 0x19).any (· != 0) || fl == 3 || (fl == 2 && fieldAt r 0 8 != 0)

/-- A post: a result at once, or a record for the Peel and its decision to come. A post with PART that names every core of its partition is
a partition eviction (R412). -/
def State.post (s : State) (r : Bytes) (p : Nat) (tk : Option (Nat × Nat)) (fn : Option Nat) (partBit : Bool) : State × Option Nat :=
  let cs := recCores r
  if recPostBad r then (s, some 1)
  else if cs.any (fun c => s.partOf c != p) then (s, some 2)
  else if fieldAt r 0x18 1 == 2 then
    ((List.range 4).foldl State.pokePlace (cs.foldl (fun s c => s.modDie (dieOf c) (fun x => { x with hold := x.hold.filter (· != c) })) s).wakeContexts, some 0)
  else
    let (id, s1) := s.newId
    let s2 := if fieldAt r 0x18 1 == 1 then
      cs.foldl (fun s c => s.modDie (dieOf c) (fun x => { x with hold := if x.hold.contains c then x.hold else x.hold ++ [c] })) s1 else s1
    let rec_ : PeelPostRec := { id := id, tk := tk, fn := fn, part := p, whole := partBit && (s.partCores p).all cs.contains, d := fieldAt r 0 8, cores := cs }
    (({ s2 with peelPosts := s2.peelPosts ++ [rec_] } : State).push (.peelDecision id), none)

/-- PEELPOST (R410): control cores only. -/
def execPeelpost (d a : BitVec 6) (s : State) : Res :=
  let c := s.cur.core
  if !isCtl c then .next (s.raise 0x02 0 0) else
  s.reg (.peelpost d a) true a.toNat (fun v =>
    if v.toNat % 64 != 0 then .next (s.raise 0x09 0 v)
    else if 1047552 < v.toNat + 64 then .next (s.raise 0x0A 0 v)
    else
      let r := (s.core c).spadRead s.cur.op v.toNat 64
      let (t, k) := (s.core c).feTicket s.cur.op d.toNat
      match (s.setCore c k).post r (s.partOf c) (some (c, t)) none false with
      | (s1, some st) => .next (s1.push (.scalarResultArrival c t (w64 st)))
      | (s1, none) => .next s1)

/-! ## Vacancy and results (R411, R419, R425) -/

/-- PEELPOST's sd (R411). -/
def PeelPostRec.word (x : PeelPostRec) : Nat :=
  (if x.merged then 2 ^ 32 else 0) + min x.ndisc 255 * 2 ^ 24 + min x.nckpt 255 * 2 ^ 16 + min x.nrun 255 * 2 ^ 8 + (if x.late then 3 else 0)

def Group.active (g : Group) : Bool := g.st == .runb || g.st == .drain || g.st == .discarding

/-- Is a core vacant (R419)? -/
def State.vacant (s : State) (c : Nat) : Bool := (s.core c).item.isNone && (s.core c).freeAt

/-- Is everything that a post names vacant? -/
def State.postDone (s : State) (x : PeelPostRec) : Bool :=
  x.decided && x.cores.all s.vacant && x.groups.all (fun i => !s.groups.any (fun g => g.id == i && g.active))

/-- The result of a post to its poster: a running context, a saved one, or the function's register (R411, R412, R425). -/
def State.postResult (s : State) (x : PeelPostRec) : State :=
  let s1 := match x.tk with
    | some (c, t) =>
      if s.ctlRuns x.part (dieOf c) then s.push (.scalarResultArrival c t (w64 x.word))
      else s.modDie (dieOf c) (fun y => match y.ctx.find x.part with
        | some k => { y with ctx := y.ctx.set x.part ((k.land t (w64 x.word)).settle k.bundleNo) }
        | none => y)
    | none => s
  match x.fn with
  | some n => s1.modFn n (fun f => { f with peelBusy := f.peelBusy - 1, peelRes := w64 x.word })
  | none => s1

/-- Posts whose cores are vacant end; what waited for that may go on. -/
def State.finishPosts (s : State) : State :=
  let dn := s.peelPosts.filter s.postDone
  if dn.isEmpty then s else
  let s1 : State := { s with peelPosts := s.peelPosts.filter (fun x => !s.postDone x) }
  (List.range 4).foldl State.pokePlace (dn.foldl State.postResult s1).wakeContexts

/-- A group whose items are all parked or ended (R426): counted in its posts, and parked, one part for each die it lies on. -/
def State.groupDone (s : State) (g : Group) : State :=
  let np := g.parked.length
  let cnt (x : PeelPostRec) : PeelPostRec :=
    if !g.posts.contains x.id then x
    else { x with nrun := x.nrun + (g.n - np) + (if g.path == .run then np else 0), nckpt := x.nckpt + (if g.path == .ckpt then np else 0),
                  ndisc := x.ndisc + (if g.path == .disc then np else 0) }
  let s1 : State := { s with peelPosts := s.peelPosts.map cnt, groups := s.groups.filter (fun x => x.id != g.id) }
  let ds := nub (g.parked.map (fun x => x.item.die))
  let s2 := (ds.zip (List.range ds.length)).foldl (fun (s : State) x =>
    let ps := g.parked.filter (fun y => y.item.die == x.1)
    let (id, s3) := if x.2 == 0 then (g.id, s) else s.newId
    let g1 : Group := { g with id := id, st := .parked, die := x.1, parked := ps, n := ps.length, frames := if x.2 == 0 then g.frames else [] }
    ({ s3 with groups := s3.groups ++ [g1] } : State).pokePlace x.1) s1
  if ds.isEmpty then s2.modPart g.part (fun p => { p with frames := p.frames ++ g.frames }) else s2

/-- Groups and posts looked at. -/
def State.checkGroups (s : State) : State :=
  (s.groups.foldl (fun (s : State) g =>
    if g.active && !s.cores.l.any (fun x => match x.2.item with
      | some w => w.group == some g.id
      | none => false) then s.groupDone g else s) s).finishPosts

/-! ## Parking (R417 to R419) -/

/-- Parked items in the order of their entries and WIDs. -/
def insertParked (x : Parked) : List Parked → List Parked
  | [] => [x]
  | y :: r => if decide (y.item.entry < x.item.entry) || (y.item.entry == x.item.entry && decide (y.item.wid.toNat ≤ x.item.wid.toNat)) then y :: insertParked x r else x :: y :: r

/-- Does an item that has parked hold the end of a channel that the table still names by its former core (R421)? -/
def State.endParked (s : State) (c ch : Nat) : Bool := s.groups.any (fun g => g.st != .resuming && g.parked.any (fun x => x.core == c && (x.ends.find ch).isSome))

/-- The open channels with an end at a core, with that end (R281), once nothing of the core is under way: nothing of a CHWR is pending (R288). -/
def State.endsAt (s : State) (c : Nat) : Tab ChanEnd :=
  ⟨s.dies.l.flatMap (fun d => (d.2.chans.l.filter (fun e => e.2.open_ && (e.2.reader == c || e.2.writer == c) && !s.endParked c e.1)).map (fun e =>
    (e.1, { (s.core c).chanEnd e.1 with wpend := 0, wants := [] })))⟩

/-- A member of a gang under eviction leaves its line, which is free when the last has left (R216, R424). -/
def State.leaveEvicted (s : State) (c : Nat) (w : WorkItem) : State :=
  match w.line with
  | none => s
  | some l => s.modDie (dieOf c) (fun x =>
      let ln := x.lines.get l {}
      let m := ln.members.filter (· != c)
      { x with lines := x.lines.set l (if m.isEmpty then {} else { ln with members := m, arrived := ln.arrived.filter (· != c) }) })

/-- A core without its item: what another may start on. -/
def Core.vacated (k : Core) (ends : Tab ChanEnd) : Core :=
  { k with item := none, freeAt := false, halting := false, trap := none, async := [], slots := ⟨[]⟩, items := [], pend := [], arrived := false, goSync := false,
           handler := false, serial := false, stream := none, target := none, relWait := none, relItem := false, subm := [], cstall := false,
           ports := k.ports.filter (fun x => x.sent), chans := ⟨k.chans.l.filter (fun x => (ends.find x.1).isNone)⟩ }

/-- Every result that has its value, in its register. -/
def Core.settleAll (k : Core) : Core :=
  ({ k with pend := k.pend.map (fun p => if p.val.isSome then { p with vis := min p.vis k.bundleNo } else p) } : Core).settle k.bundleNo

/-- An item parks (R417 to R419), `save` with its context, in which `opbBase` holds OPBCY itself: its core is vacant, its group counts it, and its
channel commits wait in its frame (log 111). -/
def State.park (s : State) (c : Nat) (save : Bool) : State :=
  let k := s.core c
  match k.item with
  | none => s
  | some w =>
    let ends := s.endsAt c
    let pk : Parked := { core := c, item := w, save := if save then some { k.settleAll with opbBase := s.opbcy c } else none, ends := ends, async := k.async }
    let s1 := (s.leaveEvicted c w).setCore c (k.vacated ends)
    let s2 := s1.modDie w.die (fun y =>
      let x := y.entries.get w.entry {}
      { y with entries := y.entries.set w.entry { x with exp := (List.range 4).map (fun i => max (x.exp.getD i 0) (k.expMax.getD i 0)) } })
    let s3 : State := { s2 with groups := s2.groups.map (fun g => if w.group == some g.id then { g with parked := insertParked pk g.parked } else g) }
    (s3.push (.coreFree c)).checkGroups

/-- Nothing of a core is under way: every op is complete, every fill has landed, and every released item has been acknowledged. -/
def State.settled (s : State) (c : Nat) : Bool :=
  let k := s.core c
  s.rollbackReady c && k.trap.isNone && k.stream.isNone && k.sent.isEmpty && k.outs.isEmpty && k.relWait.isNone &&
  k.pend.all (fun p => !p.op || p.val.isSome) && k.queues.l.all (fun q => q.2.spl == 2 || q.2.ents.l.all (fun e => e.2.st != .reserved))

/-- 64 bytes of a save or restore, between a core and the home slice of its park frame (R418, R436, R439): they carry on in `e` (log 112). -/
def State.peelPiece (s : State) (c : Nat) (out : Bool) (e : Ev) : State :=
  match (s.core c).item with
  | none => s
  | some w =>
    let pa := w.frame * 4096 + 64 * (w.left.getD 0 % 64)
    let sl := s.homeNode c pa
    (s.modCore c (fun k => { k with item := k.item.map (fun w => { w with sentAt := s.cyc }) })).transmit (if out then nodeOf c else sl) (if out then sl else nodeOf c) (xOf pa) 1 (flitsOf 64) true e

/-- A save goes on, by at most 64 bytes per cycle (R442): `n` pieces, and then what follows. -/
def State.saveStep (s : State) (c n : Nat) (e : Ev) (fin : State → State) : State :=
  match (s.core c).item with
  | none => s
  | some w =>
    let send (m : Nat) : State := (s.modCore c (fun k => { k with item := k.item.map (fun w => { w with left := some m }) })).peelPiece c true e
    match w.left with
    | none => if n == 0 then fin s else send (n - 1)
    | some 0 => fin s
    | some (m + 1) => if w.sentAt == s.cyc then s.push e else send m

/-- Pieces of a graph position in its park frame (R403), and with RSENT (R419). -/
def posPieces : Nat := 2
def discPieces : Nat := 3

/-- The group of a core's item. -/
def State.groupAt (s : State) (c : Nat) : Option Group := (s.core c).item.bind (fun w => s.groups.find? (fun g => w.group == some g.id))

/-- PEEL_RUN_PARK (R417): an item of a RUN group at its operator boundary parks once all is complete; then groups and posts are looked at. -/
def execPeelRunPark (core : Nat) (s : State) : Res :=
  let s1 := s.pump core
  match s1.groupAt core, (s1.core core).item with
  | some g, some w =>
    if g.st == .runb && w.parked && !(s1.core core).halting then
      (if s1.settled core && (s1.core core).items.isEmpty then .next (s1.saveStep core posPieces (.peelRunPark core) (fun s => s.park core false)) else .next (s1.push (.peelRunPark core)))
    else .next s1.checkGroups
  | _, _ => .next s1.checkGroups

/-- Does a splice of the core still carry entries: from it, or to it from a peer that has not drained (R424)? -/
def State.splicesMove (s : State) (c : Nat) : Bool :=
  let busy (c : Nat) : Bool := (List.range 8).any (fun q => (s.core c).canShip q || ((s.core c).splice q).inflight != 0)
  busy c || (List.range 8).any (fun q =>
    let r := (s.core c).splice q
    ((s.core c).queue q).spl != 0 && (r.st == .open_ || r.st == .ropen) && (busy r.pcore || (match (s.core r.pcore).item with
      | some w => w.group == ((s.core c).item.bind (·.group)) && !w.parked
      | none => false)))

/-- A drain request to a core (R418). -/
def Core.drainRequest (k : Core) : Core := { k with loop := { k.loop with lc := 0 }, item := k.item.map (fun w => { w with drain := some k.loop.lc }) }

/-- DRAIN_POINT (R418): a drain request reaches its core; at the drain point the checkpoint has been taken, and the core waits until all is complete,
and then writes its context. -/
def execDrainPoint (core : Nat) (s : State) : Res :=
  let s1 := s.pump core
  match s1.groupAt core with
  | none => .next s1
  | some g =>
    if g.st != .drain then .next s1
    else if ((s1.core core).item.bind (·.drain)).isNone then .next (s1.modCore core Core.drainRequest)
    else if s1.settled core && (s1.core core).items.isEmpty && !s1.splicesMove core then .next (s1.push (.ckptSaveComplete core))
    else .next (s1.push (.drainPoint core))

/-- CKPT_SAVE_COMPLETE (R418): the context goes to its frames; once all of it is there, the item parks. -/
def execCkptSaveComplete (core : Nat) (s : State) : Res :=
  match s.groupAt core with
  | none => .next s
  | some g => if g.st == .drain then .next (s.saveStep core (((s.core core).dsz.toNat + 63) / 64) (.ckptSaveComplete core) (fun s => s.park core true)) else .next s

/-- Does a CHWR of a closed interval go on through a discard: it has passed its checks and the capacity test (R288), no command before it is
abandoned, and its entries are there or are filled by ops that have started? -/
def Core.chwrGoes (k : Core) (gone : List SlipOp) (o : SlipOp) : Bool :=
  match o.op, o.answer with
  | .chwr l _ sr _ _, some (some _) =>
    decide (o.ival < k.ival) && (match o.capVal sr.toNat with
      | some v => let e := k.chanEnd v.toNat; e.room (l.toNat + 1 - e.suppressed (l.toNat + 1))
      | none => false) &&
    !gone.any (fun g => isHolding g.op && decide (g.seq < o.seq)) &&
    o.srcs.all (fun x => (k.queue x.1).isPres x.2 || !gone.any (fun g => g.resv.any (fun r => r.1 == x.1 && decide ((x.2 + 65536 - r.2.1) % 65536 < r.2.2))))
  | _, _ => false

/-- The ops that a discard abandons: those since the latched position that have not started (R384 step 1, R432, log 110). -/
def Core.abandons (k : Core) (iv : Nat) : List SlipOp :=
  let late := (k.slots.l.flatMap (·.2)).filter (fun o => decide (iv ≤ o.ival))
  let gone := late.filter (fun o => !(isChwr o.op && (o.answer.any (·.isSome))))
  late.filter (fun o => !k.chwrGoes gone o)

/-- They leave their slots, and the items after the first command among them are discarded: the replay sends them (R422). -/
def Core.dropUnstarted (k : Core) (iv : Nat) : Core :=
  let gone := k.abandons iv
  let cut (i : Item) : Bool := gone.any (fun g => isHolding g.op && decide (g.seq < i.seq))
  { k.readersDone (gone.flatMap (·.srcs)) with
    slots := ⟨k.slots.l.map (fun p => (p.1, p.2.filter (fun o => !gone.contains o)))⟩, items := k.items.filter (fun i => !cut i) }

/-- A core starts to discard (R419 step 1): it stops issuing, and ops since its latched position that have not started are abandoned (log 110). -/
def State.startDiscard (s : State) (c : Nat) : State :=
  ((s.withdraw c).modCore c (fun k =>
    let k1 := k.dropUnstarted ((k.item.map (·.latIval)).getD 0)
    { k1 with item := k1.item.map (fun w => { w with parked := true, drain := none, disc := true, left := none }) })).push (.discardComplete c)

/-- A Peel request to a core (R436). -/
def State.peelRequest (s : State) (c : Nat) (e : Ev) : State := s.route (.ctl (dieOf c)) (nodeOf c) 3 1 e

/-- Has the last flit of a CFRED's contribution left its port (R482)? -/
def State.fabLeft (s : State) (c : Nat) (m : CopyCmd) : Bool :=
  m.kind == .cfred && m.phase == 3 &&
  (let ps := s.livePorts (s.fgrp (s.partOf c) (bitsAt m.v.toNat 40 6)).2
   match ps[bitsAt m.v.toNat 24 8 % max ps.length 1]? with
   | some p => (s.tport p).tx.isEmpty
   | none => true)

/-- A core as its vacancy sees it: a CFRED counts as acknowledged once its last flit has left the port (R482). -/
def State.fabDone (s : State) (c : Nat) : State :=
  s.modCore c (fun k =>
    let out := k.ports.filter (s.fabLeft c)
    { k with ports := k.ports.filter (fun m => !s.fabLeft c m), sent := k.sent.filter (fun r => !out.any (fun m => m.wrs.contains r.id)) })

/-- DISCARD_COMPLETE (R419): a discard request reaches its core; once started ops and sent items are complete, the channel ends take the discard row,
and the item parks. An item that completes its HALT meanwhile ends. -/
def execDiscardComplete (core : Nat) (s : State) : Res :=
  let s1 := s.pump core
  let k := s1.core core
  match s1.groupAt core with
  | none => .next s1.checkGroups
  | some g =>
    if g.st != .discarding then .next s1
    else if !k.item.any (·.disc) then .next (s1.startDiscard core)
    else if k.halting && s1.haltDone core then .next (s1.endItem core)
    else
      let v := s1.fabDone core
      if v.rollbackReady core && k.trap.isNone && (v.core core).sent.isEmpty && k.outs.isEmpty && k.relWait.isNone && (!k.halting || k.items.isEmpty) then
        .next (s1.saveStep core discPieces (.discardComplete core) (fun s => (s.chanDiscard core).park core false))
      else .next (s1.push (.discardComplete core))

/-! ## Groups and the decision (R413 to R416) -/

/-- Do two cores' items belong to one group (R413)? -/
def State.related (s : State) (a b : Nat) : Bool :=
  let spl (x y : Nat) : Bool := (List.range 8).any (fun q => ((s.core x).queue q).spl != 0 && ((s.core x).splice q).st != .local_ && ((s.core x).splice q).pcore == y)
  match (s.core a).item, (s.core b).item with
  | some v, some w => v.tag == w.tag || v.gang == w.gang || spl a b || spl b a
  | _, _ => false

/-- A set of cores closed under that relation. -/
def State.closeGroup (s : State) (live : List Nat) : Nat → List Nat → List Nat
  | 0, cs => cs
  | n + 1, cs => State.closeGroup s live n (cs ++ live.filter (fun c => !cs.contains c && cs.any (s.related c)))

def minOf (l : List Nat) : Nat := l.foldl min (l.headD 0)

def State.lowTag (s : State) (cs : List Nat) : Nat := minOf (cs.map (fun c => ((s.core c).item.map (·.tag)).getD 0))

def State.insertGroup (s : State) (x : List Nat) : List (List Nat) → List (List Nat)
  | [] => [x]
  | y :: r => if s.lowTag y ≤ s.lowTag x then y :: s.insertGroup x r else x :: y :: r

/-- The groups of named cores among cores without one, in ascending order of their lowest tag. -/
def State.formGroups (s : State) (live : List Nat) : List Nat → List (List Nat)
  | [] => []
  | c :: r =>
    let gs := State.formGroups s live r
    if gs.any (fun g => g.contains c) then gs else s.insertGroup (s.closeGroup live live.length [c]) gs

/-- E and T of R406, and NF of R409. -/
def Core.nf (k : Core) : Nat :=
  let e := (List.range 8).foldl (fun a q => a + (if (k.queue q).en then (k.queue q).count else 0)) 0
  let a := (e + 15) / 16 + 5 * k.dirty.length
  a + (a - 128 + 511) / 512

/-- The largest of finite values; none if one is infinite. -/
def maxOpt (l : List (Option Nat)) : Option Nat := l.foldl (fun a x => match a, x with
  | some a, some b => some (max a b)
  | _, _ => none) (some 0)

/-- T_run (R414). -/
def State.tRun (s : State) (c : Nat) : Option Nat :=
  let m := fieldAt (((s.core c).item.map (·.hdr)).getD []) 0x38 4
  if m == 0 || m ≤ s.opbcy c then none else some (m - s.opbcy c)

/-- T_ckpt (R414). -/
def State.tCkpt (s : State) (c : Nat) : Option Nat :=
  let k := s.core c
  let h := (k.item.map (·.costHint)).getD 0
  if h == 0 || !k.loop.act || k.handler then none else some (k.loop.s * max k.loop.ii h + (k.dsz.toNat + 63) / 64)

/-- The path of a group against a conversion point, with the frames free (R414), and whether fault 0x19 is due. -/
def State.pathOf (s : State) (cs : List Nat) (p conv : Nat) : PeelPath × Bool :=
  let within (t : Option Nat) : Bool := match t with
    | some t => decide (s.cyc + t ≤ conv)
    | none => false
  if within (maxOpt (cs.map s.tRun)) then (.run, false)
  else if within (maxOpt (cs.map s.tCkpt)) then
    (if cs.foldl (fun a c => a + (s.core c).nf) 0 ≤ (s.part p).frames.length then (.ckpt, false) else (.disc, true))
  else (.disc, false)

/-- One group decided (R413, R414, R426): its positions latched, its path begun. `told` where fault 0x19 has been raised for the post: a later group
that needs frames falls back. -/
def State.decideGroup (s : State) (post p conv : Nat) (told : Bool) (cs : List Nat) : State × Bool :=
  let (path0, f19) := s.pathOf cs p conv
  let tag := s.lowTag cs
  let (id, s1) := s.newId
  let s2 := cs.foldl (fun s c => s.modCore c (fun k => { k with item := k.item.map (fun w => { w with group := some id, latched := some w.bpos }) })) s1
  let nf := cs.foldl (fun a c => a + (s.core c).nf) 0
  let path := if told && path0 == .ckpt && nf != 0 then .disc else path0
  let fr := if path == .ckpt then (s.part p).frames.take nf else []
  let g : Group := { id := id, st := match path with
      | .run => .runb
      | .ckpt => .drain
      | .disc => .discarding, path := path, conv := conv, part := p, die := dieOf (cs.headD 0), frames := fr, n := cs.length, posts := [post] }
  let s3 : State := { s2 with groups := s2.groups ++ [g], peelPosts := s2.peelPosts.map (fun x => if x.id == post then { x with groups := x.groups ++ [id] } else x) }
  let s4 := s3.modPart p (fun x => { x with frames := x.frames.drop fr.length })
  let s5 := match path with
    | .run => s4
    | .ckpt => cs.foldl (fun s c => s.peelRequest c (.drainPoint c)) s4
    | .disc => cs.foldl (fun s c => s.peelRequest c (.discardComplete c)) s4
  let s6 := if f19 && !told then (s5.modFn p (fun f => { f with fgtag := tag % 1024 })).setFerr p 1 else s5
  (s6, told || f19)

/-- The groups under an earlier eviction that a set of cores reaches (R413, R415): those of its items, and those of parked items that share a tag,
a gang or a splice with one. -/
def State.evicted (s : State) (cs : List Nat) : List Nat :=
  cs.filterMap (fun c => (s.core c).item.bind (·.group)) ++
  (s.groups.filter (fun g => g.active && g.parked.any (fun x => cs.any (fun c => (s.core c).item.any (fun w => w.tag == x.item.tag || w.gang == x.item.gang) ||
    (List.range 8).any (fun q => ((s.core c).queue q).spl != 0 && ((s.core c).splice q).st != .local_ && ((s.core c).splice q).pcore == x.core))))).map (·.id)

/-- The decision of a post (R413 to R415): groups under an earlier eviction keep their path; the others are decided. -/
def State.peelDecide (s : State) (x : PeelPostRec) : State :=
  let lim := if x.whole then 4608 else Config.tDG
  let late := decide (x.d < s.cyc + lim)
  let d := if late then s.cyc + lim else x.d
  let conv := d - Config.tDG
  let all_ := (s.cores.l.filter (fun y => match y.2.item with
    | some w => w.part == x.part
    | none => false)).map (·.1)
  let sets := s.formGroups all_ (x.cores.filter all_.contains)
  let old := nub (sets.flatMap s.evicted)
  let new_ := (sets.map (fun cs => cs.filter (fun c => ((s.core c).item.bind (·.group)).isNone))).filter (fun cs => !cs.isEmpty)
  let s1 : State := { s with
    groups := s.groups.map (fun g => if old.contains g.id then { g with conv := min g.conv conv, posts := g.posts ++ [x.id] } else g),
    peelPosts := s.peelPosts.map (fun y => if y.id == x.id then { y with d := d, late := late, decided := true, groups := old } else y) }
  (new_.foldl (fun (a : State × Bool) cs => a.1.decideGroup x.id x.part conv a.2 cs) (s1, false)).1

/-- PEEL_DECISION (R413, R414, R425): once every item that a post can reach has started. A partition eviction takes the partition's contexts
too; posts of its control cores merge with it, and their undecided groups are decided against the earlier deadline. -/
def execPeelDecision (post : Nat) (s : State) : Res :=
  match s.peelPosts.find? (fun x => x.id == post) with
  | none => .next s
  | some x =>
    if x.decided then .next s
    else if s.cores.l.any (fun y => match y.2.item with
      | some w => w.part == x.part && !w.started
      | none => false) then .next (s.push (.peelDecision post))
    else if !x.whole then .next (s.peelDecide x).checkGroups
    else
      let mine := s.peelPosts.filter (fun y => y.part == x.part && y.tk.isSome)
      let s1 := (mine.filter (fun y => !y.decided)).foldl (fun (s : State) y => s.peelDecide { y with d := min y.d (max x.d (s.cyc + 4608)) }) s
      let s2 : State := { s1 with peelPosts := s1.peelPosts.map (fun y => if mine.any (fun m => m.id == y.id) then { y with merged := true } else y) }
      let s3 := (List.range 4).foldl (fun (s : State) d =>
        if s.ctlRuns x.part d then (s.modCore (128 + d) (fun k => { k with ctl := { k.ctl with saving := true } })).push (.schedulerContextSaved d) else s) (s2.peelDecide x)
      .next s3.checkGroups

/-- The discard row of R290 for the ends of an item that has parked: its parked commits go (log 111). -/
def State.parkedDiscard (s : State) (x : Parked) : State × Parked :=
  x.ends.l.foldl (fun (a : State × Parked) e =>
    let t := a.1.chan e.1
    if t.open_ && t.reader == x.core then
      (a.1.setChan e.1 { t with headr := t.heado, reads := [], delivered := [], headrWant := [] }, { a.2 with ends := a.2.ends.set e.1 { e.2 with rpos := t.heado, rposC := t.heado } })
    else if t.open_ && t.writer == x.core then
      let w := t.tailoWant.foldl max t.tailo
      (a.1, { a.2 with ends := a.2.ends.set e.1 { e.2 with wpos := w, wposC := w } })
    else a) (s, x)

/-- PEEL_CONVERSION (R416): a RUN or CKPT group that is not vacant at its conversion point discards, parked items included. -/
def execPeelConversion (group : Nat) (s : State) : Res :=
  match s.groups.find? (fun g => g.id == group) with
  | none => .next s
  | some g =>
    if !(g.st == .runb || g.st == .drain) || decide (s.cyc < g.conv) then .next s
    else
      let (s1, ps) := g.parked.foldl (fun (a : State × List Parked) x =>
        let (s1, x1) := a.1.parkedDiscard x
        (s1, a.2 ++ [{ x1 with save := none }])) (s, [])
      let s2 : State := { s1 with groups := s1.groups.map (fun y => if y.id == group then { y with st := .discarding, path := .disc, frames := [], parked := ps } else y) }
      let s3 := s2.modPart g.part (fun p => { p with frames := p.frames ++ g.frames })
      let cs := (s.cores.l.filter (fun y => match y.2.item with
        | some w => w.group == some group
        | none => false)).map (·.1)
      .next (cs.foldl (fun s c => s.peelRequest c (.discardComplete c)) s3).checkGroups

/-- Groups whose conversion point has come. -/
def State.convDue (s : State) : List Ev := (s.groups.filter (fun g => (g.st == .runb || g.st == .drain) && decide (g.conv ≤ s.cyc))).map (fun g => Ev.peelConversion g.id)

/-! ## Resumption (R420 to R422) -/

/-- Where an item resumes: the boundary it parked at, or its latched position. -/
def Parked.pos (x : Parked) (path : PeelPath) : W64 × List W64 := if path == .disc then x.item.latched.getD x.item.bpos else x.item.bpos

/-- The item as it resumes: a discarded one suppresses what it had released since its latched position (R422). -/
def Parked.again (x : Parked) (path : PeelPath) (gang : List Nat) (line : Option Nat) : WorkItem :=
  { x.item with gang := gang, line := line, latched := none, drain := none, parked := false, after := 0, rsent := 0, disc := false,
                left := some (match x.save with
                  | some k => (k.dsz.toNat + 63) / 64
                  | none => posPieces),
                suppress := if path == .disc then x.item.rsent + x.item.suppress else x.item.suppress }

/-- A bank reloaded from the weight store (R420). -/
def State.reloadBank (s : State) (p d : Nat) (b : Bank) : Bank :=
  match b.wsOff with
  | none => {}
  | some (w, t) =>
    let data := (s.die d).ws.readN ((s.layout.now.ws.getD (4 * p + d) (0, 0)).1 * 65536 + w) (wsTileSize t)
    if tyQB t then { ty := t, data := splitOfB (qbBits t) (rowsOfPacked (qbBits t) 512 data), wsOff := b.wsOff }
    else { ty := 11, data := splitOfB 16 (encodeRows 16 (rowsOfVals t 128 data)).1, wsOff := b.wsOff }

/-- The queues of a saved context, their entries of no open interval. -/
def Queue.saved (q : Queue) : Queue := { q with rd := [], ents := ⟨q.ents.l.map (fun e => (e.1, { e.2 with ival := 0, seq := 0, readers := 0 }))⟩ }

/-- A scratchpad in which only the queue regions are defined (R405, R420): n numbers the free value of the rest. -/
def Core.savedSpad (k : Core) (n : Nat) : Spad :=
  (List.range 8).foldl (fun m q =>
    let u := k.queue q
    if u.en then m.writeN (u.base * 256) (k.spad.readN (u.base * 256) (u.cap * 256)) else m) { free := some n }

/-- A checkpointed context restored on a core that has begun as at a start (R420): the loop goes on at START, or past END. -/
def State.restoreCore (s : State) (base sv : Core) (w : WorkItem) (d n : Nat) (ren : Nat → Nat) : Core :=
  let ld := (w.drain).getD 0
  let go := ld != 0
  let k : Core := { base with
    regs := sv.regs, queues := ⟨sv.queues.l.map (fun q => (q.1, q.2.saved))⟩, lays := sv.lays, rts := sv.rts, ctrs := sv.ctrs, spad := sv.savedSpad n, empty := [],
    acc := ⟨sv.acc.l.filter (fun t => sv.dirty.contains t.1)⟩, dirty := sv.dirty, banks := ⟨sv.banks.l.map (fun b => (b.1, s.reloadBank w.part d b.2))⟩,
    preds := if go then (List.range' 17 7).foldl (fun t i => t.set i 0) (sv.preds.set 16 (BitVec.allOnes 64)) else sv.preds,
    loop := if go then { sv.loop with act := true, lc := ld - 1 } else { sv.loop with act := false },
    pc := if go then sv.loop.start else w.after,
    splices := ⟨sv.splices.l.map (fun r => (r.1, { r.2 with pcore := ren r.2.pcore, unspliced := 0 }))⟩, opbBase := s.cyc - sv.opbBase, opbHit := sv.opbHit }
  ({ k with sys := { sv.sys with trst := k.pc } } : Core).capture

/-- A group's gangs each given a line where they need one. -/
def State.gangLines (s : State) (g : Group) : List (List Nat × Nat) := g.lined.zip (s.freeLines g.die)

/-- The writer's core learns where a channel stands (R430), and the refill goes on. -/
def State.tellWriter (s : State) (ch : Nat) : State :=
  let t := s.chan ch
  if !t.open_ then s
  else (s.modCore t.writer (fun k => match k.chans.find ch with
    | some e => k.setChanEnd ch { e with tailw := t.tailw, heado := t.heado, cap := t.cap }
    | none => k)).chanTouch ch

/-- The next 64 bytes of a group's restore, or its end (R420, R436, R442). -/
def State.restorePiece (s : State) (g : Nat) (cores : List Nat) : State :=
  match cores.find? (fun c => (s.core c).item.any (fun w => w.left.any (· != 0))) with
  | none => s.push (.restoreComplete g)
  | some c =>
    if (s.core c).item.any (fun w => w.sentAt == s.cyc && w.sentAt != 0) then s.push (.restoreComplete g)
    else (s.modCore c (fun k => { k with item := k.item.map (fun w => { w with left := w.left.map (· - 1) }) })).peelPiece c false (.restoreComplete g)

/-- GROUP_RESUME_PLACEMENT (R420, R421, R430): the group takes its new cores and lines; its channel entries and splice peers name the new
cores, the writers learn the tables' positions, and its restore begins. GSIZE of what is left of a gang: log 103; its parked channel commits: log 111. -/
def execGroupResumePlacement (group : Nat) (s : State) : Res :=
  match s.groups.find? (fun g => g.id == group && g.st == .parked) with
  | none => .next s
  | some g =>
    match (if s.groupFits g then s.pickCores g.part g.die g.parked.length else none) with
    | none => .next s
    | some cores =>
      let ms := g.parked.zip cores
      let ren (c : Nat) : Nat := ((ms.find? (fun m => m.1.core == c)).map (·.2)).getD c
      let gangOf (q : List Nat) : List Nat := (ms.filter (fun m => m.1.item.gang == q)).map (·.2)
      let lines := s.gangLines g
      let lineOf (q : List Nat) : Option Nat := (lines.find? (fun l => l.1 == q)).map (·.2)
      let s1 := lines.foldl (fun s l => s.modDie g.die (fun x =>
        { x with lines := x.lines.set l.2 { held := true, g := (gangOf l.1).length, members := gangOf l.1, broken := decide ((gangOf l.1).length < l.1.length) } })) s
      let s2 := ms.foldl (fun (s : State) m =>
        let w := { m.1.again g.path (gangOf m.1.item.gang) (lineOf m.1.item.gang) with group := some group }
        let (n, s3) := s.newFresh
        let b := startCore (s.core m.2) w (m.1.pos g.path) s.cyc n
        let k := match m.1.save with
          | some sv => s3.restoreCore b sv m.1.item (dieOf m.2) n ren
          | none => b
        s3.setCore m.2 { k with async := m.1.async }) s1
      let s3 := ms.foldl (fun (s' : State) m => m.1.ends.l.foldl (fun (s' : State) e =>
        let t0 := s.chan e.1
        let t := s'.chan e.1
        if !t.open_ then s'
        else if t0.reader == m.1.core then
          ((s'.setChan e.1 { t with rcore := coreNo m.2, heado := if g.path == .run then max t.heado (min e.2.rpos t.headr) else t.heado }).modCore m.2 (fun k => k.setChanEnd e.1 e.2))
        else if t0.writer == m.1.core then
          (s'.setChan e.1 { t with wcore := coreNo m.2, tailo := if g.path == .run then max t.tailo e.2.wpos else t.tailo }).modCore m.2 (fun k => k.setChanEnd e.1 e.2)
        else s') s') s2
      let s4 := (nub (ms.flatMap (fun m => m.1.ends.l.map (·.1)))).foldl State.tellWriter s3
      .next (({ s4 with groups := s4.groups.map (fun x => if x.id == group then { x with st := .resuming, newCores := cores } else x) } : State).restorePiece group cores)

/-- RESTORE_COMPLETE (R420): the restore goes on; once it has ended, its frames return, and all members restart in one cycle. A checkpointed item's OPBCY
goes on from its save (R392). -/
def execRestoreComplete (group : Nat) (s : State) : Res :=
  match s.groups.find? (fun g => g.id == group && g.st == .resuming) with
  | none => .next s
  | some g =>
    if g.newCores.any (fun c => (s.core c).item.any (fun w => w.left.any (· != 0))) then .next (s.restorePiece group g.newCores) else
    let s1 := g.newCores.foldl (fun s c => s.modCore c (fun k =>
      { k.acquire 3 with item := k.item.map (fun w => { w with started := true, group := none, left := none }),
                         opbBase := if g.path == .ckpt then k.opbBase + (s.cyc - k.rbBase) else s.cyc, lastAct := s.cyc, rbBase := s.cyc })) s
    let s2 := g.newCores.foldl (fun (s : State) c => if (s.core c).async.isEmpty then s else s.push (.asyncFaultTaken c)) s1
    .next (({ s2 with groups := s2.groups.filter (fun x => x.id != group) } : State).modPart g.part (fun p => { p with frames := p.frames ++ g.frames }))

/-! ## Fence records (R427, R428) -/

/-- A slot of the fence record of a base, complete or not: its number. -/
def recSeq (b : Bytes) : Option Nat := if fieldAt b 0 4 == 0x43455246 && fieldAt b 8 8 == fieldAt b 0x38 8 then some (fieldAt b 8 8) else none

/-- Bytes of memory as an agent of a die reads them; none where they cannot be read. -/
def State.viewRead (s : State) (d pa n : Nat) : Bytes :=
  match s.memRead d pa n with
  | .bytes b => b
  | _ => []

/-- The PA of slot 0. -/
def State.fenceBase (s : State) (p : Nat) : Nat := bitsAt (s.fn p).fence.toNat 15 37 * 32768

/-- The complete slot with the larger record number, as a die sees it: its number and address. -/
def State.lastRecord (s : State) (p d : Nat) : Option (Nat × Nat) :=
  let b := s.fenceBase p
  let sl (i : Nat) : Option (Nat × Nat) := (recSeq (s.viewRead d (b + 16384 * i) 64)).map (fun n => (n, b + 16384 * i))
  match sl 0, sl 1 with
  | some x, some y => if x.1 ≤ y.1 then some y else some x
  | some x, none => some x
  | none, y => y

/-- Bytes written to a PA by an agent of a die. -/
def State.agentWrite (s : State) (d pa : Nat) (b : Bytes) : State :=
  if isSys pa then { s with hostMem := s.hostMem.writeN (pa - sysBase) b }
  else (linesOf (cellsAt pa b)).foldl (fun s l => (s.hbmWrite d ((cellsAt pa b).filter (fun p => p.1 / 64 == l))).2) s

/-- The queues bound to a partition, ascending. -/
def State.boundQueues (s : State) (p : Nat) : List Nat := (List.range 1024).filter (fun q => (s.wq q).en && s.layout.now.wqOwner.getD q 0 == p)

/-- The body of a record (R428): everything but SEAL. -/
def State.recordBody (s : State) (p d pa n : Nat) (sdata : Bytes) : State :=
  let qs := s.boundQueues p
  let s1 := s.agentWrite d pa (leBytes 4 0x43455246 ++ leBytes 4 qs.length ++ leBytes 8 n ++ leBytes 8 s.cyc ++ List.replicate 32 0)
  let s2 := s1.agentWrite d (pa + 0x40) sdata
  s2.agentWrite d (pa + 0x200) (qs.flatMap (fun q => leBytes 8 ((s.wq q).rpos * 2 ^ 32 + q)))

/-- FENCEREC (R428): control cores only. -/
def execFencerec (d a : BitVec 6) (s : State) : Res :=
  let c := s.cur.core
  let i : Instr := .fencerec d a
  if !isCtl c then .next (s.raise 0x02 0 0) else
  s.reg i true a.toNat (fun v =>
    let p := s.partOf c
    if v.toNat % 64 != 0 then .next (s.raise 0x09 0 v)
    else if 1047552 < v.toNat + 448 then .next (s.raise 0x0A 0 v)
    else if !(s.fn p).fence.getLsbD 0 then .next (s.later d.toNat 1)
    else match s.cur.op.answer with
      | some (some r) => .next ((s.agentWrite (dieOf c) (r.writer + 0x38) (leBytes 8 r.part)).later d.toNat (w64 (r.part % 2 ^ 56 * 256)))
      | _ =>
        if !s.releaseOk c 4 then .next (s.requeue i)
        else s.readAt i (s.fenceBase p) 64 (w64 (s.fenceBase p)) (fun _ => s.readAt i (s.fenceBase p + 16384) 64 (w64 (s.fenceBase p + 16384)) (fun _ =>
          let n := (((s.lastRecord p (dieOf c)).map (·.1)).getD 0 + 1) % 2 ^ 64
          let pa := s.fenceBase p + 16384 * (n % 2)
          let s1 := s.recordBody p (dieOf c) pa n ((s.core c).spadRead s.cur.op v.toNat 448)
          .next ({ s1 with cur := { s1.cur with op := { s1.cur.op with answer := some (some { word := 0, part := n, writer := pa }) } } }.requeue i))))

end Sys2Proof.Machine
end

