-- ==== Sys2Proof/Machine/Knead.lean ====
section
/-! DEFINITION. The Knead Arrays (13): cell ops, switches, records, configuration images and slots, bindings and views. -/
namespace Sys2Proof.Machine

/-! ## Cells (R340 to R343) -/

def State.cell (s : State) (x : CellLoc) : Cell := (s.arr x.arr).cells.get (8 * x.col + x.row) {}
def State.setCell (s : State) (x : CellLoc) (c : Cell) : State := s.modArr x.arr (fun a => { a with cells := a.cells.set (8 * x.col + x.row) c })

/-- The lanes of a flit's data, lane 0 first (R337). -/
def lanesOf (w x : Nat) : List Nat := (List.range (512 / w)).map (fun i => bitsAt x (w * i) w)
def joinLanes (w : Nat) (l : List Nat) : Nat := l.foldr (fun x a => x % 2 ^ w + 2 ^ w * a) 0

/-- A source code's operand (R342). -/
def Cell.src (c : Cell) (f : CellWord) (i : KFlit) (x : BitVec 4) : Nat :=
  if x.toNat < 8 then (c.k.get x.toNat 0).toNat
  else if x.toNat == 8 then i.data.toNat
  else if x.toNat == 9 then joinLanes 32 (List.replicate 16 (if f.immh then f.imm.toNat * 2 ^ 16 else wrapN 32 f.imm.toInt))
  else 0

/-- Is a register still to be written by an earlier op of the cell (R340)? -/
def Cell.regBusy (c : Cell) (x : BitVec 4) : Bool := c.fl.any (fun r => r.wr.any (fun p => p.1 == x.toNat))

/-- A cell fires an op that reads its first n sources, with a latency, a result and for TAKE a register to clear; it waits without its
flit, with a register to be written, or without room in ingress L (R340). -/
def Cell.fire (c : Cell) (f : CellWord) (n lat : Nat) (take : Bool) (g : Nat → Nat → Nat → Nat) : Cell :=
  match c.inp with
  | none => c
  | some i =>
    if ([f.sa, f.sb, f.sc].take n).any c.regBusy ||
       (f.oe && decide (2 ≤ (c.ing.get 4 []).length + (c.fl.filter (fun r => r.out.isSome)).length)) then c
    else
      let d : BitVec 512 := BitVec.ofNat 512 (g (c.src f i f.sa) (c.src f i f.sb) (c.src f i f.sc))
      { c with inp := none,
               fl := c.fl ++ [{ left := lat, wr := (if f.re then [(f.regd.toNat, d)] else []) ++ (if take then [(f.sa.toNat, 0)] else []),
                                out := if f.oe then some { data := d, tag := if f.tkeep then i.tag else f.tag.toNat, ctl := false } else none }] }

def State.cellOp (s : State) (x : CellLoc) (f : CellWord) (n lat : Nat) (g : Nat → Nat → Nat → Nat) : Res :=
  .next (s.setCell x ((s.cell x).fire f n lat false g))

/-- The lane width W selects (R341). -/
def cellWidth (f : CellWord) : Nat := 8 * 2 ^ f.w.toNat
/-- An op on the lanes of A, B and C (R343). -/
def laneOp (w : Nat) (g : Nat → Nat → Nat → Nat) (a b c : Nat) : Nat :=
  joinLanes w ((List.range (512 / w)).map (fun i => g (bitsAt a (w * i) w) (bitsAt b (w * i) w) (bitsAt c (w * i) w)))
/-- An op on the FP32 lanes of A and B (R343). -/
def fpLanes (g : FV → FV → FV) (a b _ : Nat) : Nat := laneOp 32 (fun x y _ => (fp32.enc false (g (fp32.dec x) (fp32.dec y))).1) a b 0
/-- A byte of a 512-bit value. -/
def byteOf (x i : Nat) : Nat := bitsAt x (8 * i) 8

/-- NOP (R343): the flit is consumed. -/
def execKnNop (x : CellLoc) (_ : CellWord) (s : State) : Res := .next (s.setCell x { s.cell x with inp := none })
/-- PASS (R343). -/
def execKnPass (x : CellLoc) (f : CellWord) (s : State) : Res := s.cellOp x f 1 1 (fun a _ _ => a)
/-- ADD (R343). -/
def execKnAdd (x : CellLoc) (f : CellWord) (s : State) : Res := s.cellOp x f 2 1 (laneOp (cellWidth f) (fun a b _ => a + b))
/-- SUB (R343). -/
def execKnSub (x : CellLoc) (f : CellWord) (s : State) : Res := s.cellOp x f 2 1 (laneOp (cellWidth f) (fun a b _ => a + 2 ^ (cellWidth f) - b))
/-- MUL (R343). -/
def execKnMul (x : CellLoc) (f : CellWord) (s : State) : Res := s.cellOp x f 2 2 (laneOp (cellWidth f) (fun a b _ => a * b))
/-- ADDS (R343). -/
def execKnAdds (x : CellLoc) (f : CellWord) (s : State) : Res :=
  s.cellOp x f 2 1 (laneOp (cellWidth f) (fun a b _ => wrapN (cellWidth f) (satInt (cellWidth f) false (sInt (cellWidth f) a + sInt (cellWidth f) b))))
/-- AND (R343). -/
def execKnAnd (x : CellLoc) (f : CellWord) (s : State) : Res := s.cellOp x f 2 1 (fun a b _ => a &&& b)
/-- OR (R343). -/
def execKnOr (x : CellLoc) (f : CellWord) (s : State) : Res := s.cellOp x f 2 1 (fun a b _ => a ||| b)
/-- XOR (R343). -/
def execKnXor (x : CellLoc) (f : CellWord) (s : State) : Res := s.cellOp x f 2 1 (fun a b _ => a ^^^ b)
/-- SHL (R343). -/
def execKnShl (x : CellLoc) (f : CellWord) (s : State) : Res := s.cellOp x f 2 1 (laneOp (cellWidth f) (fun a b _ => a * 2 ^ (b % (cellWidth f))))
/-- SHR (R343). -/
def execKnShr (x : CellLoc) (f : CellWord) (s : State) : Res := s.cellOp x f 2 1 (laneOp (cellWidth f) (fun a b _ => a / 2 ^ (b % (cellWidth f))))
/-- SAR (R343). -/
def execKnSar (x : CellLoc) (f : CellWord) (s : State) : Res :=
  s.cellOp x f 2 1 (laneOp (cellWidth f) (fun a b _ => wrapN (cellWidth f) (sInt (cellWidth f) a / 2 ^ (b % (cellWidth f)))))
/-- MIN (R343). -/
def execKnMin (x : CellLoc) (f : CellWord) (s : State) : Res :=
  s.cellOp x f 2 1 (laneOp (cellWidth f) (fun a b _ => if sInt (cellWidth f) a ≤ sInt (cellWidth f) b then a else b))
/-- MAX (R343). -/
def execKnMax (x : CellLoc) (f : CellWord) (s : State) : Res :=
  s.cellOp x f 2 1 (laneOp (cellWidth f) (fun a b _ => if sInt (cellWidth f) a ≤ sInt (cellWidth f) b then b else a))
/-- SEL (R343). -/
def execKnSel (x : CellLoc) (f : CellWord) (s : State) : Res := s.cellOp x f 3 1 (laneOp (cellWidth f) (fun a b c => if c != 0 then a else b))
/-- CMPEQ (R343). -/
def execKnCmpeq (x : CellLoc) (f : CellWord) (s : State) : Res := s.cellOp x f 2 1 (laneOp (cellWidth f) (fun a b _ => if a == b then 2 ^ (cellWidth f) - 1 else 0))
/-- CMPLT (R343). -/
def execKnCmplt (x : CellLoc) (f : CellWord) (s : State) : Res :=
  s.cellOp x f 2 1 (laneOp (cellWidth f) (fun a b _ => if sInt (cellWidth f) a < sInt (cellWidth f) b then 2 ^ (cellWidth f) - 1 else 0))
/-- LUTL (R343). -/
def execKnLutl (x : CellLoc) (f : CellWord) (s : State) : Res :=
  s.cellOp x f 1 2 (fun a _ _ => joinLanes 16 ((List.range 32).map (fun i => ((s.cell x).lut.get (byteOf a i) 0).toNat)))
/-- LUTH (R343). -/
def execKnLuth (x : CellLoc) (f : CellWord) (s : State) : Res :=
  s.cellOp x f 1 2 (fun a _ _ => joinLanes 16 ((List.range 32).map (fun i => ((s.cell x).lut.get (byteOf a (32 + i)) 0).toNat)))
/-- LUTN (R343). -/
def execKnLutn (x : CellLoc) (f : CellWord) (s : State) : Res :=
  s.cellOp x f 1 2 (fun a _ _ => joinLanes 8 ((List.range 64).map (fun j =>
    ((s.cell x).lut.get (bitsAt a (8 * (32 * (f.mode.toNat % 2) + j / 2) + 4 * (j % 2)) 4) 0).toNat)))
/-- PERM (R343). -/
def execKnPerm (x : CellLoc) (f : CellWord) (s : State) : Res :=
  s.cellOp x f 3 1 (fun a b c => joinLanes 8 ((List.range 64).map (fun i => byteOf (a + 2 ^ 512 * b) (byteOf c i % 128))))

/-- FCVT's result (R343): narrowing from the lanes of A, then B, or widening half of A. -/
def kFcvt (mode a b : Nat) : Nat :=
  if mode < 2 then joinLanes 16 ((lanesOf 32 a ++ lanesOf 32 b).map (fun v => ((fmtOf (if mode == 0 then 7 else 6)).enc false (fp32.dec v)).1))
  else joinLanes 32 ((List.range 16).map (fun i => (fp32.enc false ((fmtOf (if mode < 4 then 7 else 6)).dec (bitsAt a (16 * (16 * (mode % 2) + i)) 16))).1))

/-- FCVT (R343). -/
def execKnFcvt (x : CellLoc) (f : CellWord) (s : State) : Res :=
  s.cellOp x f (cellReads 0x15 f.mode) 2 (fun a b _ => kFcvt f.mode.toNat a b)
/-- FADD (R343). -/
def execKnFadd (x : CellLoc) (f : CellWord) (s : State) : Res := s.cellOp x f 2 2 (fpLanes (fun a b => (a.add b).1))
/-- FMUL (R343). -/
def execKnFmul (x : CellLoc) (f : CellWord) (s : State) : Res := s.cellOp x f 2 2 (fpLanes (fun a b => (a.mul b).1))
/-- FMAX (R343, R142). -/
def execKnFmax (x : CellLoc) (f : CellWord) (s : State) : Res := s.cellOp x f 2 1 (fpLanes (FV.minmax true))
/-- TAKE (R343). -/
def execKnTake (x : CellLoc) (f : CellWord) (s : State) : Res := .next (s.setCell x ((s.cell x).fire f 1 1 true (fun a _ _ => a)))

/-! ## The switch (R338, R339). Ports: N 0, S 1, E 2, W 3, L 4 -/

/-- The cell that an egress port leads to, with the ingress port there; none at an edge and for L. -/
def cellNext (x : CellLoc) (e : Nat) : Option (CellLoc × Nat) :=
  if e == 0 then (if x.row == 0 then none else some ({ x with row := x.row - 1 }, 1))
  else if e == 1 then (if x.row == 7 then none else some ({ x with row := x.row + 1 }, 0))
  else if e == 2 then (if x.col == 3 then none else some ({ x with col := x.col + 1 }, 3))
  else if e == 3 then (if x.col == 0 then none else some ({ x with col := x.col - 1 }, 2)) else none

/-- May a flit leave by an egress port in this cycle (R339)? -/
def State.kRoom (s : State) (x : CellLoc) (e : Nat) : Bool :=
  let c := s.cell x
  !c.used.contains e &&
  (if e == 4 then c.inp.isNone
   else if e == 1 && x.row == 7 then true
   else match cellNext x e with
     | some (y, p) => decide ((s.cell y).snap.getD p 0 < 2)
     | none => false)

/-- A data flit at a column's egress; a control flit is discarded (R344). -/
def KRun.egress (r : KRun) (col : Nat) (f : KFlit) : KRun :=
  let i := r.cols.idxOf col
  { r with moved := true, eg := if f.ctl then r.eg else r.eg.set i (r.eg.getD i [] ++ [f.data]) }

/-- A flit into what an egress port leads to. -/
def State.kSend (s : State) (x : CellLoc) (f : KFlit) (e : Nat) : State :=
  let s1 := s.setCell x { s.cell x with used := (s.cell x).used ++ [e] }
  if e == 4 then s1.setCell x { s1.cell x with inp := some f }
  else match cellNext x e with
    | some (y, p) => s1.setCell y { s1.cell y with ing := (s1.cell y).ing.set p ((s1.cell y).ing.get p [] ++ [f]) }
    | none => s1.modArr x.arr (fun a => { a with runs := a.runs.map (fun (r : KRun) => if r.cols.contains x.col then r.egress x.col f else r) })

/-- FLIT_ROUTE (R338, R339): the head of an ingress buffer, to every egress port that its route-table entry names, once all have room. -/
def execFlitRoute (arr col row port : Nat) (s : State) : Res :=
  let x : CellLoc := { arr := arr, col := col, row := row }
  let c := s.cell x
  match c.ing.get port [] with
  | [] => .next s
  | f :: r =>
    let m := (c.rt.getD ((c.pos + f.tag) % 16) 0).toNat
    let es := (List.range 5).filter (fun e => m.testBit e)
    if !es.all (s.kRoom x) then .next s
    else
      let s1 := s.setCell x { c with ing := c.ing.set port r }
      let s2 := es.foldl (fun s e => s.kSend x f e) s1
      .next (if f.ctl then s2.setCell x { s2.cell x with pos := (c.pos + f.data.toNat % 16) % 16 } else s2)

/-! ## Records (R337, R344 to R346) -/

/-- The columns that serve a record (R346). -/
def Binding.colsOf (b : Binding) (r : Nat) : List Nat := if b.ganged then List.range' b.first b.n else [b.first + r % b.n]

/-- The queued records that may start: those whose columns serve nothing and are wanted by no earlier one (R344, R365). -/
def Array8.startable (x : Array8) : List KRec :=
  (x.queue.foldl (fun (a : List Nat × List KRec) (r : KRec) =>
    let cs := (x.binds.get r.ent {}).colsOf r.r
    (a.1 ++ cs, if cs.any a.1.contains then a.2 else a.2 ++ [r])) (x.runs.flatMap (fun (r : KRun) => r.cols), [])).2

/-- The flits of a record, one row a cycle, over n columns (R337, R346). -/
def feedRows (inp : Bytes) (n : Nat) (ctl : Option Nat) : List (List (Option KFlit)) :=
  let F := (inp.length + 63) / 64
  let flit (j : Nat) : KFlit := { data := BitVec.ofNat 512 (leNat ((inp.drop (64 * j)).take 64)), tag := min j 15, ctl := false }
  (List.range ((F + n - 1) / n)).map (fun i => (List.range n).map (fun k => if n * i + k < F then some (flit (n * i + k)) else none)) ++
  (match ctl with
   | some adv => [List.replicate n (some { data := BitVec.ofNat 512 adv, tag := 0, ctl := true })]
   | none => [])

/-- The stock decoder's output for a record of QB4 blocks (R364). -/
def stockOut (inp : Bytes) : Bytes :=
  (List.range (inp.length / 18)).flatMap (fun k =>
    let b := (inp.drop (18 * k)).take 18
    b.take 2 ++ (b.drop 2).flatMap (fun x => [x.toNat % 16, x.toNat / 16].map (fun v =>
      BitVec.ofNat 8 (v / 8 * 128 + wrapN 7 (16 * sInt 3 v)))))

/-- Writes that waited for room at a collection buffer come up again, in their order (R356). -/
def State.rewait (s : State) (arr : Nat) : State :=
  let x := s.arr arr
  let w := x.binds.l.flatMap (fun e => e.2.wait)
  if w.isEmpty then s else
  let s1 := s.modArr arr (fun a => { a with binds := ⟨a.binds.l.map (fun e => (e.1, { e.2 with wait := [] }))⟩ })
  { s1 with clk := { s1.clk with urgent := s1.clk.urgent ++ w.map Ev.collectionWrite } }

/-- The controller reads the store bytes of a queued read request, as an agent of the array's die (R355, R365); lost bytes are reported (R250). -/
def State.readAhead (s : State) (arr : Nat) (b : Binding) (r : KRec) : State :=
  match s.memRead (arr / 2) (b.store + r.r * b.rin) b.rin with
  | .bytes i => s.modArr arr (fun a => { a with queue := a.queue.map (fun (q : KRec) => if q == r then { q with inp := some i } else q) })
  | .lost => s.reportLoss b.part
  | _ => s

/-- RECORD_START (R344, R355, R365): the store bytes of queued read requests are read ahead of their runs; then the first record that may start
does. -/
def execRecordStart (arr ent : Nat) (s : State) : Res :=
  let x := s.arr arr
  let b := x.binds.get ent {}
  match x.queue.find? (fun r => r.ent == ent && r.inp.isNone) with
  | some r => .next (s.readAhead arr b r)
  | none =>
  match x.startable.find? (fun r => r.ent == ent) with
  | none => .next s
  | some r =>
    let inp := r.inp.getD []
    let cs := b.colsOf r.r
    let run : KRun := { cols := cs, rcd := r, feed := if b.slot == 4 then [] else feedRows inp cs.length (if b.ctlen then some b.adv else none),
                        eg := cs.map (fun _ => []), stock := if b.slot == 4 then some (stockOut inp) else none }
    .next ((s.modArr arr (fun a => { a with queue := a.queue.erase r, runs := a.runs ++ [run] })).rewait arr)

/-- Is a column set quiescent (R344)? The stock decoder takes 30 cycles (R364). -/
def State.quiescent (s : State) (arr : Nat) (r : KRun) : Bool :=
  r.feed.isEmpty && !r.moved && (r.stock.isNone || decide (29 ≤ r.t)) &&
  r.cols.all (fun c => (List.range 8).all (fun y =>
    let k := s.cell { arr := arr, col := c, row := y }
    k.inp.isNone && k.fl.isEmpty && k.ing.l.all (fun q => q.2.isEmpty)))

/-- The output of a run that is quiescent, or none with too few data flits (R344 to R346). -/
def KRun.output (r : KRun) (rout : Nat) : Option Bytes :=
  match r.stock with
  | some o => some o
  | none =>
    let n := r.cols.length
    let fl := (List.range ((rout + 63) / 64)).map (fun j => (r.eg.getD (j % n) [])[j / n]?)
    if fl.all Option.isSome then some ((fl.flatMap (fun f => leBytes 64 ((f.getD 0).toNat))).take rout) else none

/-- A binding entry replaced. -/
def State.modBind (s : State) (arr ent : Nat) (f : Binding → Binding) : State :=
  s.modArr arr (fun a => { a with binds := a.binds.set ent (f (a.binds.get ent {})) })

/-- A fault of a partition's scheduler context on a die, taken at its next bundle boundary; a saved context takes it at its resumption. -/
def State.contextFault (s : State) (d p : Nat) (f : FaultRec) : State :=
  if s.ctlRuns p d then s.asyncFault (128 + d) f
  else s.modDie d (fun x => match x.ctx.find p with
    | some k => { x with ctx := x.ctx.set p { k with async := k.async ++ [f] } }
    | none => x)

/-- A result of a partition's scheduler context on a die, running or saved. -/
def State.contextResult (s : State) (d p tk : Nat) (v : W64) : State :=
  if s.ctlRuns p d then s.push (.scalarResultArrival (128 + d) tk v)
  else s.modDie d (fun x => match x.ctx.find p with
    | some k => { x with ctx := x.ctx.set p ((k.land tk v).settle k.bundleNo) }
    | none => x)

/-- A run that ends: its columns are free, whatever stood in them is gone. -/
def State.endRun (s : State) (arr : Nat) (r : KRun) : State :=
  r.cols.foldl (fun s c => (List.range 8).foldl (fun s y =>
      let x : CellLoc := { arr := arr, col := c, row := y }
      s.setCell x { s.cell x with ing := ⟨[]⟩, inp := none, fl := [] }) s)
    (s.modArr arr (fun a => { a with runs := a.runs.filter (fun (q : KRun) => q.cols != r.cols) }))

/-- A record that fails (R345, R357, R358): an ACTIVE binding becomes FAULTED, its queued requests fail and its open records are dropped; the
partition's control core on the array's die takes fault 0x18. A draining entry only loses the record. -/
def State.failRecord (s : State) (arr ent : Nat) (r : KRun) : State :=
  let b := (s.arr arr).binds.get ent {}
  let s1 := r.rcd.acc.foldl (fun s a => s.accessFault a 0x18 4) (s.endRun arr r)
  if b.st != .active then s1 else
  let qs := (s1.arr arr).queue.filter (fun q => q.ent == ent)
  let s2 := (s1.modArr arr (fun a => { a with queue := a.queue.filter (fun (q : KRec) => q.ent != ent) })).modBind arr ent (fun b => { b with st := .faulted, opened := [] })
  let s3 := qs.foldl (fun s q => q.acc.foldl (fun s a => s.accessFault a 0x18 4) s) s2
  (s3.rewait arr).contextFault (arr / 2) b.part { code := 0x18, detail := 5, addr := w64 (arr * 8 + ent), pc := 0, slot := 7, single := true }

/-- The bytes of a run of cells, by line. -/
def byLine (c : List (Nat × BitVec 8)) : List (List (Nat × BitVec 8)) := (linesOf c).map (fun l => c.filter (fun p => p.1 / 64 == l))

/-- A record's output (R355, R356): its lines go to the dies that asked; a write record's bytes are writes made at the array's die. -/
def State.finishRecord (s : State) (arr ent : Nat) (r : KRun) (out : Bytes) : State :=
  let b := (s.arr arr).binds.get ent {}
  let d := arr / 2
  let s1 := s.endRun arr r
  if b.wr then
    let s2 := (byLine (cellsAt (b.store + r.rcd.r * b.rout) out)).foldl (fun s l => (s.hbmWrite d l).2) s1
    s2.modBind arr ent (fun b => { b with outClk := max b.outClk ((s2.die d).app.getD d 0) })
  else
    let to_ := (r.rcd.acc.head?).map (fun a => a.die)
    (s1.modBind arr ent (fun b => { b with deliv := b.deliv ++ [r.rcd] })).route (.base d 26)
      (.slice (to_.getD d) (s.homeSlice b.part (to_.getD d) (b.view + r.rcd.r * b.rout))) 2 3 (.kneadViewLineDelivery arr ent r.rcd.r out)

/-- RECORD_TIME_LIMIT (R345). -/
def execRecordTimeLimit (arr ent col : Nat) (s : State) : Res :=
  match (s.arr arr).runs.find? (fun r => r.rcd.ent == ent && r.cols.contains col) with
  | some r => .next (s.failRecord arr ent r)
  | none => .next s

/-- RECORD_QUIESCENCE (R344, R345): at the end of a cycle, a column set that is quiescent ends its record; one that is not goes on, up to
4,096 cycles. -/
def execRecordQuiescence (arr ent col : Nat) (s : State) : Res :=
  match (s.arr arr).runs.find? (fun r => r.rcd.ent == ent && r.cols.contains col) with
  | none => .next s
  | some r =>
    if s.quiescent arr r then
      match r.output ((s.arr arr).binds.get ent {}).rout with
      | some o => .next (s.finishRecord arr ent r o)
      | none => .next (s.failRecord arr ent r)
    else if 4096 ≤ r.t + 1 then .next (s.pushUrgent (.recordTimeLimit arr ent col))
    else .next (s.modArr arr (fun a => { a with runs := a.runs.map (fun (q : KRun) => if q.cols == r.cols then { q with t := q.t + 1, moved := false } else q) }))

/-! ## One cycle of an array -/

/-- A cell at the start of a cycle: results due, then the occupancy that room is judged on (R339, R340). -/
def Cell.tick (c : Cell) : Cell :=
  let due := c.fl.filter (fun r => r.left ≤ 1)
  let c1 := due.foldl (fun (c : Cell) r =>
    let c2 := r.wr.foldl (fun (c : Cell) p => { c with k := c.k.set p.1 p.2 }) c
    match r.out with
    | some f => { c2 with ing := c2.ing.set 4 (c2.ing.get 4 [] ++ [f]) }
    | none => c2) c
  { c1 with fl := (c.fl.filter (fun r => !decide (r.left ≤ 1))).map (fun r => { r with left := r.left - 1 }),
            snap := (List.range 5).map (fun p => (c1.ing.get p []).length), used := [] }

/-- The column ingress feeds every column of a set, or none (R337, R346). -/
def Array8.feed (x : Array8) (r : KRun) : Array8 :=
  match r.feed with
  | [] => x
  | row :: rest =>
    if r.cols.all (fun c => decide (((x.cells.get (8 * c) {}).ing.get 0 []).length < 2)) then
      let x1 := (r.cols.zip row).foldl (fun (x : Array8) p => match p.2 with
        | some f => let c := x.cells.get (8 * p.1) {}; { x with cells := x.cells.set (8 * p.1) { c with ing := c.ing.set 0 (c.ing.get 0 [] ++ [f]) } }
        | none => x) x
      { x1 with runs := x1.runs.map (fun q => if q.cols == r.cols then { q with feed := rest } else q) }
    else x

/-- The cells of the columns in use, by column and row. -/
def Array8.active (x : Array8) : List (Nat × Nat) := (x.runs.flatMap (fun (r : KRun) => r.cols)).flatMap (fun c => (List.range 8).map (fun y => (c, y)))

/-- An array's cycle: feed, results due, then the cells that hold a flit fire, the switches route in contention order, and each column set
is looked at for quiescence. -/
def State.kneadCycle (s : State) (arr : Nat) : State :=
  let x := s.arr arr
  let st := (nub ((x.startable ++ x.queue.filter (fun r => r.inp.isNone)).map (fun r => r.ent))).map (Ev.recordStart arr)
  if x.runs.isEmpty then { s with clk := { s.clk with urgent := s.clk.urgent ++ st } } else
  let x1 := x.runs.foldl Array8.feed x
  let x2 := x1.active.foldl (fun (x : Array8) p => { x with cells := x.cells.set (8 * p.1 + p.2) (x.cells.get (8 * p.1 + p.2) {}).tick }) x1
  let cell (p : Nat × Nat) : Cell := x2.cells.get (8 * p.1 + p.2) {}
  let fires := (x2.active.filter (fun p => (cell p).inp.isSome)).map (fun p => ({ arr := arr, col := p.1, row := p.2 } : CellLoc))
  let routes := x2.active.flatMap (fun p => ([0, 3, 2, 1, 4].filter (fun q => decide (0 < (cell p).snap.getD q 0))).map (fun q => Ev.flitRoute arr p.1 p.2 q))
  let ends := x2.runs.map (fun r => Ev.recordQuiescence arr r.rcd.ent (r.cols.headD 0))
  let s1 := s.modArr arr (fun _ => x2)
  { s1 with clk := { s1.clk with fires := s1.clk.fires ++ fires, urgent := s1.clk.urgent ++ routes ++ ends ++ st } }

/-- Every array's cycle. -/
def State.kneadTick (s : State) : State := s.arrays.l.foldl (fun s a => s.kneadCycle a.1) s

/-- PENDING entries that become ACTIVE in this cycle (R352, R358). -/
def State.bindsDue (s : State) : List Ev :=
  if s.clk.cyc % 8192 ≤ 1016 then s.arrays.l.flatMap (fun a => (a.2.binds.l.filter (fun e => e.2.st == .pending)).map (fun e => Ev.bindingActivate a.1 e.1)) else []

/-- The op word that a flit in a cell's input buffer fires (R340). -/
def State.fireWord (s : State) (x : CellLoc) : Option Instr :=
  let c := s.cell x
  c.inp.bind (fun f => decodeCell x (if f.ctl then c.cword else c.dword))

/-! ## Configuration images (R347 to R350) -/

/-- The first header field that fails, by its offset (R350 case 0x01). -/
def kHeader (b : Bytes) : Option Nat :=
  let u (o n : Nat) : Nat := leNat ((b.drop o).take n)
  let nc := u 6 1
  if u 0 4 != 0x474E444B then some 0
  else if u 4 2 != 1 then some 4
  else if nc == 0 || 4 < nc then some 6
  else if u 7 1 != 0 then some 7
  else if u 40 4 < 64 || 65536 < u 40 4 then some 40
  else match (List.range' 44 20).find? (fun o => u o 1 != 0) with
    | some o => some o
    | none => (List.range nc).findSome? (fun j => if u 40 4 < u (8 + 4 * j) 4 + u (24 + 4 * j) 4 then some (8 + 4 * j) else none)

/-- A column stream expanded (R349): its words, and END, or the offset of the token that fails; `stop` is the stream's end. -/
def kExpand (dict : Nat → W64) (stop : Nat) : Nat → Bytes → Option W64 → List W64 × Option Nat
  | 0, _, _ => ([], some stop)
  | _ + 1, [], _ => ([], some stop)
  | fuel + 1, t :: r, last =>
    let off := stop - (r.length + 1)
    let more (ws : List W64) (r1 : Bytes) : List W64 × Option Nat :=
      let x := kExpand dict stop fuel r1 (match ws.getLast? with | some w => some w | none => last)
      (ws ++ x.1, x.2)
    let a := (r.getD 0 0).toNat
    let n := (r.getD 1 0).toNat
    let need := ([8, 1, 1, 1, 2, 0].getD t.toNat 0)
    if 5 < t.toNat then ([], some off)
    else if (r.take need).length < need then ([], some stop)
    else if t == 0 then more [w64 (leNat (r.take 8))] (r.drop 8)
    else if t == 1 then more [dict a] (r.drop 1)
    else if t == 2 then more (List.replicate (a + 1) 0) (r.drop 1)
    else if t == 3 then (match last with
      | some w => more (List.replicate (a + 1) w) (r.drop 1)
      | none => ([], some off))
    else if t == 4 then (if 255 < a + n then ([], some off) else more ((List.range (n + 1)).map (fun i => dict (a + i))) (r.drop 2))
    else ([], none)

/-- Words of the cell record that its fourth word begins (R348). -/
def kWords (w3 : W64) : Nat :=
  4 + 8 * ((List.range 8).filter (fun i => w3.getLsbD (20 + i))).length + (if w3.getLsbD 28 then 64 else 0)

/-- Does a word at place k of row y's record fail (R350 cases 0x04 to 0x06)? -/
def kWordBad (col nc y k : Nat) (w : W64) : Option Nat :=
  let n := if k == 2 then 12 else 4
  if k < 2 then (if cellWordOk w then none else some 4)
  else if 3 < k then none
  else if (List.range n).any (fun e => (y == 0 && w.getLsbD (5 * e)) || (col == 0 && w.getLsbD (5 * e + 3)) || (col + 1 == nc && w.getLsbD (5 * e + 2))) then some 5
  else if w.toNat / 2 ^ (if k == 2 then 60 else 29) != 0 then some 6 else none

/-- The words of a column checked in order from word i, in row y's record: the first failure with its index, or the row and record where
they end. -/
def kCheck (col nc : Nat) : Nat → Nat → List W64 → List W64 → Except (Nat × Nat) (Nat × List W64)
  | _, y, rec_, [] => .ok (y, rec_)
  | i, y, rec_, w :: r =>
    if y == 8 then .error (i, 3)
    else match kWordBad col nc y rec_.length w with
      | some d => .error (i, d)
      | none =>
        let rec1 := rec_ ++ [w]
        if 4 ≤ rec1.length && rec1.length == kWords (rec1.getD 3 0) then kCheck col nc (i + 1) (y + 1) [] r else kCheck col nc (i + 1) y rec1 r

/-- A column of an image: its words, or a failure with the cycle in which it is found, its case and TADDR (R350). -/
def kColumn (dict : Nat → W64) (img : Bytes) (nc j : Nat) : Except (Nat × Nat × Nat) (List W64) :=
  let u (o : Nat) : Nat := leNat ((img.drop o).take 4)
  let co := u (8 + 4 * j)
  let cl := u (24 + 4 * j)
  let x := kExpand dict (co + cl) (cl + 1) ((img.drop co).take cl) none
  match kCheck j nc 0 0 [] x.1, x.2 with
  | .error (i, d), _ => .error (i + 1, d, j * 2 ^ 32 + i)
  | .ok _, some off => .error (x.1.length, 2, off)
  | .ok (y, rec_), none => if y == 8 && rec_.isEmpty then .ok x.1 else .error (x.1.length + 1, 3, j * 2 ^ 32 + x.1.length)

/-- The columns of an image, or the failure found first, the lowest column first (R349, R350). -/
def kDecode (dict : Nat → W64) (img : Bytes) : Except (Nat × Nat) (List (List W64)) :=
  let nc := leNat ((img.drop 6).take 1)
  let cs := (List.range nc).map (kColumn dict img nc)
  let bad := cs.filterMap (fun c => match c with | .error e => some e | .ok _ => none)
  match bad.foldl (fun (a : Option (Nat × Nat × Nat)) e => match a with
      | some b => if e.1 < b.1 then some e else some b
      | none => some e) none with
  | some e => .error e.2
  | none => .ok (cs.map (fun c => match c with | .ok w => w | .error _ => []))

/-- The cell that a record configures (R348). -/
def cellOf (r : List W64) : Cell :=
  let w3 := r.getD 3 0
  let ks := (List.range 8).filter (fun i => w3.getLsbD (20 + i))
  let lut := r.drop (4 + 8 * ks.length)
  { dword := r.getD 0 0, cword := r.getD 1 0,
    rt := (List.range 16).map (fun e => if e < 12 then (r.getD 2 0).extractLsb' (5 * e) 5 else w3.extractLsb' (5 * (e - 12)) 5),
    k := ⟨(ks.zip (List.range 8)).map (fun p => (p.1, BitVec.ofNat 512 (leNat (((r.drop (4 + 8 * p.2)).take 8).flatMap (fun w => leBytes 8 w.toNat)))))⟩,
    lut := if w3.getLsbD 28 then ⟨(List.range 256).map (fun e => (e, (lut.getD (e / 4) 0).extractLsb' (16 * (e % 4)) 16))⟩ else ⟨[]⟩ }

/-- The cells of a column's words (R348). -/
def cellsOf : Nat → List W64 → List Cell
  | 0, _ => []
  | n + 1, ws => let r := ws.take (kWords (ws.getD 3 0)); cellOf r :: cellsOf n (ws.drop r.length)

/-! ## Slots, dictionary and windows (R351, R352, R360, R361) -/

/-- KNEAD_WINDOW_START (R352). -/
def execKneadWindowStart (s : State) : Res := .next { s with clk := { s.clk with kwin := true } }
/-- KNEAD_WINDOW_END (R352). -/
def execKneadWindowEnd (s : State) : Res := .next { s with clk := { s.clk with kwin := false } }

/-- The SYS sub-ops of the arrays take a scratchpad address (R359): control cores only, a multiple of 64, within the scratchpad. -/
def State.kneadOp (s : State) (i : Instr) (a n : Nat) (f : Nat → Res) : Res :=
  if !isCtl s.cur.core then .next (s.raise 0x02 0 0) else
  s.reg i true a (fun v =>
    if v.toNat % 64 != 0 then .next (s.raise 0x09 0 v)
    else if 1047552 < v.toNat + n then .next (s.raise 0x0A 0 v) else f v.toNat)

/-- The array that f8[0] names on the core's own base die (R336). -/
def State.kneadArr (s : State) (h : Bool) : Nat := 2 * dieOf s.cur.core + (if h then 1 else 0)

/-- Is an array's decoder at work? -/
def Array8.loading (x : Array8) : Bool := x.slots.l.any (fun e => e.2.st == .loading)

/-- KNDICT (R360). -/
def execKndict (d a : BitVec 6) (h : Bool) (s : State) : Res :=
  s.kneadOp (.kndict d a h) a.toNat 2048 (fun v =>
    let arr := s.kneadArr h
    if (s.arr arr).loading then .next (s.later d.toNat 1) else
    let b := (s.core s.cur.core).spadRead s.cur.op v 2048
    let dict : Tab W64 := ⟨(List.range 256).map (fun i => (i, w64 (leNat ((b.drop (8 * i)).take 8))))⟩
    .next ((s.modArr arr (fun x => { x with dictPart := some (s.partOf s.cur.core), dict := dict })).later d.toNat 0))

/-- A slot whose image fails a check: EMPTY, sd, and fault 0x17 at the context's next bundle boundary (R350, R351, R361). -/
def State.loadFails (s : State) (arr slot detail addr : Nat) : State :=
  let x := (s.arr arr).slots.get slot {}
  let s1 := s.modArr arr (fun a => { a with slots := a.slots.set slot {} })
  (s1.contextResult (arr / 2) x.owner x.tk 7).contextFault (arr / 2) x.owner
    { code := 0x17, detail := detail, addr := w64 addr, pc := x.pc, slot := 0, single := true }

/-- KNLOAD (R361, R351). -/
def execKnload (d a : BitVec 6) (n : BitVec 2) (h : Bool) (s : State) : Res :=
  s.kneadOp (.knload d a n h) a.toNat 64 (fun v =>
    let arr := s.kneadArr h
    let x := s.arr arr
    let p := s.partOf s.cur.core
    if x.loading || x.binds.l.any (fun e => e.2.st != .free && e.2.slot == n.toNat) then .next (s.later d.toNat 1)
    else if x.dictPart.isSome && x.dictPart != some p then .next (s.later d.toNat 10)
    else
      let hd := (s.core s.cur.core).spadRead s.cur.op v 64
      let total := leNat ((hd.drop 40).take 4)
      let bad := kHeader hd
      if bad.isNone && decide (1047552 < v + total) then .next (s.raise 0x0A 0 (w64 v)) else
      let (t, k) := (s.core s.cur.core).feTicket s.cur.op d.toNat
      let sl : KSlot := { st := .loading, owner := p, image := k.spadRead s.cur.op v (if bad.isNone then total else 64), tk := t, pc := s.cur.op.pc }
      let s1 := (s.setCore s.cur.core k).modArr arr (fun x => { x with slots := x.slots.set n.toNat sl })
      match bad with
      | some o => .next (s1.loadFails arr n.toNat 1 o)
      | none => .next (s1.push (.slotLoadComplete arr n.toNat)))

/-- SLOT_LOAD_COMPLETE (R349 to R352): inside a reconfiguration window, the image's columns are decoded; the slot is LOADED, or a check failed. -/
def execSlotLoadComplete (arr slot : Nat) (s : State) : Res :=
  let x := (s.arr arr).slots.get slot {}
  if x.st != .loading then .next s
  else if !s.clk.kwin then .next (s.push (.slotLoadComplete arr slot))
  else match kDecode (fun i => (s.arr arr).dict.get i 0) x.image with
    | .error (d, t) => .next (s.loadFails arr slot d t)
    | .ok ws =>
      .next ((s.modArr arr (fun a => { a with slots := a.slots.set slot { st := .loaded, owner := x.owner, ncol := ws.length, words := ws } })).contextResult
        (arr / 2) x.owner x.tk 0)

/-! ## Bindings (R353 to R358, R362, R363) -/

/-- Do two ranges overlap? -/
def overlaps (a n b m : Nat) : Bool := decide (a < b + m) && decide (b < a + n)

/-- The binding that a binding record describes, its ranges still as VAs (R353), or none where the record itself is bad (R359 BADREC). -/
def bindRecord (b : Bytes) (slots : Tab KSlot) : Option Binding :=
  let u (o n : Nat) : Nat := leNat ((b.drop o).take n)
  let cols := u 0x19 1
  let x : Binding := { view := u 0 8, store := u 8 8, nrec := u 0x10 4, rin := u 0x14 2, rout := u 0x16 2, slot := u 0x18 1, first := cols % 4, n := cols / 4 % 4 + 1,
                       wr := cols.testBit 4, ganged := cols.testBit 5, adv := u 0x1A 1 % 16, ctlen := (u 0x1A 1).testBit 4 }
  let sl := slots.get x.slot {}
  if 4 < x.slot || 64 ≤ cols || 32 ≤ u 0x1A 1 || u 0x1B 37 != 0 || x.view % 64 != 0 || x.store % 64 != 0 || x.nrec == 0 || 16777216 < x.nrec ||
     x.rin == 0 || 16384 < x.rin || x.rout == 0 || 16384 < x.rout || 4 < x.first + x.n || x.viewRec % 64 != 0 ||
     (x.slot == 4 && (x.wr || x.ganged || x.rin != 576 || x.rout != 1088 || x.ctlen)) ||
     (x.slot < 4 && sl.st == .loaded && sl.ncol != (if x.ganged then x.n else 1)) then none else some x

/-- Bytes of a binding's store. -/
def Binding.storeLen (b : Binding) : Nat := b.nrec * (if b.wr then b.rout else b.rin)

/-- A range of a binding translated (R354): in one page of each stage, granted, in HBM, off every channel reserve. -/
def State.bindRange (s : State) (d p va n : Nat) (wr : Bool) : Option Nat :=
  match s.walk d p 0 (w64 va) with
  | .error _ => none
  | .ok r =>
    let need := if wr then 2 else 1
    if va % r.s1 + n ≤ r.s1 && r.ipa % r.s2 + n ≤ r.s2 && r.p1 &&& need == need && r.p2 &&& need == need && decide (r.pa + n ≤ hbmEnd) &&
       !(List.range 16).any (fun q => let y := s.part q; y.resTotal != 0 && overlaps r.pa n (y.resBase * 2 ^ 20) (y.resTotal * 2 ^ 20)) then some r.pa else none

/-- The ranges of a binding as PAs, or none (R354, BADRANGE). -/
def State.bindRanges (s : State) (d p : Nat) (x : Binding) : Option (Nat × Nat) :=
  match s.bindRange d p x.view x.viewLen x.wr, s.bindRange d p x.store x.storeLen x.wr with
  | some v, some t =>
    if overlaps v x.viewLen t x.storeLen || s.arrays.l.any (fun a => a.2.binds.l.any (fun e => e.2.st != .free &&
        (overlaps v x.viewLen e.2.view e.2.viewLen || overlaps v x.viewLen e.2.store e.2.storeLen))) then none else some (v, t)
  | _, _ => none

/-- KNBIND (R362): its checks in order, then a PENDING entry. -/
def execKnbind (d a : BitVec 6) (h : Bool) (s : State) : Res :=
  s.kneadOp (.knbind d a h) a.toNat 64 (fun v =>
    let arr := s.kneadArr h
    let x := s.arr arr
    let p := s.partOf s.cur.core
    let st (n : Nat) : Res := .next (s.later d.toNat (w64 n))
    match bindRecord ((s.core s.cur.core).spadRead s.cur.op v 64) x.slots with
    | none => st 2
    | some b =>
      let sl := x.slots.get b.slot {}
      if b.slot < 4 && (sl.st == .empty || sl.owner != p) then st 5
      else if b.slot < 4 && sl.st == .loading then st 1
      else if x.binds.l.any (fun e => e.2.st != .free && overlaps b.first b.n e.2.first e.2.n &&
          !(e.2.slot == b.slot && e.2.ganged == b.ganged && e.2.part == p && e.2.first == b.first && e.2.n == b.n)) then st 3
      else match s.bindRanges (dieOf s.cur.core) p b, (List.range 8).find? (fun e => (x.binds.get e {}).st == .free) with
        | none, _ => st 4
        | some _, none => st 6
        | some (vpa, spa), some e =>
          let (t, k) := (s.core s.cur.core).feTicket s.cur.op d.toNat
          .next ((s.setCore s.cur.core k).modArr arr (fun x => { x with binds := x.binds.set e { b with st := .pending, part := p, view := vpa, store := spa, tkBind := t } })))

/-- The view lines of a binding invalidated on all dies (R358). -/
def State.dropViewLines (s : State) (b : Binding) : State :=
  let out (l : Nat) : Bool := !b.covers (64 * l)
  { s with cores := ⟨s.cores.l.map (fun (x : Nat × Core) => (x.1, { x.2 with l1 := ⟨x.2.l1.l.filter (fun e => out e.1)⟩ }))⟩,
           dies := ⟨s.dies.l.map (fun (x : Nat × Die) => (x.1, { x.2 with viewL2 := ⟨x.2.viewL2.l.filter (fun e => out e.1)⟩ }))⟩ }

/-- An entry begins to drain (R358, R363): writes that waited wait now for the end. -/
def State.startDrain (s : State) (arr ent : Nat) : State :=
  ((s.modBind arr ent (fun b => { b with st := .draining })).rewait arr).push (.bindingDrainComplete arr ent)

/-- BINDING_ACTIVATE (R352, R358): at a cycle of the window up to 1,016; the first binding on its columns configures them. -/
def execBindingActivate (arr ent : Nat) (s : State) : Res :=
  let x := s.arr arr
  let b := x.binds.get ent {}
  if b.st != .pending then .next s else
  let share := x.binds.l.any (fun e => e.1 != ent && e.2.st != .free && e.2.st != .pending && e.2.first == b.first && e.2.n == b.n)
  let sl := x.slots.get b.slot {}
  let cfg := (List.range b.n).flatMap (fun j =>
    let cs := if b.slot == 4 then List.replicate 8 ({} : Cell) else cellsOf 8 (sl.words.getD (if b.ganged then j else 0) [])
    (cs.zip (List.range 8)).map (fun (c : Cell × Nat) => (8 * (b.first + j) + c.2, c.1)))
  let s1 := s.dropViewLines b
  let s2 := if share then s1 else s1.modArr arr (fun a => { a with cells := cfg.foldl (fun t p => t.set p.1 p.2) a.cells })
  let s3 := (s2.modBind arr ent (fun b => { b with st := .active })).contextResult (arr / 2) b.part b.tkBind (w64 (ent * 256))
  .next (if b.tkUnbind.isEmpty then s3 else s3.startDrain arr ent)

/-- KNUNBIND (R363). -/
def execKnunbind (d a : BitVec 6) (discard h : Bool) (s : State) : Res :=
  if !isCtl s.cur.core then .next (s.raise 0x02 0 0) else
  s.reg (.knunbind d a discard h) true a.toNat (fun v =>
    if 8 ≤ v.toNat then .next (s.raise 0x04 0 v) else
    let arr := s.kneadArr h
    let b := (s.arr arr).binds.get v.toNat {}
    if b.st == .free then .next (s.later d.toNat 8)
    else if b.part != s.partOf s.cur.core then .next (s.later d.toNat 9)
    else
      let (t, k) := (s.core s.cur.core).feTicket s.cur.op d.toNat
      let s1 := (s.setCore s.cur.core k).modBind arr v.toNat (fun b => { b with tkUnbind := b.tkUnbind ++ [t], discard := if b.st == .draining then b.discard else discard })
      .next (if b.st == .active || b.st == .faulted then s1.startDrain arr v.toNat else s1))

/-- A record that is open, closed with what was written and zero in every other byte (R356, R363). -/
def closedInput (b : Binding) (o : Nat × List (Nat × BitVec 8)) : Bytes := (Memory.writeAll [] o.2).readN 0 b.rin

/-- BINDING_DRAIN_COMPLETE (R358, R363): open records are closed, or dropped; once the last record has run, its lines are delivered and its
output is applied at all four dies, the entry is FREE. -/
def execBindingDrainComplete (arr ent : Nat) (s : State) : Res :=
  let x := s.arr arr
  let b := x.binds.get ent {}
  if b.st != .draining then .next s else
  if !b.opened.isEmpty then
    let n := if b.discard then b.opened.length else 16 - x.queue.length
    let s1 := s.modBind arr ent (fun b => { b with opened := b.opened.drop n })
    .next ((if b.discard then s1 else s1.modArr arr (fun a =>
      { a with queue := a.queue ++ (b.opened.take n).map (fun o => { ent := ent, r := o.1, inp := some (closedInput b o), acc := [] }) })).rewait arr |>.push (.bindingDrainComplete arr ent))
  else if x.queue.any (fun r => r.ent == ent) || x.runs.any (fun r => r.rcd.ent == ent) || !b.deliv.isEmpty ||
      !(List.range 4).all (fun z => decide (b.outClk ≤ (s.die z).app.getD (arr / 2) 0)) then .next (s.push (.bindingDrainComplete arr ent))
  else
    let s1 := (s.dropViewLines b).modArr arr (fun a => { a with binds := a.binds.del ent })
    .next (b.tkUnbind.foldl (fun s t => s.contextResult (arr / 2) b.part t 0) s1)

/-! ## Views (R355, R356, R365) -/

/-- KNEAD_RECORD_REQUEST (R355, R365): it joins a record of its number that is queued, or takes a place in the queue; it waits while the
queue is full. -/
def execKneadRecordRequest (a : Access) (s : State) : Res :=
  match s.bindingAt a.pa with
  | none => .next (s.push (.homeSliceAccess a))
  | some (arr, ent, b) =>
    if b.st == .faulted then .next (s.accessFault a 0x18 4)
    else if b.st != .active || b.wr then .next (s.push (.homeSliceAccess a))
    else
      let r := (a.pa - b.view) / max b.rout 1
      let q := (s.arr arr).queue
      if q.any (fun x => x.ent == ent && x.r == r) then
        .next (s.modArr arr (fun y => { y with queue := q.map (fun x => if x.ent == ent && x.r == r then { x with acc := x.acc ++ [a] } else x) }))
      else if 16 ≤ q.length then .next (s.push (.kneadRecordRequest a))
      else .next (s.modArr arr (fun y => { y with queue := q ++ [{ ent := ent, r := r, inp := none, acc := [a] }] }))

/-- KNEAD_VIEW_LINE_DELIVERY (R355): the record's lines to the home slices of every die that asked, and the answers they give. -/
def execKneadViewLineDelivery (arr ent rcd : Nat) (data : Bytes) (s : State) : Res :=
  let b := (s.arr arr).binds.get ent {}
  match b.deliv.find? (fun r => r.r == rcd) with
  | none => .next s
  | some r =>
    let base := (b.view + rcd * b.rout) / 64
    let line (l : Nat) : Bytes := (data.drop (64 * (l - base))).take 64
    let s1 := s.modBind arr ent (fun b => { b with deliv := b.deliv.erase r })
    let s2 := (nub (r.acc.map (fun a => a.die))).foldl (fun s d => s.modDie d (fun x =>
      { x with viewL2 := (List.range (data.length / 64)).foldl (fun t i => t.set (base + i) (line (base + i))) x.viewL2 })) s1
    .next (r.acc.foldl (fun s a => s.answer a (line (a.pa / 64))) s2)

/-- COLLECTION_WRITE (R356): bytes into an open record; a record whose bytes are all written is closed and queued. A write to a new record
waits while 16 are open, one that would close a record while the queue is full, and one behind a waiting write to its record. -/
def execCollectionWrite (w : CollWrite) (s : State) : Res :=
  let x := s.arr w.arr
  let b := x.binds.get w.ent {}
  let pa := (w.data.headD (0, 0)).1
  if b.st == .faulted && b.covers pa then .next (s.accessFault w.acc 0x18 4)
  else if b.st != .active || !b.covers pa then .next (s.push (.homeSliceAccess w.acc))
  else
    let r := (pa - b.view) / max b.rin 1
    let base := b.view + r * b.rin
    let old := ((b.opened.find? (fun o => o.1 == r)).map (·.2)).getD []
    let new := w.data.foldl (fun (m : List (Nat × BitVec 8)) p => (p.1 - base, p.2) :: m.filter (fun q => q.1 != p.1 - base)) old
    let isOpen := b.opened.any (fun o => o.1 == r)
    let full := decide (new.length == b.rin)
    if b.wait.any (fun v => ((v.data.headD (0, 0)).1 - b.view) / max b.rin 1 == r) ||
       (!isOpen && decide (16 ≤ (x.binds.l.map (fun e => e.2.opened.length)).foldl (· + ·) 0)) || (full && decide (16 ≤ x.queue.length)) then
      .next (s.modBind w.arr w.ent (fun b => { b with wait := b.wait ++ [w] }))
    else
      let s1 := s.dropAccess w.acc
      let rest := b.opened.filter (fun o => o.1 != r)
      if full then
        let s2 := s1.modBind w.arr w.ent (fun b => { b with opened := rest })
        .next ((s2.modArr w.arr (fun a => { a with queue := a.queue ++ [{ ent := w.ent, r := r, inp := some (closedInput b (r, new)), acc := [] }] })).rewait w.arr)
      else .next (s1.modBind w.arr w.ent (fun b => { b with opened := rest ++ [(r, new)] }))

end Sys2Proof.Machine
end

