-- ==== Sys2Proof/Machine/Reset.lean ====
section
/-! DEFINITION. Partition resets, function level resets, the start of scheduler contexts, power and cold start (16 R401, R402; 17 R429;
20 R468; 22 R487 to R492). -/
namespace Sys2Proof.Machine

/-! ## What is under way for a core -/

/-- The core whose own state an event changes, if it is such an event. -/
def evCore : Ev → Option Nat
  | .wideBundleIssue c => some c
  | .singleOpBundleIssue c => some c
  | .checkpointBundle c => some c
  | .operatorBoundaryBundle c => some c
  | .queueEntryArrival a => some a.core
  | .scalarResultArrival c _ _ => some c
  | .atomicResultArrival c _ _ _ => some c
  | .rollbackComplete c => some c
  | .asyncFaultTaken c => some c
  | .remoteAtomRejection c _ => some c
  | .hangWatchdog c => some c
  | .operatorBoundExceeded c => some c
  | .machineRollback c => some c
  | .singleOpErrorRetry c => some c
  | .workItemStart cs => cs.head?
  | .workItemEnd c => some c
  | .coreFree c => some c
  | .launchSubmissionAccept c => some c
  | .spliceAcceptanceArrival m => some m.core
  | .spliceCreditArrival m => some m.core
  | .spliceCloseArrival m => some m.core
  | .spliceEntryShip c _ => some c
  | .spliceEntryDelivery m _ => some m.core
  | .spliceCloseSend c _ => some c
  | .releaseComplete c => some c
  | .bankLoadComplete c _ => some c
  | .bankComputeComplete c _ => some c
  | .tileWriteComplete c _ => some c
  | .repeatIterationStart c => some c
  | .copyCommandStart c _ => some c
  | .copyDataReturn c _ _ => some c
  | .copyCommandComplete c _ => some c
  | .counterPost p => some p.tgt
  | .remoteWriteDelivery w => some w.tgt
  | .broadcastDelivery w => some w.tgt
  | .remoteAtomApply a => some a.tgt
  | .channelDelivery d => some d.core
  | .peelRunPark c => some c
  | .drainPoint c => some c
  | .ckptSaveComplete c => some c
  | .discardComplete c => some c
  | _ => none

/-- The core that sent an access or a directed packet on its way. -/
def evSender : Ev → Option Nat
  | .homeSliceAccess a => some a.core
  | .kneadRecordRequest a => some a.core
  | .homeSliceAtomic a => some a.core
  | .channelAppend a => some a.core
  | .collectionWrite w => some w.acc.core
  | .directedPacketPerform p => some (match p.body with
      | .atomg a => a.core
      | .atom a => a.core
      | .post q => q.src
      | .rwrite w => w.src
      | .append a => a.core
      | .coll w => w.acc.core)
  | _ => none

/-! ## Partition reset (R401) -/

/-- Is a core, tile or control, at work for a partition? -/
def State.coreOf (s : State) (p c : Nat) : Bool := if isCtl c then decide (c < 132) && s.ctlRuns p (c - 128) else s.partOf c == p

/-- Is an event discarded when a partition stops: what its cores were to receive, and their reads? Writes that have left the cores stand. -/
def State.evStops (s : State) (p : Nat) (e : Ev) : Bool :=
  match evCore e with
  | some c => s.coreOf p c
  | none =>
    match e with
    | .homeSliceAccess a => a.wr.isNone && s.coreOf p a.core
    | .kneadRecordRequest a => s.coreOf p a.core
    | .directedPacketPerform q => decide (q.unit < 200) && s.coreOf p q.unit
    | _ => false

/-- A core that has stopped: nothing of its work is left; its scratchpad, channel ends and clocks stay. -/
def Core.stopped (k : Core) (ctl : Bool) : Core :=
  { (if ctl then Core.resetCtl else {}) with
    spad := k.spad, empty := k.empty, lastOwner := k.lastOwner, clean := k.clean, chans := k.chans, seqNo := k.seqNo + 1, bundleNo := k.bundleNo + 4, ival := k.ival + 1, expMax := k.expMax }

/-- Step 1 (R401) for what is in flight. -/
def State.dropFlight (s : State) (p : Nat) : State :=
  let keep (l : List Ev) : List Ev := l.filter (fun e => !s.evStops p e)
  let units := (s.cores.l.map (·.1)).filter (s.coreOf p)
  let s1 : State := { s with clk := { s.clk with urgent := keep s.clk.urgent, pending := keep s.clk.pending },
                             routers := ⟨s.routers.l.map (fun r => (r.1, { r.2 with inq := ⟨r.2.inq.l.map (fun q => (q.1, q.2.filter (fun (x : Packet) => !s.evStops p x.payload)))⟩ }))⟩,
                             walkFaults := s.walkFaults.filter (fun f => !s.coreOf p f.core) }
  units.foldl (fun s u => (List.range 4).foldl (fun (s : State) d => { s with dpSent := s.dpSent.set (d * 8192 + u) (s.dpDone.get (d * 8192 + u) 0) }) s) s1

/-- The frames that a partition's live items, parked items and saves hold (R408, R409). -/
def State.heldFrames (s : State) (p : Nat) : List Nat :=
  (s.cores.l.filterMap (fun x => x.2.item.bind (fun w => if w.part == p then some w.frame else none))) ++
  (s.groups.filter (fun g => g.part == p)).flatMap (fun g => g.frames ++ if g.st == .resuming then [] else g.parked.map (fun k => k.item.frame))

/-- Step 1 (R401): every core of the partition stops; its items, entries, lines, groups, posts, Knead slots and bindings are discarded. -/
def State.stopPartition (s : State) (p : Nat) : State :=
  let fr := s.heldFrames p
  let mine := (s.cores.l.map (·.1)).filter (s.coreOf p)
  let s1 := (s.dropFlight p)
  let s2 := (mine.filter (fun c => !isCtl c)).foldl State.chanDiscard s1
  let s3 := mine.foldl (fun s c => s.modCore c (fun k => k.stopped (isCtl c))) s2
  let s4 : State := { s3 with dies := ⟨s3.dies.l.map (fun x => (x.1, { x.2 with
      entries := ⟨x.2.entries.l.map (fun e => (e.1, if e.2.part == p then {} else e.2))⟩,
      lines := ⟨x.2.lines.l.map (fun l => (l.1, if l.2.members.any mine.contains then {} else l.2))⟩,
      ctx := x.2.ctx.del p, sel := x.2.sel.set p { last := s.cyc } }))⟩ }
  let s5 : State := { s4 with arrays := ⟨s4.arrays.l.map (fun (a : Nat × Array8) =>
      let gone := (a.2.binds.l.filter (fun e => e.2.part == p)).map (·.1)
      let cols := (a.2.runs.filter (fun r => gone.contains r.rcd.ent)).flatMap (fun (r : KRun) => r.cols)
      (a.1, { a.2 with slots := ⟨a.2.slots.l.map (fun e => (e.1, if e.2.owner == p then {} else e.2))⟩,
                       binds := ⟨a.2.binds.l.filter (fun e => e.2.part != p)⟩,
                       queue := a.2.queue.filter (fun (r : KRec) => !gone.contains r.ent),
                       runs := a.2.runs.filter (fun (r : KRun) => !gone.contains r.rcd.ent),
                       cells := ⟨a.2.cells.l.map (fun c => (c.1, if cols.contains (c.1 / 8) then { c.2 with ing := ⟨[]⟩, inp := none, fl := [] } else c.2))⟩ }))⟩ }
  let s6 : State := { s5 with peelPosts := s5.peelPosts.filter (fun x => x.part != p), groups := s5.groups.filter (fun g => g.part != p) }
  let s7 := (s6.arrays.l.map (·.1)).foldl State.rewait s6
  (s7.modPart p (fun q => { q with frames := q.frames ++ fr, reports := [], reported := [] })).modFn p (fun f => { f with dies := 0, toStart := 0, peelBusy := 0 })

/-- Step 3 (R402): a core that fails its test is replaced by a spare of its die, with a zeroed scratchpad, or its number is disabled. -/
def State.retire (s : State) (c : Nat) : State :=
  let d := dieOf c
  let x := s.die d
  if x.disabled.contains (coreNo c) then s
  else if x.spares == 0 then s.setDie d { x with disabled := x.disabled ++ [coreNo c] }
  else (s.setDie d { x with spares := x.spares - 1 }).modCore c (fun k => { k with spad := {}, empty := [], lastOwner := none, clean := true })

/-- Steps 1 to 3 (R401). -/
def State.resetCores (s : State) (p : Nat) (failed : List Nat) : State :=
  ((failed.filter (fun c => !isCtl c && s.partOf c == p)).foldl State.retire (s.stopPartition p))

/-- A queue's read position returned (R429): the packets from there on are in the ring again. -/
def WQ.rewind (x : WQ) (rpos : Nat) : WQ :=
  let n := (x.wpos + 2 ^ 32 - rpos) % 2 ^ 32
  { x with rpos := rpos, clks := List.replicate (n - x.clks.length) 0 ++ x.clks.drop (x.clks.length - n) }

/-- The read positions that a partition's queues return to (R429): those the last complete fence record lists, or all to 0. -/
def State.rewindQueues (s : State) (p : Nat) : State :=
  let d := s.ownerDie (s.fenceBase p)
  match (if (s.fn p).fence.getLsbD 0 then s.lastRecord p d else none) with
  | none => (s.boundQueues p).foldl (fun s q => s.modWq q (fun x => x.rewind 0)) s
  | some (_, a) =>
    let n := min (leNat (s.viewRead d (a + 4) 4)) 1024
    (List.range n).foldl (fun s i =>
      let w := leNat (s.viewRead d (a + 0x200 + 8 * i) 8)
      if (s.wq (w % 1024)).en && s.layout.now.wqOwner.getD (w % 1024) 0 == p then s.modWq (w % 1024) (fun x => x.rewind (w / 2 ^ 32)) else s) s

/-- A partition's dies as a mask. -/
def State.dieMask (s : State) (p : Nat) : Nat := (s.partDies p).foldl (fun a d => a + 2 ^ d) 0

/-- Step 4 (R401, R429, R492): the scheduler's contexts start again, with the record's number and data. -/
def State.restartContexts (s : State) (p : Nat) : State :=
  let d := s.ownerDie (s.fenceBase p)
  let r := if (s.fn p).fence.getLsbD 0 then s.lastRecord p d else none
  let data := match r with
    | some x => s.viewRead d (x.2 + 0x40) 448
    | none => []
  (s.modFn p (fun f => { f with toStart := s.dieMask p, seq := (r.map (·.1)).getD 0, sdata := data })).wakeContexts

/-- PARTITION_RESET (R401, R468): causes of R456; 259 marks a control-core fault with TVEC = 0, after which the contexts wait for a GO (R492). -/
def execPartitionReset (part cause : Nat) (failed : List Nat) (s : State) : Res :=
  let s1 := (s.resetCores part failed).rewindQueues part
  let s2 := s1.modFn part (fun f => { f with rcause := cause % 256, rgen := (f.rgen + 1) % 65536 })
  let s3 := s2.setFerr part 0
  .next (if cause == 259 || bitsAt (s3.fn part).sched.toNat 2 46 == 0 then s3.wakeContexts else s3.restartContexts part)

/-- FUNCTION_LEVEL_RESET (R468): the partition's work, the pending bitmap (256 bytes, log 115), the function's registers and its interrupt state
(R455, log 82), its queues and its frames; the contexts wait for a GO. -/
def execFunctionLevelReset (fn : Nat) (s : State) : Res :=
  let f := s.fn fn
  let s1 := (s.newFresh.2).resetCores fn (s.testCores fn)
  let s2 := s1.devWrite (bitsAt f.pendReg.toNat 12 40 * 4096) (List.replicate 256 0)
  let s3 := (List.range 1024).foldl (fun (s : State) q => if s.layout.now.wqOwner.getD q 0 == fn && (s.wqs.find q).isSome then { s with wqs := s.wqs.del q } else s) s2
  let s4 := s3.modPart fn (fun p => { p with frames := [], frmTotal := 0, resBase := 0, resTotal := 0 })
  .next ((s4.modFn fn (fun f => { rgen := (f.rgen + 1) % 65536, nidrop := f.nidrop, fgtag := f.fgtag, rcause := 5, ferr := 1 })).wakeContexts)

/-- SCHEDULER_GO (R491, R492): a context for each die of the partition; ignored while one runs. -/
def execSchedulerGo (fn : Nat) (v : W64) (s : State) : Res :=
  let va := v &&& 0x0000FFFFFFFFFFFC#64
  let f := s.fn fn
  if !s.booted then .next s
  else if f.dies != 0 then .next (s.modFn fn (fun f => { f with sched := va ||| (f.sched &&& 1) }))
  else
    let m := s.dieMask fn
    .next ((s.modFn fn (fun f => { f with sched := if m == 0 then va else va ||| 1, toStart := m, seq := 0, sdata := [] })).wakeContexts)

/-! ## Power (R487, R488, R492) -/

/-- A package without power: every register, SRAM, weight store and HBM byte is lost, and CYC is 0. The host keeps its own. -/
def State.unpowered (s : State) : State :=
  { clk := { tape := s.clk.tape, fresh := s.clk.fresh }, hostMem := s.hostMem, msgs := s.msgs, powered := false, booted := false }

/-- POWER_LOSS (R487). -/
def execPowerLoss (s : State) : Res := .next s.unpowered
/-- THERMAL_SHUTDOWN (R488): at 115 °C the management processor removes all power. -/
def execThermalShutdown (temp : Nat) (s : State) : Res := .next (if 115 ≤ temp then s.unpowered else s)
/-- COLD_START (R492, R469): steps 1 to 4 of a package that had no power; without valid signatures the endpoint does not train its link. -/
def execColdStart (signed : Bool) (s : State) : Res :=
  .next (if s.powered then s else { State.reset with clk := { tape := s.clk.tape, fresh := s.clk.fresh }, hostMem := s.hostMem, msgs := s.msgs, booted := signed })

end Sys2Proof.Machine
end

