-- ==== Sys2Proof/Machine/Package.lean ====
section
/-! DEFINITION. The package's own events (19, 22): layout commit, lane groups of die-to-die ports, frequency levels and temperature. -/
namespace Sys2Proof.Machine

/-! ## Layout commit (R450 to R452) -/

/-- Is a set of quadrants a partition's shape (R445): one quadrant, two of one die in a row or a column, one die, two dies, or all four? -/
def isShape (qs : List Nat) : Bool :=
  let dies := nub (qs.map (· / 4))
  let whole := dies.all (fun d => (List.range' (4 * d) 4).all qs.contains)
  qs.length ≤ 1 || (dies.length == 1 && [[0, 1], [2, 3], [0, 2], [1, 3]].contains (qs.map (· % 4))) ||
  (whole && (dies.length == 1 || dies.length == 2 || dies.length == 4))

/-- Does a layout give each of sixteen quadrants to one partition of 0 to 15, each in an allowed shape (R445)? -/
def layoutOk (l : LayoutRec) : Bool :=
  l.quad.length == 16 && l.quad.all (fun p => decide (p < 16)) && (List.range 16).all (fun p => isShape ((List.range 16).filter (fun q => l.quad.getD q 0 == p)))

/-- LAYOUT_SHADOW_WRITE (R445, R450, R451): from the LGEN write until the flip the shadow cannot be written; a layout of other shapes is none. -/
def execLayoutShadowWrite (l : LayoutRec) (s : State) : Res :=
  .next (if s.layout.st == .quiescing || !layoutOk l then s else { s with layout := { s.layout with shadow := some l, st := .shadowed } })

/-- LGEN_WRITE (R450, R451). -/
def execLgenWrite (v : Nat) (s : State) : Res :=
  .next (if s.layout.st == .shadowed && v == (s.layout.gen + 1) % 65536 then { s with layout := { s.layout with st := .quiescing } } else s)

/-- The quadrants whose partition number changes. -/
def State.moved (s : State) (l : LayoutRec) : List Nat := (List.range 16).filter (fun q => l.quad.getD q 0 != s.layout.now.quad.getD q 0)

/-- Does an event in flight belong to a quadrant that moves: to one of its cores or slices, or to a control core of a partition concerned? -/
def State.evMoves (s : State) (qs cores parts : List Nat) (e : Ev) : Bool :=
  let mine (c : Nat) : Bool := cores.contains c || (isCtl c && decide (c < 132) && parts.contains (s.core c).ctl.part)
  let slices (pa : Nat) : Bool := isHbm pa && (match s.windowPart pa with
    | some p => parts.contains p
    | none => false)
  (evCore e).any mine || (evSender e).any mine ||
  (match e with
   | .exportedWriteApply _ w => slices ((w.data.headD (0, 0)).1)
   | .pageWalkComplete w => mine w.core
   | .kneadViewLineDelivery arr ent _ _ => parts.contains ((s.arr arr).binds.get ent {}).part
   | .channelReportArrival c _ _ => mine c
   | .channelCloseNotice c _ => mine c
   | .channelTableAnswer c _ => mine c
   | .homeSliceAccess a => decide (200 ≤ a.core) && slices a.pa
   | .weightStoreWritePerform d => (s.die d).wqueue.any (fun w => parts.contains w.1 && qs.any (fun q => q / 4 == d))
   | _ => false)

/-- The quiesce point (R450): the cores that move are vacant and held, the contexts of the partitions concerned are saved, and nothing of theirs is
in flight or still to be performed. -/
def State.quiescedFor (s : State) (l : LayoutRec) : Bool :=
  let qs := s.moved l
  let cores := qs.flatMap (fun q => List.range' (8 * q) 8)
  let parts := nub (qs.flatMap (fun q => [l.quad.getD q 0, s.layout.now.quad.getD q 0]))
  cores.all (fun c => s.vacant c && (s.die (dieOf c)).hold.contains c && (s.core c).sent.isEmpty && (s.core c).outs.isEmpty) &&
  (List.range 4).all (fun d => !((s.core (128 + d)).ctl.running && parts.contains (s.core (128 + d)).ctl.part)) &&
  s.walks.all (fun w => !cores.contains w.core && !parts.contains w.fn) &&
  s.arrays.l.all (fun a => a.2.binds.l.all (fun b => b.2.deliv.isEmpty || !parts.contains b.2.part)) &&
  !s.inFlight.any (s.evMoves qs cores parts)

/-- Is a flip due in this cycle (R451)? -/
def State.flipDue (s : State) : Bool :=
  s.layout.st == .quiescing && s.clk.cyc % 8192 == 0 && (match s.layout.shadow with
    | some l => s.quiescedFor l
    | none => false)

/-- Weight-store bytes of windows that a partition gets are zeroed (R247). -/
def State.zeroWindows (s : State) (old new : LayoutRec) : State :=
  (List.range 64).foldl (fun s i =>
    let w := new.ws.getD i (0, 0)
    if w == old.ws.getD i (0, 0) then s
    else s.modDie (i % 4) (fun x => { x with ws := x.ws.filter (fun c => decide (c.1 < w.1 * 65536) || decide ((w.1 + w.2) * 65536 ≤ c.1)) })) s

/-- LAYOUT_FLIP (R450, R451): everything changes in one cycle. -/
def execLayoutFlip (s : State) : Res :=
  if !s.flipDue then .next s else
  match s.layout.shadow with
  | none => .next s
  | some l =>
    let old := s.layout.now
    let s1 := s.zeroWindows old l
    let s2 := (List.range 16).foldl (fun s p => if l.res.getD p (0, 0) == old.res.getD p (0, 0) then s
      else s.modPart p (fun x => { x with resBase := (l.res.getD p (0, 0)).1, resTotal := (l.res.getD p (0, 0)).2 })) s1
    .next ({ s2 with layout := { now := l, gen := (s.layout.gen + 1) % 65536, st := .live, shadow := none } } : State).wakeContexts

/-- MGP_WATCHDOG_RESET (R451, R452): a shadow that has not flipped is discarded. -/
def execMgpWatchdogReset (s : State) : Res := .next { s with layout := { s.layout with st := .live, shadow := none } }

/-! ## Die-to-die ports (R442, R443) -/

/-- DIE_TO_DIE_LINK_ERROR (R442): retransmission cycles count against the port's budget. -/
def execDieToDieLinkError (die port cycles : Nat) (s : State) : Res :=
  .next (s.modDie die (fun x => { x with retry := x.retry.set port (x.retry.getD port 0 + cycles) }))

/-- The partitions that use the port from a die to another (R443, R445): those with quadrants on both, and those whose host accesses, which D0
makes (R257), cross it. -/
def State.portParts (s : State) (d e : Nat) : List Nat :=
  (List.range 16).filter (fun p => (s.partOnDie p d && s.partOnDie p e) || (d == 0 && s.partOnDie p e) || (e == 0 && s.partOnDie p d))

/-- LANE_GROUP_DROP (R443): at a period boundary, a port over its budget of 256 cycles loses its worst group; with one group left it is a
persistent fault, and the partitions that use it are reset. -/
def execLaneGroupDrop (die port : Nat) (s : State) : Res :=
  let x := s.die die
  let tooMany := decide (256 < x.retry.getD port 0)
  let s1 := s.setDie die { x with retry := x.retry.set port 0 }
  let m := x.lanes.getD port 0xF
  let up := (List.range 4).filter (fun i => m.testBit i)
  if !tooMany then .next s1
  else if up.length ≤ 1 then
    .next ((s.portParts die ((otherDies die).getD port die)).foldl (fun s p => s.pushReset p 4) s1)
  else
    let (n, s2) := s1.newFresh
    let g := up.getD (Config.worstGroup n % up.length) 0
    .next (s2.modDie die (fun x => { x with lanes := x.lanes.set port (m ^^^ 2 ^ g) }))

/-! ## Islands (R488 to R490, R442) -/

/-- A step wanted of an island: it waits for the next announcement (R490). -/
def State.wantLevel (s : State) (i l : Nat) : State := s.modIsland i (fun x => { x with want := some l })

/-- FREQ_ANNOUNCE (R490): in cycle 0 of a period, unless a step is announced already; at any other time the request waits. -/
def execFreqAnnounce (island level : Nat) (s : State) : Res :=
  let x := s.island island
  if level == 0 || 8 < level || 16 ≤ island then .next s
  else if s.clk.cyc % 8192 != 0 || x.apend then .next (s.wantLevel island level)
  else .next (s.modIsland island (fun x => { x with alevel := level, apend := true, aperiod := s.period + 2, want := none }))

/-- FREQ_STEP (R490, R442): the announced level, and a pause. -/
def execFreqStep (island : Nat) (s : State) : Res :=
  let x := s.island island
  if x.apend && x.aperiod ≤ s.period then .next (s.modIsland island (fun x => { x with level := x.alevel, apend := false, paused := true })) else .next s

/-- FREQ_PAUSE_END (R442). -/
def execFreqPauseEnd (island : Nat) (s : State) : Res := .next (s.modIsland island (fun x => { x with paused := false }))

/-- THERMAL_LIMIT (R488): at 100 °C the island's controller announces level 4, or its current level if that is lower. -/
def execThermalLimit (island temp : Nat) (s : State) : Res :=
  .next (if temp < 100 || 16 ≤ island then s else s.wantLevel island (min 4 (s.island island).level))

/-- The management processor sets a partition's power cap (R448): each of its islands has an equal share, and its controller wants the level that
keeps within it (a free value), through a frequency step (R442). -/
def State.setCap (s : State) (p cap : Nat) : State :=
  let is_ := (List.range 16).filter (fun i => s.layout.now.quad.getD i 0 == p)
  let share := cap / max is_.length 1
  is_.foldl (fun s i => s.modIsland i (fun x => { x with cap := share, want := some (1 + Config.levelFor share % 8) })) (s.modPart p (fun x => { x with cap := cap }))

/-- Settings of the networks that wait for the period boundary (R438). -/
def State.takeNoc (s : State) : State :=
  { s with dies := ⟨s.dies.l.map (fun (x : Nat × Die) => (x.1, match x.2.nocNext with
      | some v => { x.2 with nocCfg := v, nocNext := none }
      | none => x.2))⟩ }

/-- What the period brings about for ports, islands and the layout (R442 to R444, R450). -/
def State.packageDue (s : State) : List Ev :=
  let m := s.clk.cyc % 8192
  if m == 0 then
    (if s.flipDue then [Ev.layoutFlip] else []) ++
    s.islands.l.flatMap (fun i => (if i.2.apend && i.2.aperiod ≤ s.period then [Ev.freqStep i.1] else []) ++
      (match i.2.want with
       | some l => [Ev.freqAnnounce i.1 l]
       | none => [])) ++
    s.dies.l.flatMap (fun d => ((List.range 3).filter (fun p => d.2.retry.getD p 0 != 0)).map (Ev.laneGroupDrop d.1))
  else if m == 128 then (s.islands.l.filter (fun i => i.2.paused)).map (fun i => Ev.freqPauseEnd i.1)
  else []

end Sys2Proof.Machine
end

