-- ==== Sys2Proof/Machine/HostFn.lean ====
section
/-! DEFINITION. The physical functions (20): interrupts, translation invalidation, work queues, the aperture, deadline posts, attestation and
function registers. Without a trained link (R469) a host access reaches nothing. -/
namespace Sys2Proof.Machine

/-! ## Interrupts (R465 to R467) -/

/-- Word 2e (address) or 2e + 1 (data, vector control) of the MSI-X table; entries are masked at reset (log 14). -/
def Fn.msixWord (f : Fn) (i : Nat) : W64 := f.msix.get i (if i % 2 == 1 then w64 (2 ^ 32) else 0)

/-- MSI-X entry m signalled: its message, or while it is masked its PBA bit (R466). -/
def State.signal (s : State) (fn m : Nat) : State :=
  let f := s.fn fn
  let d := (f.msixWord (2 * m + 1)).toNat
  if d.testBit 32 then s.modFn fn (fun f => { f with pba := f.pba ||| w64 (2 ^ m) })
  else { s with msgs := s.msgs ++ [.msi fn (f.msixWord (2 * m)).toNat (d % 2 ^ 32)] }

/-- The address of the remapping entry of a vector (R466). -/
def State.irtAddr (s : State) (fn v : Nat) : Nat := bitsAt (s.fn fn).irt.toNat 12 40 * 4096 + 8 * v

/-- The remapping entry of a vector, where it names one (R466): its MSI-X entry. -/
def State.irtEntry (s : State) (fn v : Nat) : Option Nat :=
  let t := (s.fn fn).irt.toNat
  let e := leNat (s.devRead (s.irtAddr fn v) 8)
  if 2 ^ min (t % 16) 11 ≤ v || e % 2 == 0 || bitsAt e 1 3 != 0 || bitsAt e 11 53 != 0 then none else some (bitsAt e 4 6)

/-- An event dropped (R466). -/
def State.dropEvent (s : State) (fn : Nat) : State :=
  (s.modFn fn (fun f => { f with nidrop := min (f.nidrop + 1) 65535 })).setFerr fn 3

/-- The address of the byte of the pending bitmap that holds a vector's bit (R466, log 115). -/
def State.pendByte (s : State) (fn v : Nat) : Nat := bitsAt (s.fn fn).pendReg.toNat 12 40 * 4096 + v / 8

/-- INTERRUPT_EVENT (R466): dropped, made pending, or signalled. -/
def execInterruptEvent (fn vec rgen : Nat) (s : State) : Res :=
  let f := s.fn fn
  s.devReads fn (.interruptEvent fn vec rgen) (if rgen != f.rgen then [] else [(s.irtAddr fn vec, 8)] ++ (if bitsAt f.fctl.toNat 0 2 == 0 then [] else [(s.pendByte fn vec, 1)])) (fun s =>
  match (if rgen != f.rgen then none else s.irtEntry fn vec) with
  | none => .next (s.dropEvent fn)
  | some m =>
    if bitsAt f.fctl.toNat 0 2 != 0 then
      let a := s.pendByte fn vec
      .next (s.devWrite a (leBytes 1 (leNat (s.devRead a 1) ||| 2 ^ (vec % 8))))
    else .next (s.signal fn m))

/-- One pending vector handled (R466): its bit clears, and its entry is signalled. -/
def State.unpend (s : State) (fn v : Nat) : State :=
  let a := s.pendByte fn v
  let b := leNat (s.devRead a 1)
  if !b.testBit (v % 8) then s
  else
    let s1 := s.devWrite a (leBytes 1 (b ^^^ 2 ^ (v % 8)))
    match s1.irtEntry fn v with
    | some m => s1.signal fn m
    | none => s1.dropEvent fn

/-- The vectors whose bits are set in the pending bitmap, ascending. -/
def State.pendingVecs (s : State) (fn : Nat) : List Nat :=
  let b := s.devRead (s.pendByte fn 0) 256
  (List.range 2048).filter (fun v => (b.getD (v / 8) 0).getLsbD (v % 8))

/-- FCTL_WRITE (R456, R466): a write of STATE 3 leaves STATE; a write of RUN handles every pending vector first. -/
def execFctlWrite (fn : Nat) (v : W64) (s : State) : Res :=
  if !s.booted then .next s else
  let st := bitsAt v.toNat 0 2
  let old := bitsAt (s.fn fn).fctl.toNat 0 2
  let s1 := s.modFn fn (fun f => { f with fctl := w64 (bitsAt v.toNat 7 12 * 128 + (if st == 3 then old else st)) })
  if st != 0 then .next s1
  else s.devReads fn (.fctlWrite fn v) ((s.pendByte fn 0, 256) :: (s.pendingVecs fn).map (fun v => (s.irtAddr fn v, 8))) (fun s =>
    .next ((s1.pendingVecs fn).foldl (fun s v => s.unpend fn v) { s1 with clk := s.clk }))

/-- MSIX_VECTOR_UNMASK (R466): the mask bit clears, and a message that was held is sent. -/
def execMsixVectorUnmask (fn ent : Nat) (s : State) : Res :=
  if !s.booted || 64 ≤ ent then .next s else
  let f := s.fn fn
  let s1 := s.modFn fn (fun f => { f with msix := f.msix.set (2 * ent + 1) (w64 ((f.msixWord (2 * ent + 1)).toNat % 2 ^ 32)), pba := f.pba &&& ~~~(w64 (2 ^ ent)) })
  .next (if f.pba.getLsbD ent then s1.signal fn ent else s1)

/-! ## Invalidation (R256) -/

/-- Does an invalidation cover a translation of a PASID at an address? -/
def InvReq.covers (r : InvReq) (pasid va size : Nat) : Bool :=
  r.kind == 1 || (pasid == r.pasid && (r.kind == 0 || (decide (r.va < va + size) && decide (va < r.va + 4096 * 2 ^ r.logp))))

/-- TLB entries that an invalidation covers, gone; so are what the page-walk caches keep and walk faults of covered pages. -/
def State.dropTlbs (s : State) (fn : Nat) (r : InvReq) : State :=
  { s with tlbs := s.tlbs.filter (fun e => !(e.fn == fn && r.covers e.pasid e.va e.size)),
           walkFaults := s.walkFaults.filter (fun f => !(f.fn == fn && r.covers f.pasid (f.page * 4096) 4096)),
           dies := ⟨s.dies.l.map (fun x => (x.1, { x.2 with pwc := ⟨[]⟩ }))⟩ }

/-- Is a host write that came before an invalidation still to be performed? -/
def State.hostWrites (s : State) (r : InvReq) : Bool :=
  s.inFlight.any (fun e => match e with
    | .homeSliceAccess a => decide (200 ≤ a.core) && a.wr.isSome && decide (a.id < r.ids)
    | .kneadRecordRequest a => decide (200 ≤ a.core) && a.wr.isSome && decide (a.id < r.ids)
    | _ => false)

/-- Was a held item translated under an entry that an invalidation covers? -/
def Item.coveredBy (i : Item) (r : InvReq) : Bool :=
  match i.kind with
  | .store true _ _ _ vas => vas.any (fun x => r.covers r.pasid x.2.toNat 64)
  | .store false _ _ _ _ => false
  | .atom _ a => r.covers r.pasid a.ea.toNat 8
  | .copy _ => true
  | .launch .. => true
  | _ => false

/-- Has a core nothing left of what an invalidation waits for? -/
def State.invDone (s : State) (fn : Nat) (r : InvReq) : Bool :=
  s.cores.l.all (fun x =>
    let k := x.2
    !(s.partOf x.1 == fn && (r.kind == 1 || s.pasidOf x.1 == r.pasid)) ||
    (k.sent.all (fun y => decide (r.ids ≤ y.id)) && k.ports.all (fun y => decide (r.ids ≤ y.id)) &&
     k.items.all (fun i => !i.coveredBy r || (match Tab.findL r.seqs x.1 with
       | some n => decide (n ≤ i.seq)
       | none => true))))

/-- An INVCMD write (R256, R456). -/
def State.invalidate (s : State) (fn kind : Nat) (v : W64) : State :=
  if !s.booted then s else
  let a := (s.fn fn).invaddr.toNat
  let r : InvReq := { kind := kind, pasid := bitsAt v.toNat 32 20, va := a / 4096 * 4096, logp := min (a % 64) 36, ids := s.clk.ids,
                      seqs := s.cores.l.map (fun x => (x.1, x.2.seqNo)) }
  ((s.dropTlbs fn r).modFn fn (fun f => { f with inv := f.inv ++ [r] })).push (.invalidationComplete fn)

/-- INVALIDATE_PASID (R256). -/
def execInvalidatePasid (fn : Nat) (v : W64) (s : State) : Res := .next (s.invalidate fn 0 v)
/-- INVALIDATE_FUNCTION (R256). -/
def execInvalidateFunction (fn : Nat) (v : W64) (s : State) : Res := .next (s.invalidate fn 1 v)
/-- INVALIDATE_RANGE (R256). -/
def execInvalidateRange (fn : Nat) (v : W64) (s : State) : Res := .next (s.invalidate fn 2 v)

/-- INVALIDATION_COMPLETE (R256, R464): the host's writes of the tables have reached every die, so that no walk reads the old ones; then no entry is
left, and every access and held op translated under a covered one is performed or discarded. -/
def execInvalidationComplete (fn : Nat) (s : State) : Res :=
  match (s.fn fn).inv with
  | [] => .next s
  | r :: rest =>
    let to_ (s : State) (x : InvReq) : Res := .next ((s.modFn fn (fun f => { f with inv := x :: rest })).push (.invalidationComplete fn))
    if r.phase == 0 then (if s.hostWrites r then .next (s.push (.invalidationComplete fn)) else to_ s { r with phase := 1, clk := (s.die 0).app })
    else if r.phase == 1 then
      (if s.exported r.clk then to_ (s.dropTlbs fn r) { r with phase := 2, ids := s.clk.ids, seqs := s.cores.l.map (fun x => (x.1, x.2.seqNo)) }
       else .next (s.push (.invalidationComplete fn)))
    else if s.invDone fn r then
      let s1 := s.modFn fn (fun f => { f with inv := rest })
      .next (if rest.isEmpty then s1 else s1.push (.invalidationComplete fn))
    else .next (s.push (.invalidationComplete fn))

/-! ## Work queues (R457, R458) -/

/-- Does a notify page take a 64-byte packet now (R455, R458)? -/
def State.notifyOk (s : State) (q off : Nat) (data : Bytes) : Bool :=
  let x := s.wq q
  let fn := s.layout.now.wqOwner.getD q 0
  data.length == 64 && off == 0 && x.en && s.qmask fn != 0

/-- Is the ring full or the function paused? -/
def State.notifyWait (s : State) (q : Nat) : Bool :=
  let x := s.wq q
  bitsAt (s.fn (s.layout.now.wqOwner.getD q 0)).fctl.toNat 0 2 == 2 || decide (2 ^ x.logr ≤ (x.wpos + 2 ^ 32 - x.rpos) % 2 ^ 32)

/-- A packet accepted: its ring slot is written as an agent of D0 (R257). -/
def State.notifyAccept (s : State) (q : Nat) (data : Bytes) : State :=
  let x := s.wq q
  let s1 := s.devWrite (x.slot x.wpos) (data ++ leBytes 4 (bitsAt x.w0.toNat 44 20) ++ leBytes 4 x.wpos ++ List.replicate 56 0)
  s1.modWq q (fun y => { y with wpos := (y.wpos + 1) % 2 ^ 32, clks := y.clks ++ [(s1.die 0).app.getD 0 0] })

/-- A notify write dropped: counted, recorded, and told (R458, R462, R467). -/
def State.notifyDrop (s : State) (q : Nat) : State :=
  ((s.modWq q (fun x => { x with ndrop := (x.ndrop + 1) % 2 ^ 32 })).crecWrite q 0).setFerr (s.layout.now.wqOwner.getD q 0) 2

/-- NOTIFY_WRITE (R458). -/
def execNotifyWrite (q off : Nat) (data : Bytes) (s : State) : Res :=
  if !s.booted || 1024 ≤ q then .next s
  else if s.notifyOk q off data && !s.notifyWait q then .next (s.notifyAccept q data) else .next (s.notifyDrop q)

/-- NOTIFY_DEFERRABLE_WRITE (R458): successful, or to be retried while the ring is full or the function paused. -/
def execNotifyDeferrableWrite (q off : Nat) (data : Bytes) (s : State) : Res :=
  if !s.booted || 1024 ≤ q then .next s
  else if !s.notifyOk q off data then .next (s.notifyDrop q)
  else if s.notifyWait q then .next { s with msgs := s.msgs ++ [.dmw q false] }
  else let s1 := s.notifyAccept q data; .next { s1 with msgs := s1.msgs ++ [.dmw q true] }

/-- The RW fields of WQCFG word 0: PASID, LOGR, RVEC, RIE, DIE; and those that change while EN = 1. -/
def wq0Mask : W64 := 0xFFFFF00F07FF000E#64
def wq0Live : W64 := 0xFFFFF00007FF0008#64

/-- Word 0 of a queue's configuration written by its owner (R457). -/
def State.wq0Write (s : State) (fn q : Nat) (v : W64) : State :=
  let x := s.wq q
  if x.en then
    let w := (x.w0 &&& ~~~wq0Live) ||| (v &&& wq0Live)
    if v.getLsbD 0 then s.modWq q (fun y => { y with w0 := w })
    else s.modWq q (fun y => { y with w0 := w &&& ~~~(1#64), rpos := y.wpos, clks := [] })
  else if v.getLsbD 0 then
    let lg := bitsAt v.toNat 32 4
    if 1 ≤ lg && lg ≤ 12 && s.partOnDie fn (bitsAt v.toNat 1 2) then
      s.modWq q (fun y => { y with w0 := (v &&& wq0Mask) ||| 1, rpos := 0, wpos := 0, nref := 0, clks := [] })
    else s
  else s.modWq q (fun y => { y with w0 := v &&& wq0Mask })

/-- WQCFG_WRITE (R457): by the owner only; while EN = 1 the ring and the record keep their places. -/
def execWqcfgWrite (fn q word : Nat) (v : W64) (s : State) : Res :=
  if !s.booted || 1024 ≤ q || s.layout.now.wqOwner.getD q 0 != fn then .next s
  else if word == 0 then .next (s.wq0Write fn q v)
  else if (s.wq q).en then .next s
  else if word == 1 then .next (s.modWq q (fun x => { x with ring := v &&& 0x000FFFFFFFFFFF80#64 }))
  else if word == 2 then .next (s.modWq q (fun x => { x with crec := v &&& 0x000FFFFFFFFFFFC0#64 }))
  else .next s

/-! ## The aperture (R454) -/

/-- A host access at a PA, as an agent of D0 (R257): one line of it at a time. -/
def State.hostAccess (s : State) (fn off pa : Nat) (len : Nat) (wr : Option Bytes) : State :=
  let (id, s1) := s.newId
  s1.push (.homeSliceAccess { die := 0, core := 200 + fn, id := id, va := w64 pa, pa := pa, len := len, wr := wr.map (cellsAt pa), l1 := false, pc := 0, slot := 7, reply := .host fn off })

/-- Does a range overlap a channel reserve (R278)? -/
def State.inReserve (s : State) (a n : Nat) : Bool :=
  (List.range 16).any (fun p => let y := s.part p; y.resTotal != 0 && overlaps a n (y.resBase * 2 ^ 20) (y.resTotal * 2 ^ 20))

/-- The pieces of a run by line: offset and length. -/
def linePieces (a n : Nat) : List (Nat × Nat) :=
  (linesOf (cellsAt a (List.replicate n 0))).map (fun l => (max (64 * l) a - a, min (64 * l + 64) (a + n) - max (64 * l) a))

/-- APERTURE_ACCESS (R454): within the window it reaches HBM; beyond it, or in a reserve (R278), a read completes as Unsupported Request and a
write is dropped. -/
def execApertureAccess (fn off : Nat) (len : Nat) (wr : Option Bytes) (s : State) : Res :=
  if !s.booted then .next s else
  let w := if s.qmask fn == 0 then (0, 0) else s.layout.now.hbm.getD fn (0, 0)
  let n := match wr with
    | some b => b.length
    | none => len
  if w.2 < off + n || s.inReserve (w.1 + off) n then .next (if wr.isSome then s else { s with msgs := s.msgs ++ [.read fn off none] })
  else .next ((linePieces (w.1 + off) n).foldl (fun s p => s.hostAccess fn (off + p.1) (w.1 + off + p.1) p.2 (wr.map (fun b => (b.drop p.1).take p.2))) s)

/-! ## Frames, deadlines, attestation -/

/-- FRMADD (R408, R456). -/
def execFrmadd (fn : Nat) (v : W64) (s : State) : Res :=
  .next (if s.booted then s.modPart fn (fun p => { p with frames := p.frames ++ [bitsAt v.toNat 12 40], frmTotal := p.frmTotal + 1 }) else s)

/-- A deadline record posted by the hypervisor (R410, R412): BUSY until its vacancy, then its result (R456). -/
def State.peelrec (s : State) (fn : Nat) (v : W64) (part : Bool) : State :=
  let r := s.devRead (bitsAt v.toNat 6 46 * 64) 64
  match s.post r fn none (some fn) part with
  | (s1, some st) => s1.modFn fn (fun f => { f with peelRes := w64 st })
  | (s1, none) => s1.modFn fn (fun f => { f with peelBusy := f.peelBusy + 1 })

/-- PEELREC_POST (R412). -/
def execPeelrecPost (fn : Nat) (v : W64) (s : State) : Res :=
  if !s.booted then .next s else s.devReads fn (.peelrecPost fn v) [(bitsAt v.toNat 6 46 * 64, 64)] (fun s => .next (s.peelrec fn v false))
/-- PEELREC_PARTITION_EVICTION (R412, R425). -/
def execPeelrecPartitionEviction (fn : Nat) (v : W64) (s : State) : Res :=
  if !s.booted then .next s else s.devReads fn (.peelrecPartitionEviction fn v) [(bitsAt v.toNat 6 46 * 64, 64)] (fun s => .next (s.peelrec fn v true))

/-- ATTREQ (R470). -/
def execAttreq (fn : Nat) (v : W64) (s : State) : Res :=
  if !s.booted then .next s
  else if (s.fn fn).attBusy.isSome then .next (s.modFn fn (fun f => { f with attStatus := 2 }))
  else s.devReads fn (.attreq fn v) [(bitsAt v.toNat 6 46 * 64, 64)] (fun s =>
    let r := s.devRead (bitsAt v.toNat 6 46 * 64) 64
    let pa := fieldAt r 0x20 8
    if pa % 64 != 0 || (r.drop 0x28).any (· != 0) then .next (s.modFn fn (fun f => { f with attStatus := 1 }))
    else .next ((s.modFn fn (fun f => { f with attBusy := some (pa, r.take 32) })).push (.attestationComplete fn)))

/-- The signed part of a report (R470). -/
def State.reportBody (s : State) (fn : Nat) (nonce : Bytes) : Bytes :=
  leBytes 4 0x50525441 ++ leBytes 2 1 ++ leBytes 2 fn ++ nonce ++ leBytes 8 s.cyc ++ leBytes 2 s.layout.gen ++ leBytes 2 (s.qmask fn) ++ leBytes 2 (s.fn fn).rgen ++
  List.replicate 10 0 ++ (List.range 192).map Config.measure

/-- ATTESTATION_COMPLETE (R470): the report is written, and BUSY clears. -/
def execAttestationComplete (fn : Nat) (s : State) : Res :=
  match (s.fn fn).attBusy with
  | none => .next s
  | some (pa, nonce) =>
    let b := s.reportBody fn nonce
    .next ((s.devWrite pa (b ++ (List.range (64 + 3309)).map (Config.sign b))).modFn fn (fun f => { f with attBusy := none, attStatus := 0 }))

/-! ## Function registers (R456, R457, R475, R491) -/

/-- Is a channel of a partition open (R456)? -/
def State.chanOpenFor (s : State) (p : Nat) : Bool := s.dies.l.any (fun d => d.2.chans.l.any (fun c => c.2.open_ && c.2.part == p))

/-- The RW fields of a word of a fabric group entry (R475). -/
def fgrpMask (word : Nat) : W64 := if word == 0 then 0xFFFF0F0FF0E30003#64 else 0xFFF#64

/-- A word of the MSI-X table written: the whole word, or its upper half (R456). -/
def State.msixWrite (s : State) (fn off : Nat) (v : W64) : State :=
  let i := (off - 0x10000) / 8
  let f := s.fn fn
  let old := (f.msixWord i).toNat
  let new := if off % 8 == 0 then v.toNat else old % 2 ^ 32 + v.toNat % 2 ^ 32 * 2 ^ 32
  if i % 2 == 0 then s.modFn fn (fun f => { f with msix := f.msix.set i (w64 (new / 4 * 4)) })
  else
    let w := new % 2 ^ 33
    let s1 := s.modFn fn (fun f => { f with msix := f.msix.set i (w64 w) })
    if f.pba.getLsbD (i / 2) && !w.testBit 32 then (s1.modFn fn (fun f => { f with pba := f.pba &&& ~~~(w64 (2 ^ (i / 2))) })).signal fn (i / 2) else s1

/-- REGISTER_WRITE (R6, R456): a register's RW fields take the value, W1C bits clear, RO fields stay; a register with a behaviour of its own has
it. Accesses that are not aligned act only on the MSI-X table. -/
def execRegisterWrite (fn off : Nat) (v : W64) (s : State) : Res :=
  let set (g : Fn → Fn) : Res := .next (s.modFn fn g)
  if !s.booted || 16 ≤ fn then .next s
  else if 0x10000 ≤ off then .next (if off < 0x10400 && off % 4 == 0 then s.msixWrite fn off v else s)
  else if off % 8 != 0 then .next s
  else if 0x8000 ≤ off then execWqcfgWrite fn ((off - 0x8000) / 32) ((off - 0x8000) % 32 / 8) v s
  else if 0x1000 ≤ off then
    (if off < 0x1400 then set (fun f => { f with fgrp := f.fgrp.set ((off - 0x1000) / 8) (v &&& fgrpMask ((off - 0x1000) / 8 % 2)) }) else .next s)
  else match off with
    | 0x008 => execFctlWrite fn v s
    | 0x010 => set (fun f => { f with s2root := v &&& 0x000FFFFFFFFFF001#64 })
    | 0x018 => set (fun f => { f with pastab := v &&& 0x000FFFFFFFFFF01F#64 })
    | 0x020 => (match bitsAt v.toNat 0 2 with
      | 0 => execInvalidatePasid fn v s
      | 1 => execInvalidateFunction fn v s
      | 2 => execInvalidateRange fn v s
      | _ => .next s)
    | 0x028 => set (fun f => { f with invaddr := v &&& 0xFFFFFFFFFFFFF03F#64 })
    | 0x038 => .next (s.modPart fn (fun p => { p with resBase := bitsAt v.toNat 32 32, resTotal := if s.chanOpenFor fn then p.resTotal else bitsAt v.toNat 16 16 }))
    | 0x040 => execFrmadd fn v s
    | 0x048 => set (fun f => { f with fence := v &&& 0x000FFFFFFFFF8001#64 })
    | 0x050 => if v.getLsbD 0 then execPeelrecPartitionEviction fn v s else execPeelrecPost fn v s
    | 0x060 => set (fun f => { f with irt := v &&& 0x000FFFFFFFFFF00F#64 })
    | 0x068 => set (fun f => { f with pendReg := v &&& 0x000FFFFFFFFFF000#64 })
    | 0x070 => set (fun f => { f with ferr := f.ferr &&& ~~~v })
    | 0x080 => execAttreq fn v s
    | 0x098 => if v.getLsbD 0 then execSchedulerGo fn v s else set (fun f => { f with sched := (v &&& 0x0000FFFFFFFFFFFC#64) ||| (f.sched &&& 1) })
    | _ => .next s

/-- What the host reads of a function's registers (R456, R457, R475, R491), from an aligned offset; an aligned 4-byte read at the upper half of a word
of the MSI-X table or PBA gives that half. Every other offset, and an access that is not aligned, reads 0. -/
def State.fnRead (s : State) (fn off : Nat) : W64 :=
  let f := s.fn fn
  let q := (off - 0x8000) / 32
  let x := s.wq q
  if 16 ≤ fn then 0
  else if 0x10000 ≤ off && off % 4 == 0 then
    w64 ((if off < 0x10400 then f.msixWord ((off - 0x10000) / 8) else if off / 8 == 0x10800 / 8 then f.pba else 0).toNat / 2 ^ (off % 8 * 8))
  else if off % 8 != 0 then 0
  else if 0x8000 ≤ off && off < 0x10000 then
    (if s.layout.now.wqOwner.getD q 0 != fn then 0
     else match off % 32 / 8 with
      | 0 => x.w0
      | 1 => x.ring
      | 2 => x.crec
      | _ => w64 (x.rpos * 2 ^ 32 + x.wpos))
  else if 0x1000 ≤ off && off < 0x1400 then f.fgrp.get ((off - 0x1000) / 8) 0
  else match off with
    | 0x000 => w64 (s.qmask fn * 2 ^ 32 + f.rgen * 2 ^ 16 + bitsAt f.fctl.toNat 0 2)
    | 0x008 => f.fctl
    | 0x010 => f.s2root
    | 0x018 => f.pastab
    | 0x028 => f.invaddr
    | 0x030 => if f.inv.isEmpty then 0 else 1
    | 0x038 => w64 ((s.part fn).resBase * 2 ^ 32 + (s.part fn).resTotal * 2 ^ 16)
    | 0x048 => f.fence
    | 0x058 => w64 ((if f.peelBusy == 0 then 0 else 2 ^ 63) + f.peelRes.toNat)
    | 0x060 => f.irt
    | 0x068 => f.pendReg
    | 0x070 => f.ferr
    | 0x078 => w64 (f.nidrop * 2 ^ 48 + f.fgtag * 2 ^ 32 + f.rcause)
    | 0x088 => w64 (f.attStatus * 256 + (if f.attBusy.isSome then 1 else 0))
    | 0x090 => Config.fabid.setWidth 64
    | 0x098 => f.sched
    | 0x0A0 => w64 f.dies
    | _ => 0

/-- What the host reads of a queue's notify page (R458). -/
def State.notifyRead (s : State) (q off : Nat) : W64 :=
  if off == 0 && q < 1024 then w64 ((s.wq q).rpos * 2 ^ 32 + (s.wq q).wpos) else 0

/-! ## The endpoint (R453) -/

/-- Features of a PCIe endpoint that the rule names. -/
inductive PcieFeature where
  | pcie | ari | msix | aer | flr | deferrableWrite | tags10 | sriov | ats | pri | pasid | atomicOps | relaxedOrdering | idOrdering | noSnoop
  deriving DecidableEq, Repr

/-- Is a feature in configuration space? -/
def PcieFeature.present : PcieFeature → Bool
  | .pcie | .ari | .msix | .aer | .flr | .deferrableWrite | .tags10 => true
  | .sriov | .ats | .pri | .pasid | .atomicOps | .relaxedOrdering | .idOrdering | .noSnoop => false

/-- Bytes of a base address register pair: BAR0, BAR2, BAR4. -/
def barSize (bar : Nat) : Nat := match bar with
  | 0 => 4 * 2 ^ 20
  | 2 => 128 * 2 ^ 10
  | 4 => 2 ^ 40
  | _ => 0

/-- Entries of the MSI-X table; the largest payload and read request. -/
def msixEntries : Nat := 64
def maxPayload : Nat := 512
def maxReadRequest : Nat := 4096

/-- A doubleword of a function's configuration space, presented whether or not its partition holds a quadrant (R455): the identity, in the PCI header's
places (log 108); none for a function that is not there. -/
def cfgRead (fn dw : Nat) : Option (BitVec 32) :=
  if 16 ≤ fn then none
  else some (match dw with
    | 0 => 0x51041E57#32
    | 2 => 0x12000001#32
    | 11 => (Config.cfgWord fn 11 &&& 0xFFFF0000#32) ||| 0x1E57#32
    | _ => Config.cfgWord fn dw)

/-- The host bus address of a system-range PA (R453). -/
def hostBusAddr (pa : Nat) : Nat := pa - sysBase

end Sys2Proof.Machine
end

