-- ==== Sys2Proof/Machine/Dispatch.lean ====
section
/-! DEFINITION. One arm per instruction: each calls its meaning. -/
namespace Sys2Proof.Machine

def exec (i : Instr) (s : State) : Host.Outcome State Fault Refusal :=
  match i with
  | .add o => Sys2Proof.Machine.execAdd o s
  | .sub o => Sys2Proof.Machine.execSub o s
  | .and o => Sys2Proof.Machine.execAnd o s
  | .or o => Sys2Proof.Machine.execOr o s
  | .xor o => Sys2Proof.Machine.execXor o s
  | .shl o => Sys2Proof.Machine.execShl o s
  | .shr o => Sys2Proof.Machine.execShr o s
  | .sar o => Sys2Proof.Machine.execSar o s
  | .mul o => Sys2Proof.Machine.execMul o s
  | .mulh o => Sys2Proof.Machine.execMulh o s
  | .mulhz o => Sys2Proof.Machine.execMulhz o s
  | .div o => Sys2Proof.Machine.execDiv o s
  | .divz o => Sys2Proof.Machine.execDivz o s
  | .rem o => Sys2Proof.Machine.execRem o s
  | .remz o => Sys2Proof.Machine.execRemz o s
  | .min o => Sys2Proof.Machine.execMin o s
  | .max o => Sys2Proof.Machine.execMax o s
  | .minz o => Sys2Proof.Machine.execMinz o s
  | .maxz o => Sys2Proof.Machine.execMaxz o s
  | .sel o => Sys2Proof.Machine.execSel o s
  | .bcnt o => Sys2Proof.Machine.execBcnt o s
  | .clz o => Sys2Proof.Machine.execClz o s
  | .ctz o => Sys2Proof.Machine.execCtz o s
  | .cmpeq o => Sys2Proof.Machine.execCmpeq o s
  | .cmpne o => Sys2Proof.Machine.execCmpne o s
  | .cmplt o => Sys2Proof.Machine.execCmplt o s
  | .cmple o => Sys2Proof.Machine.execCmple o s
  | .cmpltz o => Sys2Proof.Machine.execCmpltz o s
  | .cmplez o => Sys2Proof.Machine.execCmplez o s
  | .addi o => Sys2Proof.Machine.execAddi o s
  | .addiLimm o => Sys2Proof.Machine.execAddiLimm o s
  | .andi o => Sys2Proof.Machine.execAndi o s
  | .andiLimm o => Sys2Proof.Machine.execAndiLimm o s
  | .ori o => Sys2Proof.Machine.execOri o s
  | .oriLimm o => Sys2Proof.Machine.execOriLimm o s
  | .xori o => Sys2Proof.Machine.execXori o s
  | .xoriLimm o => Sys2Proof.Machine.execXoriLimm o s
  | .shli o => Sys2Proof.Machine.execShli o s
  | .shliLimm o => Sys2Proof.Machine.execShliLimm o s
  | .shri o => Sys2Proof.Machine.execShri o s
  | .shriLimm o => Sys2Proof.Machine.execShriLimm o s
  | .sari o => Sys2Proof.Machine.execSari o s
  | .sariLimm o => Sys2Proof.Machine.execSariLimm o s
  | .muli o => Sys2Proof.Machine.execMuli o s
  | .muliLimm o => Sys2Proof.Machine.execMuliLimm o s
  | .movl d imm => Sys2Proof.Machine.execMovl d imm s
  | .movlLimm d imm => Sys2Proof.Machine.execMovlLimm d imm s
  | .movh o => Sys2Proof.Machine.execMovh o s
  | .movhLimm o => Sys2Proof.Machine.execMovhLimm o s
  | .cmpeqi o => Sys2Proof.Machine.execCmpeqi o s
  | .cmpeqiLimm o => Sys2Proof.Machine.execCmpeqiLimm o s
  | .cmplti o => Sys2Proof.Machine.execCmplti o s
  | .cmpltiLimm o => Sys2Proof.Machine.execCmpltiLimm o s
  | .ldg o => Sys2Proof.Machine.execLdg o s
  | .ldgOff32 o => Sys2Proof.Machine.execLdgOff32 o s
  | .stg o => Sys2Proof.Machine.execStg o s
  | .stgOff32 o => Sys2Proof.Machine.execStgOff32 o s
  | .lds o => Sys2Proof.Machine.execLds o s
  | .ldsOff32 o => Sys2Proof.Machine.execLdsOff32 o s
  | .sts o => Sys2Proof.Machine.execSts o s
  | .stsOff32 o => Sys2Proof.Machine.execStsOff32 o s
  | .ldf o => Sys2Proof.Machine.execLdf o s
  | .ldfOff32 o => Sys2Proof.Machine.execLdfOff32 o s
  | .ste o => Sys2Proof.Machine.execSte o s
  | .steOff32 o => Sys2Proof.Machine.execSteOff32 o s
  | .ldff o => Sys2Proof.Machine.execLdff o s
  | .ldffOff32 o => Sys2Proof.Machine.execLdffOff32 o s
  | .atom o => Sys2Proof.Machine.execAtom o s
  | .atomg o => Sys2Proof.Machine.execAtomg o s
  | .radd o => Sys2Proof.Machine.execRadd o s
  | .br o => Sys2Proof.Machine.execBr o s
  | .call o => Sys2Proof.Machine.execCall o s
  | .jr ba a g => Sys2Proof.Machine.execJr ba a g s
  | .loop o => Sys2Proof.Machine.execLoop o s
  | .launch d ba a g => Sys2Proof.Machine.execLaunch d ba a g s
  | .nop => Sys2Proof.Machine.execNop s
  | .halt => Sys2Proof.Machine.execHalt s
  | .trap n => Sys2Proof.Machine.execTrap n s
  | .eret t => Sys2Proof.Machine.execEret t s
  | .sysr d f => Sys2Proof.Machine.execSysr d f s
  | .sysw a f => Sys2Proof.Machine.execSysw a f s
  | .fence r c => Sys2Proof.Machine.execFence r c s
  | .sync => Sys2Proof.Machine.execSync s
  | .waitc p c => Sys2Proof.Machine.execWaitc p c s
  | .waitcPoll d c => Sys2Proof.Machine.execWaitcPoll d c s
  | .ctrinit a m c => Sys2Proof.Machine.execCtrinit a m c s
  | .ctrpost a c => Sys2Proof.Machine.execCtrpost a c s
  | .qcfg a q => Sys2Proof.Machine.execQcfg a q s
  | .qreset q => Sys2Proof.Machine.execQreset q s
  | .qsplice a q => Sys2Proof.Machine.execQsplice a q s
  | .qaccept a q => Sys2Proof.Machine.execQaccept a q s
  | .qunsplice q => Sys2Proof.Machine.execQunsplice q s
  | .qocc d q => Sys2Proof.Machine.execQocc d q s
  | .qrd d q => Sys2Proof.Machine.execQrd d q s
  | .qwr a q => Sys2Proof.Machine.execQwr a q s
  | .lset a l f => Sys2Proof.Machine.execLset a l f s
  | .lget d l f => Sys2Proof.Machine.execLget d l f s
  | .ldlay a l => Sys2Proof.Machine.execLdlay a l s
  | .stlay a l => Sys2Proof.Machine.execStlay a l s
  | .rtset a e => Sys2Proof.Machine.execRtset a e s
  | .rtclr e => Sys2Proof.Machine.execRtclr e s
  | .rtwm d e => Sys2Proof.Machine.execRtwm d e s
  | .pand d a b => Sys2Proof.Machine.execPand d a b s
  | .por d a b => Sys2Proof.Machine.execPor d a b s
  | .pxor d a b => Sys2Proof.Machine.execPxor d a b s
  | .pnot d a => Sys2Proof.Machine.execPnot d a s
  | .pmovs d a => Sys2Proof.Machine.execPmovs d a s
  | .pmovp d a => Sys2Proof.Machine.execPmovp d a s
  | .pseta d a => Sys2Proof.Machine.execPseta d a s
  | .chopen d a => Sys2Proof.Machine.execChopen d a s
  | .chclose d a f => Sys2Proof.Machine.execChclose d a f s
  | .chstat d a n => Sys2Proof.Machine.execChstat d a n s
  | .fencerec d a => Sys2Proof.Machine.execFencerec d a s
  | .peelpost d a => Sys2Proof.Machine.execPeelpost d a s
  | .wqtake d a any wait => Sys2Proof.Machine.execWqtake d a any wait s
  | .knbind d a h => Sys2Proof.Machine.execKnbind d a h s
  | .knload d a n h => Sys2Proof.Machine.execKnload d a n h s
  | .kndict d a h => Sys2Proof.Machine.execKndict d a h s
  | .knunbind d a x h => Sys2Proof.Machine.execKnunbind d a x h s
  | .vadd o => Sys2Proof.Machine.execVadd o s
  | .vsub o => Sys2Proof.Machine.execVsub o s
  | .vmul o => Sys2Proof.Machine.execVmul o s
  | .vmin o => Sys2Proof.Machine.execVmin o s
  | .vmax o => Sys2Proof.Machine.execVmax o s
  | .vfma o c => Sys2Proof.Machine.execVfma o c s
  | .vfms o c => Sys2Proof.Machine.execVfms o c s
  | .vabs o => Sys2Proof.Machine.execVabs o s
  | .vneg o => Sys2Proof.Machine.execVneg o s
  | .vrcp o => Sys2Proof.Machine.execVrcp o s
  | .vrsq o => Sys2Proof.Machine.execVrsq o s
  | .vexp2 o => Sys2Proof.Machine.execVexp2 o s
  | .vlog2 o => Sys2Proof.Machine.execVlog2 o s
  | .vsig o => Sys2Proof.Machine.execVsig o s
  | .vtanh o => Sys2Proof.Machine.execVtanh o s
  | .viadd o => Sys2Proof.Machine.execViadd o s
  | .visub o => Sys2Proof.Machine.execVisub o s
  | .vimul o => Sys2Proof.Machine.execVimul o s
  | .vimin o => Sys2Proof.Machine.execVimin o s
  | .vimax o => Sys2Proof.Machine.execVimax o s
  | .vand o => Sys2Proof.Machine.execVand o s
  | .vor o => Sys2Proof.Machine.execVor o s
  | .vxor o => Sys2Proof.Machine.execVxor o s
  | .vshl o => Sys2Proof.Machine.execVshl o s
  | .vshr o => Sys2Proof.Machine.execVshr o s
  | .vsar o => Sys2Proof.Machine.execVsar o s
  | .viadds o => Sys2Proof.Machine.execViadds o s
  | .vcmpeq p a b => Sys2Proof.Machine.execVcmpeq p a b s
  | .vcmplt p a b => Sys2Proof.Machine.execVcmplt p a b s
  | .vcmple p a b => Sys2Proof.Machine.execVcmple p a b s
  | .vsel o => Sys2Proof.Machine.execVsel o s
  | .vmov o => Sys2Proof.Machine.execVmov o s
  | .vcvtz o => Sys2Proof.Machine.execVcvtz o s
  | .vpack o => Sys2Proof.Machine.execVpack o s
  | .vunpk o => Sys2Proof.Machine.execVunpk o s
  | .vbcast o => Sys2Proof.Machine.execVbcast o s
  | .viota o => Sys2Proof.Machine.execViota o s
  | .vshuf o => Sys2Proof.Machine.execVshuf o s
  | .vrot o => Sys2Proof.Machine.execVrot o s
  | .vrsum o => Sys2Proof.Machine.execVrsum o s
  | .vrmax o => Sys2Proof.Machine.execVrmax o s
  | .vrmin o => Sys2Proof.Machine.execVrmin o s
  | .vlds o => Sys2Proof.Machine.execVlds o s
  | .vsts o => Sys2Proof.Machine.execVsts o s
  | .vgath o => Sys2Proof.Machine.execVgath o s
  | .vscat o => Sys2Proof.Machine.execVscat o s
  | .vracc o => Sys2Proof.Machine.execVracc o s
  | .vwacc o => Sys2Proof.Machine.execVwacc o s
  | .mldb a b sg => Sys2Proof.Machine.execMldb a b sg s
  | .mldbw bs r t b sg => Sys2Proof.Machine.execMldbw bs r t b sg s
  | .mmul a c b sg => Sys2Proof.Machine.execMmul a c b sg s
  | .mmac a c b sg => Sys2Proof.Machine.execMmac a c b sg s
  | .mzero c sg => Sys2Proof.Machine.execMzero c sg s
  | .msetx x c sg => Sys2Proof.Machine.execMsetx x c sg s
  | .mscl x c sg => Sys2Proof.Machine.execMscl x c sg s
  | .mrdout q c sg => Sys2Proof.Machine.execMrdout q c sg s
  | .mcvt a q sg => Sys2Proof.Machine.execMcvt a q sg s
  | .mreq a q t sg => Sys2Proof.Machine.execMreq a q t sg s
  | .mtrn a q sg => Sys2Proof.Machine.execMtrn a q sg s
  | .macccp m c sg => Sys2Proof.Machine.execMacccp m c sg s
  | .cldq o => Sys2Proof.Machine.execCldq o s
  | .cstq o => Sys2Proof.Machine.execCstq o s
  | .clds o => Sys2Proof.Machine.execClds o s
  | .csts o => Sys2Proof.Machine.execCsts o s
  | .ccpy o => Sys2Proof.Machine.execCcpy o s
  | .cred o => Sys2Proof.Machine.execCred o s
  | .crwr o => Sys2Proof.Machine.execCrwr o s
  | .chwr l q sr rel sg => Sys2Proof.Machine.execChwr l q sr rel sg s
  | .chrd l q sr acq sg => Sys2Proof.Machine.execChrd l q sr acq sg s
  | .cpref o => Sys2Proof.Machine.execCpref o s
  | .cws o => Sys2Proof.Machine.execCws o s
  | .cfred l q sr c rel np sg => Sys2Proof.Machine.execCfred l q sr c rel np sg s
  | .cbcast o => Sys2Proof.Machine.execCbcast o s
  | .czero o => Sys2Proof.Machine.execCzero o s
  | .knNop at_ w => Sys2Proof.Machine.execKnNop at_ w s
  | .knPass at_ w => Sys2Proof.Machine.execKnPass at_ w s
  | .knAdd at_ w => Sys2Proof.Machine.execKnAdd at_ w s
  | .knSub at_ w => Sys2Proof.Machine.execKnSub at_ w s
  | .knMul at_ w => Sys2Proof.Machine.execKnMul at_ w s
  | .knAdds at_ w => Sys2Proof.Machine.execKnAdds at_ w s
  | .knAnd at_ w => Sys2Proof.Machine.execKnAnd at_ w s
  | .knOr at_ w => Sys2Proof.Machine.execKnOr at_ w s
  | .knXor at_ w => Sys2Proof.Machine.execKnXor at_ w s
  | .knShl at_ w => Sys2Proof.Machine.execKnShl at_ w s
  | .knShr at_ w => Sys2Proof.Machine.execKnShr at_ w s
  | .knSar at_ w => Sys2Proof.Machine.execKnSar at_ w s
  | .knMin at_ w => Sys2Proof.Machine.execKnMin at_ w s
  | .knMax at_ w => Sys2Proof.Machine.execKnMax at_ w s
  | .knSel at_ w => Sys2Proof.Machine.execKnSel at_ w s
  | .knCmpeq at_ w => Sys2Proof.Machine.execKnCmpeq at_ w s
  | .knCmplt at_ w => Sys2Proof.Machine.execKnCmplt at_ w s
  | .knLutl at_ w => Sys2Proof.Machine.execKnLutl at_ w s
  | .knLuth at_ w => Sys2Proof.Machine.execKnLuth at_ w s
  | .knLutn at_ w => Sys2Proof.Machine.execKnLutn at_ w s
  | .knPerm at_ w => Sys2Proof.Machine.execKnPerm at_ w s
  | .knFcvt at_ w => Sys2Proof.Machine.execKnFcvt at_ w s
  | .knFadd at_ w => Sys2Proof.Machine.execKnFadd at_ w s
  | .knFmul at_ w => Sys2Proof.Machine.execKnFmul at_ w s
  | .knFmax at_ w => Sys2Proof.Machine.execKnFmax at_ w s
  | .knTake at_ w => Sys2Proof.Machine.execKnTake at_ w s
  | .wideBundleIssue core => Sys2Proof.Machine.execWideBundleIssue core s
  | .singleOpBundleIssue core => Sys2Proof.Machine.execSingleOpBundleIssue core s
  | .checkpointBundle core => Sys2Proof.Machine.execCheckpointBundle core s
  | .operatorBoundaryBundle core => Sys2Proof.Machine.execOperatorBoundaryBundle core s
  | .queueEntryArrival a => Sys2Proof.Machine.execQueueEntryArrival a s
  | .scalarResultArrival core tk v => Sys2Proof.Machine.execScalarResultArrival core tk v s
  | .atomicResultArrival core tk v clk => Sys2Proof.Machine.execAtomicResultArrival core tk v clk s
  | .rollbackComplete core => Sys2Proof.Machine.execRollbackComplete core s
  | .asyncFaultTaken core => Sys2Proof.Machine.execAsyncFaultTaken core s
  | .remoteAtomRejection core r => Sys2Proof.Machine.execRemoteAtomRejection core r s
  | .abandonmentReport die => Sys2Proof.Machine.execAbandonmentReport die s
  | .hangWatchdog core => Sys2Proof.Machine.execHangWatchdog core s
  | .operatorBoundExceeded core => Sys2Proof.Machine.execOperatorBoundExceeded core s
  | .machineRollback core => Sys2Proof.Machine.execMachineRollback core s
  | .singleOpErrorRetry core => Sys2Proof.Machine.execSingleOpErrorRetry core s
  | .correctableError word => Sys2Proof.Machine.execCorrectableError word s
  | .lossOfStoredState what => Sys2Proof.Machine.execLossOfStoredState what s
  | .partitionReset part cause failed => Sys2Proof.Machine.execPartitionReset part cause failed s
  | .gangPlacement die => Sys2Proof.Machine.execGangPlacement die s
  | .scoreboardAgeLimit die e => Sys2Proof.Machine.execScoreboardAgeLimit die e s
  | .dependenceSatisfied die e k => Sys2Proof.Machine.execDependenceSatisfied die e k s
  | .workItemStart cores => Sys2Proof.Machine.execWorkItemStart cores s
  | .workItemEnd core => Sys2Proof.Machine.execWorkItemEnd core s
  | .coreFree core => Sys2Proof.Machine.execCoreFree core s
  | .launchSubmissionAccept core => Sys2Proof.Machine.execLaunchSubmissionAccept core s
  | .syncLineComplete die line => Sys2Proof.Machine.execSyncLineComplete die line s
  | .syncRestart die line => Sys2Proof.Machine.execSyncRestart die line s
  | .spliceAcceptanceArrival m => Sys2Proof.Machine.execSpliceAcceptanceArrival m s
  | .spliceCreditArrival m => Sys2Proof.Machine.execSpliceCreditArrival m s
  | .spliceCloseArrival m => Sys2Proof.Machine.execSpliceCloseArrival m s
  | .spliceEntryShip core q => Sys2Proof.Machine.execSpliceEntryShip core q s
  | .spliceEntryDelivery m data => Sys2Proof.Machine.execSpliceEntryDelivery m data s
  | .spliceCloseSend core q => Sys2Proof.Machine.execSpliceCloseSend core q s
  | .exportedWriteApply die w => Sys2Proof.Machine.execExportedWriteApply die w s
  | .directedPacketPerform p => Sys2Proof.Machine.execDirectedPacketPerform p s
  | .homeSliceAccess a => Sys2Proof.Machine.execHomeSliceAccess a s
  | .homeSliceAtomic a => Sys2Proof.Machine.execHomeSliceAtomic a s
  | .remoteAtomApply a => Sys2Proof.Machine.execRemoteAtomApply a s
  | .releaseComplete core => Sys2Proof.Machine.execReleaseComplete core s
  | .pageWalkComplete w => Sys2Proof.Machine.execPageWalkComplete w s
  | .invalidationComplete fn => Sys2Proof.Machine.execInvalidationComplete fn s
  | .refreshWindowStart => Sys2Proof.Machine.execRefreshWindowStart s
  | .refreshWindowEnd => Sys2Proof.Machine.execRefreshWindowEnd s
  | .weightStoreWritePerform die => Sys2Proof.Machine.execWeightStoreWritePerform die s
  | .bankLoadComplete core bank => Sys2Proof.Machine.execBankLoadComplete core bank s
  | .bankComputeComplete core bank => Sys2Proof.Machine.execBankComputeComplete core bank s
  | .tileWriteComplete core tile => Sys2Proof.Machine.execTileWriteComplete core tile s
  | .repeatIterationStart core => Sys2Proof.Machine.execRepeatIterationStart core s
  | .copyCommandStart core id => Sys2Proof.Machine.execCopyCommandStart core id s
  | .copyDataReturn core id k => Sys2Proof.Machine.execCopyDataReturn core id k s
  | .copyCommandComplete core id => Sys2Proof.Machine.execCopyCommandComplete core id s
  | .counterPost p => Sys2Proof.Machine.execCounterPost p s
  | .remoteWriteDelivery w => Sys2Proof.Machine.execRemoteWriteDelivery w s
  | .broadcastDelivery w => Sys2Proof.Machine.execBroadcastDelivery w s
  | .channelAppend a => Sys2Proof.Machine.execChannelAppend a s
  | .channelDelivery d => Sys2Proof.Machine.execChannelDelivery d s
  | .spillRefill ch => Sys2Proof.Machine.execSpillRefill ch s
  | .channelReportArrival core ch r => Sys2Proof.Machine.execChannelReportArrival core ch r s
  | .channelCloseNotice core ch => Sys2Proof.Machine.execChannelCloseNotice core ch s
  | .prooferDetection part => Sys2Proof.Machine.execProoferDetection part s
  | .channelGrowth part ch lowest => Sys2Proof.Machine.execChannelGrowth part ch lowest s
  | .peelDecision post => Sys2Proof.Machine.execPeelDecision post s
  | .peelConversion group => Sys2Proof.Machine.execPeelConversion group s
  | .peelRunPark core => Sys2Proof.Machine.execPeelRunPark core s
  | .drainPoint core => Sys2Proof.Machine.execDrainPoint core s
  | .ckptSaveComplete core => Sys2Proof.Machine.execCkptSaveComplete core s
  | .discardComplete core => Sys2Proof.Machine.execDiscardComplete core s
  | .groupResumePlacement group => Sys2Proof.Machine.execGroupResumePlacement group s
  | .restoreComplete group => Sys2Proof.Machine.execRestoreComplete group s
  | .flitRoute arr col row port => Sys2Proof.Machine.execFlitRoute arr col row port s
  | .recordStart arr ent => Sys2Proof.Machine.execRecordStart arr ent s
  | .recordQuiescence arr ent col => Sys2Proof.Machine.execRecordQuiescence arr ent col s
  | .recordTimeLimit arr ent col => Sys2Proof.Machine.execRecordTimeLimit arr ent col s
  | .kneadRecordRequest a => Sys2Proof.Machine.execKneadRecordRequest a s
  | .kneadViewLineDelivery arr ent rcd data => Sys2Proof.Machine.execKneadViewLineDelivery arr ent rcd data s
  | .collectionWrite w => Sys2Proof.Machine.execCollectionWrite w s
  | .kneadWindowStart => Sys2Proof.Machine.execKneadWindowStart s
  | .kneadWindowEnd => Sys2Proof.Machine.execKneadWindowEnd s
  | .slotLoadComplete arr slot => Sys2Proof.Machine.execSlotLoadComplete arr slot s
  | .bindingActivate arr ent => Sys2Proof.Machine.execBindingActivate arr ent s
  | .bindingDrainComplete arr ent => Sys2Proof.Machine.execBindingDrainComplete arr ent s
  | .packetGrant unit port => Sys2Proof.Machine.execPacketGrant unit port s
  | .vcAgePromotion unit port => Sys2Proof.Machine.execVcAgePromotion unit port s
  | .laneGroupDrop die port => Sys2Proof.Machine.execLaneGroupDrop die port s
  | .tuinilFlitReceive port f => Sys2Proof.Machine.execTuinilFlitReceive port f s
  | .tuinilNakReceive port ack => Sys2Proof.Machine.execTuinilNakReceive port ack s
  | .tuinilLaneDrop port => Sys2Proof.Machine.execTuinilLaneDrop port s
  | .fabricResultDelivery p => Sys2Proof.Machine.execFabricResultDelivery p s
  | .fabricDoneArrival p => Sys2Proof.Machine.execFabricDoneArrival p s
  | .layoutShadowWrite l => Sys2Proof.Machine.execLayoutShadowWrite l s
  | .lgenWrite v => Sys2Proof.Machine.execLgenWrite v s
  | .layoutFlip => Sys2Proof.Machine.execLayoutFlip s
  | .mgpWatchdogReset => Sys2Proof.Machine.execMgpWatchdogReset s
  | .freqAnnounce island level => Sys2Proof.Machine.execFreqAnnounce island level s
  | .freqStep island => Sys2Proof.Machine.execFreqStep island s
  | .freqPauseEnd island => Sys2Proof.Machine.execFreqPauseEnd island s
  | .thermalLimit island temp => Sys2Proof.Machine.execThermalLimit island temp s
  | .thermalShutdown temp => Sys2Proof.Machine.execThermalShutdown temp s
  | .powerLoss => Sys2Proof.Machine.execPowerLoss s
  | .coldStart signed => Sys2Proof.Machine.execColdStart signed s
  | .schedulerGo fn v => Sys2Proof.Machine.execSchedulerGo fn v s
  | .functionLevelReset fn => Sys2Proof.Machine.execFunctionLevelReset fn s
  | .notifyWrite q off data => Sys2Proof.Machine.execNotifyWrite q off data s
  | .notifyDeferrableWrite q off data => Sys2Proof.Machine.execNotifyDeferrableWrite q off data s
  | .apertureAccess fn off len wr => Sys2Proof.Machine.execApertureAccess fn off len wr s
  | .wqcfgWrite fn q word v => Sys2Proof.Machine.execWqcfgWrite fn q word v s
  | .fctlWrite fn v => Sys2Proof.Machine.execFctlWrite fn v s
  | .invalidatePasid fn v => Sys2Proof.Machine.execInvalidatePasid fn v s
  | .invalidateFunction fn v => Sys2Proof.Machine.execInvalidateFunction fn v s
  | .invalidateRange fn v => Sys2Proof.Machine.execInvalidateRange fn v s
  | .frmadd fn v => Sys2Proof.Machine.execFrmadd fn v s
  | .peelrecPost fn v => Sys2Proof.Machine.execPeelrecPost fn v s
  | .peelrecPartitionEviction fn v => Sys2Proof.Machine.execPeelrecPartitionEviction fn v s
  | .attreq fn v => Sys2Proof.Machine.execAttreq fn v s
  | .attestationComplete fn => Sys2Proof.Machine.execAttestationComplete fn s
  | .interruptEvent fn vec rgen => Sys2Proof.Machine.execInterruptEvent fn vec rgen s
  | .registerWrite fn off v => Sys2Proof.Machine.execRegisterWrite fn off v s
  | .scquantWrite die v => Sys2Proof.Machine.execScquantWrite die v s
  | .hintWrite die v => Sys2Proof.Machine.execHintWrite die v s
  | .wqtakeWake die => Sys2Proof.Machine.execWqtakeWake die s
  | .hbmChannelFailure stack ch => Sys2Proof.Machine.execHbmChannelFailure stack ch s
  | .channelTableAnswer core slot => Sys2Proof.Machine.execChannelTableAnswer core slot s
  | .schedulerContextSaved die => Sys2Proof.Machine.execSchedulerContextSaved die s
  | .dieToDieLinkError die port cycles => Sys2Proof.Machine.execDieToDieLinkError die port cycles s
  | .msixVectorUnmask fn ent => Sys2Proof.Machine.execMsixVectorUnmask fn ent s

end Sys2Proof.Machine
end

