-- ==== Sys2Proof/Machine/EvRun.lean ====
section
/-! DEFINITION. An event in flight, or from outside, runs by the meaning that `exec` gives the same step. -/
namespace Sys2Proof.Machine

/-- The meaning of an event. -/
def runEv (e : Ev) (s : State) : Res :=
  match e with
  | .wideBundleIssue core => execWideBundleIssue core s
  | .singleOpBundleIssue core => execSingleOpBundleIssue core s
  | .checkpointBundle core => execCheckpointBundle core s
  | .operatorBoundaryBundle core => execOperatorBoundaryBundle core s
  | .queueEntryArrival a => execQueueEntryArrival a s
  | .scalarResultArrival core tk v => execScalarResultArrival core tk v s
  | .atomicResultArrival core tk v clk => execAtomicResultArrival core tk v clk s
  | .rollbackComplete core => execRollbackComplete core s
  | .asyncFaultTaken core => execAsyncFaultTaken core s
  | .remoteAtomRejection core r => execRemoteAtomRejection core r s
  | .abandonmentReport die => execAbandonmentReport die s
  | .hangWatchdog core => execHangWatchdog core s
  | .operatorBoundExceeded core => execOperatorBoundExceeded core s
  | .machineRollback core => execMachineRollback core s
  | .singleOpErrorRetry core => execSingleOpErrorRetry core s
  | .correctableError word => execCorrectableError word s
  | .lossOfStoredState what => execLossOfStoredState what s
  | .partitionReset part cause failed => execPartitionReset part cause failed s
  | .gangPlacement die => execGangPlacement die s
  | .scoreboardAgeLimit die e => execScoreboardAgeLimit die e s
  | .dependenceSatisfied die e k => execDependenceSatisfied die e k s
  | .workItemStart cores => execWorkItemStart cores s
  | .workItemEnd core => execWorkItemEnd core s
  | .coreFree core => execCoreFree core s
  | .launchSubmissionAccept core => execLaunchSubmissionAccept core s
  | .syncLineComplete die line => execSyncLineComplete die line s
  | .syncRestart die line => execSyncRestart die line s
  | .spliceAcceptanceArrival m => execSpliceAcceptanceArrival m s
  | .spliceCreditArrival m => execSpliceCreditArrival m s
  | .spliceCloseArrival m => execSpliceCloseArrival m s
  | .spliceEntryShip core q => execSpliceEntryShip core q s
  | .spliceEntryDelivery m data => execSpliceEntryDelivery m data s
  | .spliceCloseSend core q => execSpliceCloseSend core q s
  | .exportedWriteApply die w => execExportedWriteApply die w s
  | .directedPacketPerform p => execDirectedPacketPerform p s
  | .homeSliceAccess a => execHomeSliceAccess a s
  | .homeSliceAtomic a => execHomeSliceAtomic a s
  | .remoteAtomApply a => execRemoteAtomApply a s
  | .releaseComplete core => execReleaseComplete core s
  | .pageWalkComplete w => execPageWalkComplete w s
  | .invalidationComplete fn => execInvalidationComplete fn s
  | .refreshWindowStart => execRefreshWindowStart s
  | .refreshWindowEnd => execRefreshWindowEnd s
  | .weightStoreWritePerform die => execWeightStoreWritePerform die s
  | .bankLoadComplete core bank => execBankLoadComplete core bank s
  | .bankComputeComplete core bank => execBankComputeComplete core bank s
  | .tileWriteComplete core tile => execTileWriteComplete core tile s
  | .repeatIterationStart core => execRepeatIterationStart core s
  | .copyCommandStart core id => execCopyCommandStart core id s
  | .copyDataReturn core id k => execCopyDataReturn core id k s
  | .copyCommandComplete core id => execCopyCommandComplete core id s
  | .counterPost p => execCounterPost p s
  | .remoteWriteDelivery w => execRemoteWriteDelivery w s
  | .broadcastDelivery w => execBroadcastDelivery w s
  | .channelAppend a => execChannelAppend a s
  | .channelDelivery d => execChannelDelivery d s
  | .spillRefill ch => execSpillRefill ch s
  | .channelReportArrival core ch r => execChannelReportArrival core ch r s
  | .channelCloseNotice core ch => execChannelCloseNotice core ch s
  | .prooferDetection part => execProoferDetection part s
  | .channelGrowth part ch lowest => execChannelGrowth part ch lowest s
  | .peelDecision post => execPeelDecision post s
  | .peelConversion group => execPeelConversion group s
  | .peelRunPark core => execPeelRunPark core s
  | .drainPoint core => execDrainPoint core s
  | .ckptSaveComplete core => execCkptSaveComplete core s
  | .discardComplete core => execDiscardComplete core s
  | .groupResumePlacement group => execGroupResumePlacement group s
  | .restoreComplete group => execRestoreComplete group s
  | .flitRoute arr col row port => execFlitRoute arr col row port s
  | .recordStart arr ent => execRecordStart arr ent s
  | .recordQuiescence arr ent col => execRecordQuiescence arr ent col s
  | .recordTimeLimit arr ent col => execRecordTimeLimit arr ent col s
  | .kneadRecordRequest a => execKneadRecordRequest a s
  | .kneadViewLineDelivery arr ent rcd data => execKneadViewLineDelivery arr ent rcd data s
  | .collectionWrite w => execCollectionWrite w s
  | .kneadWindowStart => execKneadWindowStart s
  | .kneadWindowEnd => execKneadWindowEnd s
  | .slotLoadComplete arr slot => execSlotLoadComplete arr slot s
  | .bindingActivate arr ent => execBindingActivate arr ent s
  | .bindingDrainComplete arr ent => execBindingDrainComplete arr ent s
  | .packetGrant unit port => execPacketGrant unit port s
  | .vcAgePromotion unit port => execVcAgePromotion unit port s
  | .laneGroupDrop die port => execLaneGroupDrop die port s
  | .tuinilFlitReceive port f => execTuinilFlitReceive port f s
  | .tuinilNakReceive port ack => execTuinilNakReceive port ack s
  | .tuinilLaneDrop port => execTuinilLaneDrop port s
  | .fabricResultDelivery p => execFabricResultDelivery p s
  | .fabricDoneArrival p => execFabricDoneArrival p s
  | .layoutShadowWrite l => execLayoutShadowWrite l s
  | .lgenWrite v => execLgenWrite v s
  | .layoutFlip => execLayoutFlip s
  | .mgpWatchdogReset => execMgpWatchdogReset s
  | .freqAnnounce island level => execFreqAnnounce island level s
  | .freqStep island => execFreqStep island s
  | .freqPauseEnd island => execFreqPauseEnd island s
  | .thermalLimit island temp => execThermalLimit island temp s
  | .thermalShutdown temp => execThermalShutdown temp s
  | .powerLoss => execPowerLoss s
  | .coldStart signed => execColdStart signed s
  | .schedulerGo fn v => execSchedulerGo fn v s
  | .functionLevelReset fn => execFunctionLevelReset fn s
  | .notifyWrite q off data => execNotifyWrite q off data s
  | .notifyDeferrableWrite q off data => execNotifyDeferrableWrite q off data s
  | .apertureAccess fn off len wr => execApertureAccess fn off len wr s
  | .wqcfgWrite fn q word v => execWqcfgWrite fn q word v s
  | .fctlWrite fn v => execFctlWrite fn v s
  | .invalidatePasid fn v => execInvalidatePasid fn v s
  | .invalidateFunction fn v => execInvalidateFunction fn v s
  | .invalidateRange fn v => execInvalidateRange fn v s
  | .frmadd fn v => execFrmadd fn v s
  | .peelrecPost fn v => execPeelrecPost fn v s
  | .peelrecPartitionEviction fn v => execPeelrecPartitionEviction fn v s
  | .attreq fn v => execAttreq fn v s
  | .attestationComplete fn => execAttestationComplete fn s
  | .interruptEvent fn vec rgen => execInterruptEvent fn vec rgen s
  | .registerWrite fn off v => execRegisterWrite fn off v s
  | .scquantWrite die v => execScquantWrite die v s
  | .hintWrite die v => execHintWrite die v s
  | .wqtakeWake die => execWqtakeWake die s
  | .hbmChannelFailure stack ch => execHbmChannelFailure stack ch s
  | .channelTableAnswer core slot => execChannelTableAnswer core slot s
  | .schedulerContextSaved die => execSchedulerContextSaved die s
  | .dieToDieLinkError die port cycles => execDieToDieLinkError die port cycles s
  | .msixVectorUnmask fn ent => execMsixVectorUnmask fn ent s

end Sys2Proof.Machine
end

