-- ==== Sys2Proof/Machine/Sequence.lean ====
section
/-! DEFINITION. The order of steps (log 4): which step comes next, what the clock brings about, and the place a fetched word is put. -/
namespace Sys2Proof.Machine

/-! ## The clock -/

/-- Cores that the watchdog or the operator bound acts on now (R391, R392). -/
def State.coresDue (s : State) : List Ev :=
  s.cores.l.flatMap (fun x => (if s.overBound x.1 then [Ev.operatorBoundExceeded x.1] else []) ++ (if s.hung x.1 then [Ev.hangWatchdog x.1] else []))

/-- Events that the clock brings about in the present cycle. -/
def State.due (s : State) : List Ev :=
  let m := s.cyc % 8192
  (if m == 7680 then [Ev.refreshWindowStart] else []) ++
  (if m == 0 then (if s.clk.refresh.isSome then [Ev.refreshWindowEnd] else []) ++ [Ev.kneadWindowStart] ++
    ((List.range 12).filter (fun p => (s.tport p).retry != 0)).map Ev.tuinilLaneDrop else []) ++
  (if m == 1024 then [Ev.kneadWindowEnd] else []) ++
  (if m % 64 == 0 then s.chanParts.map Ev.prooferDetection else []) ++
  s.packageDue ++ s.bindsDue ++ s.convDue ++ s.depsDue ++ s.agesDue ++ s.coresDue

/-- One cycle on, in the Knead Arrays too. -/
def State.tick (s : State) : State :=
  let s0 := { s with clk := { s.clk with cyc := s.clk.cyc + 1 } }
  let s1 := if s0.cyc % 8192 == 0 then s0.takeNoc else s0
  ({ s1 with clk := { s1.clk with urgent := s1.clk.urgent ++ s1.due } } : State).kneadTick

/-! ## Choosing a step -/

/-- May the op at the head of a slot start now? A core in a rollback starts only ops of closed intervals (R384). -/
def State.startable (s : State) (c slot : Nat) : Bool :=
  let k := s.core c
  match k.slots.get slot [] with
  | o :: _ => (if isCtl c then k.ctl.running && k.trap.isNone else k.item.isSome && (k.trap.isNone || decide (o.ival < k.ival))) &&
      !s.corePaused c && !k.headWaits slot o
  | [] => false

/-- The head of a slot as the running op. -/
def State.takeHead (s : State) (c slot : Nat) : Option (Instr × State) :=
  match (s.core c).slots.get slot [] with
  | o :: r => some (o.op, { s.modCore c (fun k => { k with slots := k.slots.set slot r }) with cur := { core := c, slot := slot, op := o } })
  | [] => none

/-- What a step does: a change that is complete, or an op to execute. -/
inductive Act where
  | done (r : Res)
  | op (i : Instr) (s : State)

/-- A core's turn: an attempt to issue, or the start of a slot's head, in rotation. -/
def State.coreTurn (s : State) (c : Nat) : Act :=
  let sl := (List.range 8).filter (s.startable c)
  let r := (s.core c).rot % (sl.length + 1)
  let s1 := s.modCore c (fun k => { k with rot := k.rot + 1 })
  match sl[r]? with
  | some slot => (match s1.takeHead c slot with
    | some (i, s2) => .op i s2
    | none => .done (.next s1))
  | none => match s1.issue c with
    | .ran s2 => .done (.next s2)
    | .start i s2 => .op i s2

/-- Cores that have something to do. -/
def State.agents (s : State) : List Nat :=
  (s.cores.l.filter (fun x => if isCtl x.1 then x.2.ctl.running else x.2.item.isSome)).map (·.1)

/-- The next move: the first of the tape; without one, events in flight and cores in turn. -/
def State.nextMove (s : State) : Move × State :=
  match s.clk.tape with
  | m :: r => (m, { s with clk := { s.clk with tape := r } })
  | [] =>
    let a := s.agents
    if (s.clk.flip || a.isEmpty) && !s.clk.pending.isEmpty then (.fire 0, { s with clk := { s.clk with flip := false } })
    else (.run (a.getD (s.clk.turn % max a.length 1) 0), { s with clk := { s.clk with flip := true, turn := s.clk.turn + 1 } })

/-- The fetch path of a core that runs code keeps a word as it stands (R67). -/
def State.keepWord (s : State) (c w : Nat) : State :=
  s.modCore c (fun k => { k with ic := k.ic.set w (s.codeWord c (4 * w)) })

/-- A move. -/
def State.move (s : State) : Move → Act
  | .run c => s.coreTurn c
  | .start c slot => if s.startable c slot then (match s.takeHead c slot with
      | some (i, s1) => .op i s1
      | none => .done (.next s)) else .done (.next s)
  | .fire k => match s.clk.pending[k]? with
      | some e => .done (runEv e { s with clk := { s.clk with pending := s.clk.pending.eraseIdx k } })
      | none => .done (.next s)
  | .event e => .done (runEv e s)
  | .dropL1 c line => .done (.next (s.modCore c (fun k => { k with l1 := k.l1.del line })))
  | .dropTlb k => .done (.next { s with tlbs := s.tlbs.eraseIdx k })
  | .keepWord c w => .done (.next (s.keepWord c w))
  | .dropWord c w => .done (.next (s.modCore c (fun k => { k with ic := k.ic.del w })))
  | .keepPte d pa => .done (.next (match s.memRead d pa 8 with
      | .bytes b => s.modDie d (fun x => { x with pwc := x.pwc.set pa (leNat b) })
      | _ => s))
  | .dropPte d pa => .done (.next (s.modDie d (fun x => { x with pwc := x.pwc.del pa })))
  | .nocCfg d v => .done (.next (if 64 ≤ bitsAt v 16 13 && bitsAt v 16 13 ≤ 4096 then s.modDie d (fun x => { x with nocNext := some (v % 2 ^ 29) }) else s))
  | .setCap p cap => .done (.next (s.setCap p cap))
  | .dropView d line => .done (.next (s.modDie d (fun x => { x with viewL2 := x.viewL2.del line })))

/-- An op that has left its slot's head has started: the core is not hung (R391). -/
def State.noteStart (s : State) (c slot n : Nat) : State :=
  if decide (((s.core c).slots.get slot []).length < n) then s.modCore c (fun k => { k with lastAct := s.cyc }) else s

/-- The rest of a step that executed an op: its start noted, one cycle on. -/
def stepEnd (before : State) (r : Res) : Res :=
  match r with
  | .next s => .next (s.noteStart before.cur.core before.cur.slot (((before.core before.cur.core).slots.get before.cur.slot []).length + 1)).tick
  | .fault f => .fault f
  | .refused x => .refused x

/-- The rest of any other step: one cycle on. -/
def stepTick (r : Res) : Res :=
  match r with
  | .next s => .next s.tick
  | .fault f => .fault f
  | .refused x => .refused x

/-! ## A fetched word -/

/-- The header of a single-op bundle (R76, R77). -/
def singleHeader (cls : Nat) (ext : Bool) : W32 := BitVec.ofNat 32 (6 * 2 ^ 29 + cls * 2 ^ 26 + (if ext then 2 ^ 25 else 0))

/-- The bytes of a single-op bundle. -/
def singleBytes (cls w : Nat) (x : Option W32) : Bytes :=
  leBytes 4 (singleHeader cls x.isSome).toNat ++ leBytes 4 (w % 2 ^ 32) ++ (match x with
    | some e => leBytes 4 e.toNat
    | none => [])

/-- Where `withFetchWord` lays code: a virtual page and the page of HBM it leads to. -/
def fetchVa : Nat := 0x1000
def fetchPa : Nat := 0x200000

/-- The work item of a loaded program: a kernel that declares every resource, PASID 0, on the core's die. -/
def fetchItem (s : State) (c : Nat) : WorkItem :=
  { part := s.partOf c, pasid := 0, tag := 0, die := dieOf c, entry := 0, hdr := [], wid := 0, arg := 0, entryPc := w64 fetchVa, costHint := 0,
    frame := 0, gang := [c], line := none, bpos := (w64 fetchVa, List.replicate 15 0), started := true }

/-- A core at a bundle boundary, its PC at the code, with the limits of that kernel; registers, scratchpad and the rest stay. -/
def fetchCore (s : State) (c : Nat) : Core :=
  let k := s.core c
  let k1 : Core := { k with pc := w64 fetchVa, target := none, handler := false, trap := none, async := [], serial := false, halting := false, slots := ⟨[]⟩, pend := [],
                            stream := none, jobs := [], conv := none, bankJobs := [], ports := [], loop := {}, items := [], relWait := none, relItem := false, subm := [], cstall := false, rot := 0 }
  if isCtl c then { k1 with ctl := { k.ctl with running := true, saving := false } }
  else { k1 with item := some (fetchItem s c),
                 sys := { k.sys with limq := 0x88888888, lims := w64 (4193280 * 2 ^ 32 + 24 * 2 ^ 8 + 64), lima := w64 (64 * 65536 + 512), limk := w64 (64 * 65536 + 32 * 256 + 8) },
                 queues := ⟨(List.range 8).map (fun q => (q, { en := true, ty := 0, logc := 8, base := 256 * q }))⟩ }

end Sys2Proof.Machine
end

