-- ==== Sys2Proof/Machine/Step.lean ====
section
/-! DEFINITION. One step of the package, and the state in which the next step fetches a given word. -/
namespace Sys2Proof.Machine

/-- One step (log 4): a cell op or an event of this very cycle; otherwise the next move, and one cycle on. -/
def step (s : State) : Host.Outcome State Fault Refusal :=
  match s.clk.fires with
  | x :: r =>
    let s1 := { s with clk := { s.clk with fires := r } }
    match s1.fireWord x with
    | some i => exec i s1
    | none => .next s1
  | [] =>
  match s.clk.urgent with
  | e :: r => runEv e { s with clk := { s.clk with urgent := r } }
  | [] =>
    let m := s.nextMove
    match m.2.move m.1 with
    | .done r => stepTick r
    | .op i s1 => stepEnd s1 (exec i s1)

/-- The state s with a program loaded whose first bundle is a single-op bundle holding a table word: code in memory and translated, and a
core that stands before it, next in turn (log 6). -/
def State.withFetchWord (s : State) (nbits w : Nat) : State :=
  let r := (tableClass nbits w).getD (false, 0, .nop, none)
  let c := if r.1 then 128 else 0
  let s1 := (s.setCore c (fetchCore s c)).modDie (dieOf c) (fun d => { d with view := d.view.writeN fetchPa (singleBytes r.2.1 w r.2.2.2) })
  let e : TlbEnt := { core := c, tlb := 0, fn := s.partOf c, pasid := s1.pasidOf c, va := fetchVa, size := 4096, pa := fetchPa, p1 := 7, p2 := 7 }
  { s1 with tlbs := e :: s1.tlbs, clk := { s1.clk with fires := [], urgent := [], tape := [.run c] }, islands := s1.islands.set (islandOf c) {} }

end Sys2Proof.Machine
end

