-- ==== Sys2Proof/Safety.lean ====
section
/-! DEFINITION. The words that claims are stated in: a safe run, an op's operands and outcome, reading one byte of any memory, and numbers
as the manual's tables give them. -/
namespace Sys2Proof.Machine

/-! ## Runs -/

/-- A run that never stops: whatever the number of steps, the machine is in a next state. -/
def Safe (s : State) : Prop := ∀ n, ∃ t, Host.Core.run Sys2Proof.core n s = .next t

/-! ## One byte of any memory -/

/-- A byte addressed memory of the package: the host's, a die's view of HBM, a die's weight store, a core's scratchpad. -/
inductive Space where
  | host
  | view (die : Nat)
  | ws (die : Nat)
  | spad (core : Nat)
  deriving DecidableEq, Repr

/-- What stands at an address after bytes were laid over an old one, in list order. -/
def laid (cells : List (Nat × BitVec 8)) (a : Nat) (old : BitVec 8) : BitVec 8 := cells.foldl (fun v c => if c.1 == a then c.2 else v) old

/-- The byte at an address of a memory. -/
def State.byteAt (s : State) : Space → Nat → BitVec 8
  | .host, a => s.hostMem.read a
  | .view d, a => (s.die d).view.read a
  | .ws d, a => (s.die d).ws.read a
  | .spad c, a => (s.core c).spad.read a

/-- Can the device read bytes now: no line of a read view has still to come for them (R355), and none is lost (R250)? -/
def State.ReadsNow (s : State) (pa n : Nat) : Bool :=
  match s.memRead 0 pa n with
  | .line _ => false
  | .lost => false
  | _ => true

/-- The canonical form of every memory of the package: host memory, views, weight stores, scratchpads of cores, of saved contexts and of parked items. -/
def State.memOk (s : State) : Prop :=
  s.hostMem.wf = true ∧ (∀ x ∈ s.dies.l, x.2.view.wf = true ∧ x.2.ws.wf = true ∧ ∀ y ∈ x.2.ctx.l, y.2.spad.cells.wf = true) ∧ (∀ x ∈ s.cores.l, x.2.spad.cells.wf = true) ∧
  ∀ g ∈ s.groups, ∀ p ∈ g.parked, ∀ k, p.save = some k → k.spad.cells.wf = true

/-! ## The op that runs -/

/-- The core whose op runs. -/
def State.me (s : State) : Core := s.core s.cur.core
/-- The op reads a scalar register as a value: it is not empty (R13). -/
def State.Has (s : State) (block : Bool) (r : BitVec 6) (v : W64) : Prop := s.me.readReg s.cur.op block r.toNat = .val v
/-- The op is to wait for a register (R13, R28). -/
def State.Awaits (s : State) (block : Bool) (r : BitVec 6) : Prop := s.me.readReg s.cur.op block r.toNat = .wait
/-- The guard of a scalar op (R15). -/
def State.Guarded (s : State) (g : BitVec 5) : Prop := s.me.guard s.cur.op g.toNat = true
/-- No earlier result keeps the destination empty (R14). -/
def State.Free (s : State) (d : Dst) : Prop := s.me.blocked s.cur.op d = false
/-- Is the op's core one that withholds (a tile core in normal mode, R111, R388)? -/
def State.Holding (s : State) : Prop := holds s.cur.core s.me = true

/-- The op is done: a new core, its source entries read, events put in flight. -/
def State.doneWith (s : State) (k : Core) (evs : List Ev) : State := (s.setCore s.cur.core (k.readersDone s.cur.op.srcs)).pushAll evs
/-- The op is done with a result. -/
def State.gives (s : State) (d : Dst) (v : W64) : State := s.doneWith (s.me.result s.cur.op d v) []
/-- The op is done; its result, for which its register is empty, is on its way (R13). -/
def State.sendsLater (s : State) (d : BitVec 6) (v : W64) : State :=
  s.doneWith (s.me.feTicket s.cur.op d.toNat).2 [.scalarResultArrival s.cur.core (s.me.feTicket s.cur.op d.toNat).1 v]

/-- A divide is done: its result is on its way, and the divider serves it until then (R102). -/
def State.divides (s : State) (d : BitVec 6) (v : W64) : State :=
  s.doneWith { (s.me.feTicket s.cur.op d.toNat).2 with divTk := some (s.me.feTicket s.cur.op d.toNat).1 }
    [.scalarResultArrival s.cur.core (s.me.feTicket s.cur.op d.toNat).1 v]

/-- A result has landed in a core's register or predicate: there where its op opened no result at issue, in its place in program order where
it did (R13, R31). -/
def Landed (k : Core) (o : SlipOp) (d : Dst) (v : W64) : Prop :=
  match o.tk with
  | none => d = .reg 0 ∨ k.base d = v
  | some t => ∀ p ∈ k.pend, p.tk = t → p.val = some v

/-- Two cores that agree but for registers, predicates, results to come, the divide that the divider serves, readers of queue entries and
tickets. -/
def Core.regsOnly (k j : Core) : Prop :=
  j = { k with regs := j.regs, preds := j.preds, pend := j.pend, queues := j.queues, seqNo := j.seqNo, divTk := j.divTk }

/-- Two states that agree but for one core, events in flight and fresh numbers. -/
def State.coreOnly (s t : State) (c : Nat) : Prop :=
  t = { s with cores := t.cores, clk := { s.clk with pending := t.clk.pending, ids := t.clk.ids } } ∧ ∀ x, x ≠ c → t.core x = s.core x
/-- The running op took no trap on the way to t, and asked for none (R30, R243). -/
def State.NoTrap (s t : State) : Prop :=
  (t.core s.cur.core).trap = s.me.trap ∧ (t.core s.cur.core).handler = s.me.handler ∧ (t.core s.cur.core).async = s.me.async

/-- An event is on its way: in flight, or the payload of a packet in a router. -/
def State.OnWay (s : State) (e : Ev) : Prop :=
  e ∈ s.clk.pending ∨ ∃ u r i q p, (u, r) ∈ s.routers.l ∧ (i, q) ∈ r.inq.l ∧ p ∈ q ∧ p.payload = e

/-! ## Events as instructions -/

/-- An event is an instruction: the one of its name, with its arguments. -/
def isInstr : Ev → Instr → Prop
  | .wideBundleIssue core, i => i = .wideBundleIssue core
  | .singleOpBundleIssue core, i => i = .singleOpBundleIssue core
  | .checkpointBundle core, i => i = .checkpointBundle core
  | .operatorBoundaryBundle core, i => i = .operatorBoundaryBundle core
  | .queueEntryArrival a, i => i = .queueEntryArrival a
  | .scalarResultArrival core tk v, i => i = .scalarResultArrival core tk v
  | .atomicResultArrival core tk v clk, i => i = .atomicResultArrival core tk v clk
  | .rollbackComplete core, i => i = .rollbackComplete core
  | .asyncFaultTaken core, i => i = .asyncFaultTaken core
  | .remoteAtomRejection core r, i => i = .remoteAtomRejection core r
  | .abandonmentReport die, i => i = .abandonmentReport die
  | .hangWatchdog core, i => i = .hangWatchdog core
  | .operatorBoundExceeded core, i => i = .operatorBoundExceeded core
  | .machineRollback core, i => i = .machineRollback core
  | .singleOpErrorRetry core, i => i = .singleOpErrorRetry core
  | .correctableError word, i => i = .correctableError word
  | .lossOfStoredState what, i => i = .lossOfStoredState what
  | .partitionReset part cause failed, i => i = .partitionReset part cause failed
  | .gangPlacement die, i => i = .gangPlacement die
  | .scoreboardAgeLimit die e, i => i = .scoreboardAgeLimit die e
  | .dependenceSatisfied die e k, i => i = .dependenceSatisfied die e k
  | .workItemStart cores, i => i = .workItemStart cores
  | .workItemEnd core, i => i = .workItemEnd core
  | .coreFree core, i => i = .coreFree core
  | .launchSubmissionAccept core, i => i = .launchSubmissionAccept core
  | .syncLineComplete die line, i => i = .syncLineComplete die line
  | .syncRestart die line, i => i = .syncRestart die line
  | .spliceAcceptanceArrival m, i => i = .spliceAcceptanceArrival m
  | .spliceCreditArrival m, i => i = .spliceCreditArrival m
  | .spliceCloseArrival m, i => i = .spliceCloseArrival m
  | .spliceEntryShip core q, i => i = .spliceEntryShip core q
  | .spliceEntryDelivery m data, i => i = .spliceEntryDelivery m data
  | .spliceCloseSend core q, i => i = .spliceCloseSend core q
  | .exportedWriteApply die w, i => i = .exportedWriteApply die w
  | .directedPacketPerform p, i => i = .directedPacketPerform p
  | .homeSliceAccess a, i => i = .homeSliceAccess a
  | .homeSliceAtomic a, i => i = .homeSliceAtomic a
  | .remoteAtomApply a, i => i = .remoteAtomApply a
  | .releaseComplete core, i => i = .releaseComplete core
  | .pageWalkComplete w, i => i = .pageWalkComplete w
  | .invalidationComplete fn, i => i = .invalidationComplete fn
  | .refreshWindowStart, i => i = .refreshWindowStart
  | .refreshWindowEnd, i => i = .refreshWindowEnd
  | .weightStoreWritePerform die, i => i = .weightStoreWritePerform die
  | .bankLoadComplete core bank, i => i = .bankLoadComplete core bank
  | .bankComputeComplete core bank, i => i = .bankComputeComplete core bank
  | .tileWriteComplete core tile, i => i = .tileWriteComplete core tile
  | .repeatIterationStart core, i => i = .repeatIterationStart core
  | .copyCommandStart core id, i => i = .copyCommandStart core id
  | .copyDataReturn core id k, i => i = .copyDataReturn core id k
  | .copyCommandComplete core id, i => i = .copyCommandComplete core id
  | .counterPost p, i => i = .counterPost p
  | .remoteWriteDelivery w, i => i = .remoteWriteDelivery w
  | .broadcastDelivery w, i => i = .broadcastDelivery w
  | .channelAppend a, i => i = .channelAppend a
  | .channelDelivery d, i => i = .channelDelivery d
  | .spillRefill ch, i => i = .spillRefill ch
  | .channelReportArrival core ch r, i => i = .channelReportArrival core ch r
  | .channelCloseNotice core ch, i => i = .channelCloseNotice core ch
  | .prooferDetection part, i => i = .prooferDetection part
  | .channelGrowth part ch lowest, i => i = .channelGrowth part ch lowest
  | .peelDecision post, i => i = .peelDecision post
  | .peelConversion group, i => i = .peelConversion group
  | .peelRunPark core, i => i = .peelRunPark core
  | .drainPoint core, i => i = .drainPoint core
  | .ckptSaveComplete core, i => i = .ckptSaveComplete core
  | .discardComplete core, i => i = .discardComplete core
  | .groupResumePlacement group, i => i = .groupResumePlacement group
  | .restoreComplete group, i => i = .restoreComplete group
  | .flitRoute arr col row port, i => i = .flitRoute arr col row port
  | .recordStart arr ent, i => i = .recordStart arr ent
  | .recordQuiescence arr ent col, i => i = .recordQuiescence arr ent col
  | .recordTimeLimit arr ent col, i => i = .recordTimeLimit arr ent col
  | .kneadRecordRequest a, i => i = .kneadRecordRequest a
  | .kneadViewLineDelivery arr ent rcd data, i => i = .kneadViewLineDelivery arr ent rcd data
  | .collectionWrite w, i => i = .collectionWrite w
  | .kneadWindowStart, i => i = .kneadWindowStart
  | .kneadWindowEnd, i => i = .kneadWindowEnd
  | .slotLoadComplete arr slot, i => i = .slotLoadComplete arr slot
  | .bindingActivate arr ent, i => i = .bindingActivate arr ent
  | .bindingDrainComplete arr ent, i => i = .bindingDrainComplete arr ent
  | .packetGrant unit port, i => i = .packetGrant unit port
  | .vcAgePromotion unit port, i => i = .vcAgePromotion unit port
  | .laneGroupDrop die port, i => i = .laneGroupDrop die port
  | .tuinilFlitReceive port f, i => i = .tuinilFlitReceive port f
  | .tuinilNakReceive port ack, i => i = .tuinilNakReceive port ack
  | .tuinilLaneDrop port, i => i = .tuinilLaneDrop port
  | .fabricResultDelivery p, i => i = .fabricResultDelivery p
  | .fabricDoneArrival p, i => i = .fabricDoneArrival p
  | .layoutShadowWrite l, i => i = .layoutShadowWrite l
  | .lgenWrite v, i => i = .lgenWrite v
  | .layoutFlip, i => i = .layoutFlip
  | .mgpWatchdogReset, i => i = .mgpWatchdogReset
  | .freqAnnounce island level, i => i = .freqAnnounce island level
  | .freqStep island, i => i = .freqStep island
  | .freqPauseEnd island, i => i = .freqPauseEnd island
  | .thermalLimit island temp, i => i = .thermalLimit island temp
  | .thermalShutdown temp, i => i = .thermalShutdown temp
  | .powerLoss, i => i = .powerLoss
  | .coldStart signed, i => i = .coldStart signed
  | .schedulerGo fn v, i => i = .schedulerGo fn v
  | .functionLevelReset fn, i => i = .functionLevelReset fn
  | .notifyWrite q off data, i => i = .notifyWrite q off data
  | .notifyDeferrableWrite q off data, i => i = .notifyDeferrableWrite q off data
  | .apertureAccess fn off len wr, i => i = .apertureAccess fn off len wr
  | .wqcfgWrite fn q word v, i => i = .wqcfgWrite fn q word v
  | .fctlWrite fn v, i => i = .fctlWrite fn v
  | .invalidatePasid fn v, i => i = .invalidatePasid fn v
  | .invalidateFunction fn v, i => i = .invalidateFunction fn v
  | .invalidateRange fn v, i => i = .invalidateRange fn v
  | .frmadd fn v, i => i = .frmadd fn v
  | .peelrecPost fn v, i => i = .peelrecPost fn v
  | .peelrecPartitionEviction fn v, i => i = .peelrecPartitionEviction fn v
  | .attreq fn v, i => i = .attreq fn v
  | .attestationComplete fn, i => i = .attestationComplete fn
  | .interruptEvent fn vec rgen, i => i = .interruptEvent fn vec rgen
  | .registerWrite fn off v, i => i = .registerWrite fn off v
  | .scquantWrite die v, i => i = .scquantWrite die v
  | .hintWrite die v, i => i = .hintWrite die v
  | .wqtakeWake die, i => i = .wqtakeWake die
  | .hbmChannelFailure stack ch, i => i = .hbmChannelFailure stack ch
  | .channelTableAnswer core slot, i => i = .channelTableAnswer core slot
  | .schedulerContextSaved die, i => i = .schedulerContextSaved die
  | .dieToDieLinkError die port cycles, i => i = .dieToDieLinkError die port cycles
  | .msixVectorUnmask fn ent, i => i = .msixVectorUnmask fn ent

/-! ## Memory accesses of scalar ops -/

/-- The checks of an access to the core's own scratchpad pass (R109). -/
def State.SpadOk (s : State) (ea : W64) (n : Nat) : Prop :=
  ea.toNat % n = 0 ∧ ea.toNat < spadSize s.cur.core ∧ ea.toNat + n ≤ s.me.limSpad
/-- Nothing makes a read of the scratchpad wait: no earlier store of another slot, no entry that an earlier op has still to fill, no range entry
(R111, R112, R333). -/
def State.SpadReady (s : State) (ea : W64) (n : Nat) : Prop :=
  s.me.storeWait s.cur.op ea.toNat n = false ∧ s.me.unfilled s.cur.op.seq ea.toNat n = false ∧ s.me.gated ea.toNat n = false
/-- The VA translates for an access of the op, to this PA (R253). -/
def State.Maps (s : State) (ea : W64) (a : Acc) (n pa : Nat) : Prop := s.translate s.cur.core 0 (s.pasidOf s.cur.core) ea a n = .pa pa
/-- The bytes that the op reads of memory at a PA (R111, R231): they can be read on the core's die, and the core's withheld bytes stand in them. -/
def State.ReadsMem (s : State) (pa n : Nat) (b : Bytes) : Prop :=
  ∃ m, s.memRead (dieOf s.cur.core) pa n = .bytes m ∧ b = patch pa m (s.me.forwarded s.cur.op pa n)
/-- Bytes of an access, by its size code (R83). -/
def accessBytes (size : BitVec 3) : Nat := match size.toNat with
  | 0 => 1
  | 1 => 1
  | 2 => 2
  | 3 => 2
  | 4 => 4
  | 5 => 4
  | _ => 8
/-- The value a load gives for its bytes: least significant first, sign-extended for the signed codes (R108). -/
def loadValue (size : BitVec 3) (b : Bytes) : W64 := match size.toNat with
  | 0 => (BitVec.ofNat 8 (leNat b)).signExtend 64
  | 1 => (BitVec.ofNat 8 (leNat b)).setWidth 64
  | 2 => (BitVec.ofNat 16 (leNat b)).signExtend 64
  | 3 => (BitVec.ofNat 16 (leNat b)).setWidth 64
  | 4 => (BitVec.ofNat 32 (leNat b)).signExtend 64
  | 5 => (BitVec.ofNat 32 (leNat b)).setWidth 64
  | _ => BitVec.ofNat 64 (leNat b)
/-- Has the withholding buffer room for a store to a line (R111)? -/
def State.StoreRoom (s : State) (glob : Bool) (a : Nat) : Prop :=
  s.me.entryCount < 256 ∨ (s.me.openEntry glob (a / 64) (s.cur.op.place s.me) s.cur.op.ival).isSome = true
/-- Has the buffer room for a store of these bytes: no line of theirs needs a new entry, or the new ones fit into the 256 (R111)? -/
def State.RoomFor (s : State) (glob : Bool) (cells : List (Nat × BitVec 8)) : Prop :=
  let fresh := (linesOf cells).filter (fun l => (s.me.openEntry glob l (s.cur.op.place s.me) s.cur.op.ival).isNone)
  fresh = [] ∨ s.me.entryCount + fresh.length ≤ 256
/-- The bytes that a core withholds from one memory: place in program order, address, byte. -/
def State.withheldOf (s : State) (glob : Bool) : List (Nat × Nat × BitVec 8) := s.me.withheld glob
/-- A store of the running op entered the buffer on the way to t: the bytes are withheld at its place beside those withheld before, each in an
entry of its line and of the op's interval, and no memory changed. -/
def State.Withholds (s t : State) (glob : Bool) (cells : List (Nat × BitVec 8)) : Prop :=
  (∀ x, x ∈ (t.core s.cur.core).withheld glob ↔ x ∈ s.me.withheld glob ∨ ∃ c ∈ cells, x = (s.cur.op.place s.me, c.1, c.2)) ∧
  (∀ c ∈ cells, ∃ it ∈ (t.core s.cur.core).items, it.ival = s.cur.op.ival ∧
    ∃ b f v, it.kind = .store glob (c.1 / 64) b f v ∧ (s.cur.op.place s.me, c.1, c.2) ∈ b) ∧
  (t.core s.cur.core).withheld (!glob) = s.me.withheld (!glob) ∧ ∀ sp a, t.byteAt sp a = s.byteAt sp a

/-- A global store of the running op left on the way to t: one write of its bytes to their line is on its way, under a fresh number that the core
counts, and no register and no memory has changed. -/
def State.SendsStore (s t : State) (pa : Nat) (cells : List (Nat × BitVec 8)) : Prop :=
  let sys := isSys (pa / 64 * 64)
  (∃ a, t.OnWay (.homeSliceAccess a) ∧ a.core = s.cur.core ∧ a.id = s.clk.ids ∧ a.pa = pa / 64 * 64 ∧ a.wr = some cells) ∧
  (t.core s.cur.core).sent = s.me.sent ++ [{ id := s.clk.ids, kind := if sys then 2 else 1, scope := if sys then 4 else 2 }] ∧
  (t.core s.cur.core).regs = s.me.regs ∧ ∀ sp a, t.byteAt sp a = s.byteAt sp a
/-- A global load of the running op is under way on the way to t (R110, R111, R112, R244): its destination is empty. Where the core withholds every
byte, or holds the line in its L1 with no access of its own to the line on its way, the value is on its way: the withheld bytes laid over the
line's. Otherwise a read of the bytes is on its way, under a fresh number that the core counts, with the withheld bytes to lay over the
answer. -/
def State.GlobalLoad (s t : State) (d : BitVec 6) (size : BitVec 3) (pa : Nat) : Prop :=
  let c := s.cur.core
  let n := accessBytes size
  let own := s.me.forwarded s.cur.op pa n
  let near : Prop := isSys pa = false ∧ s.lineBusy c (pa / 64) s.clk.ids = false
  (own.length = n → t = s.later d.toNat (loadValue size (own.map (·.2)))) ∧
  (own.length ≠ n → near → ∀ b, s.me.l1.find (pa / 64) = some b → b.length = 64 → pa % 64 + n ≤ 64 →
    t = s.later d.toNat (loadValue size ((List.range n).map (fun i => (Tab.findL own (pa + i)).getD (b.getD (pa % 64 + i) 0))))) ∧
  (own.length ≠ n → (near → s.me.l1.find (pa / 64) = none) →
    (∃ a sg, t.OnWay (.homeSliceAccess a) ∧ a.core = c ∧ a.id = s.clk.ids ∧ a.pa = pa ∧ a.len = n ∧ a.wr = none ∧
      a.reply = .scalar c (s.me.feTicket s.cur.op d.toNat).1 n sg own) ∧
    (t.core c).sent = s.me.sent ++ [{ id := s.clk.ids, kind := 0, scope := if isSys pa then 4 else 2 }] ∧
    (t.core c).pend = (s.me.feTicket s.cur.op d.toNat).2.pend)

/-! ## Vector ops (R133, R134, R138) -/

/-- The op reads one source entry: it is present (R26). -/
def State.Reads (s : State) (sp : QSpec) (b : Bytes) : Prop := s.me.ent1 s.cur.op sp = .val b
/-- Element i of an entry of a type. -/
def elemAt (t : Nat) (b : Bytes) (i : Nat) : Nat := (elems t b).getD i 0
/-- An arrival that fills the j-th entry the op appends to a queue: element i is f's where its lane is enabled, 0 where not; only enabled elements
give flags. -/
def State.FillsEnt (s : State) (a : QArr) (q : BitVec 3) (j : Nat) (m : W64) (f : Nat → Nat × Flags) : Prop :=
  let ty := s.me.qTy q
  let on := (List.range (elemCount ty)).filter (laneOn m (tyWidth ty))
  a.core = s.cur.core ∧ a.q = q.toNat ∧ a.idx = (s.me.resvIdx s.cur.op q.toNat + j) % 65536 ∧ a.seq = s.cur.op.place s.me ∧
  (∃ b, a.data = some b ∧ (tyWidth ty ≠ 0 → b.length = 256) ∧
    ∀ i, i < elemCount ty → elemAt ty b i = if laneOn m (tyWidth ty) i then (f i).1 % 2 ^ tyWidth ty else 0) ∧
  a.flags = on.foldl (fun g i => g ||| (f i).2) 0
/-- The op is done, and the one entry it appends is on its way. -/
def State.Fills (s t : State) (q : BitVec 3) (m : W64) (f : Nat → Nat × Flags) : Prop :=
  ∃ a, t = s.doneWith s.me [.queueEntryArrival a] ∧ s.FillsEnt a q 0 m f
/-- The lane mask of a vector op's guard. -/
def State.maskOf (s : State) (g : BitVec 5) : W64 := s.me.guardMask s.cur.op g.toNat
/-- The bytes of the enabled elements of a store, each at its address. -/
def storeCells (m : W64) (t : Nat) (b : Bytes) (at_ : Nat → Nat) : List (Nat × BitVec 8) :=
  (enabled m (tyWidth t)).flatMap (fun i => cellsAt (at_ i) (leBytes (tyWidth t / 8) (elemAt t b i)))

/-! ## Matrix ops (R15, R32, R163) -/

/-- A matrix op that is enabled, keeps its type rules and is not repeated. -/
def State.MatOk (s : State) (i : Instr) (sg : BitVec 4) : Prop :=
  s.me.stageGuard s.cur.op sg = true ∧ (shapeOf s.me s.cur.op.rep i).tyOk = true ∧ s.cur.op.rep.n = 0
/-- The op may write a tile now: nothing else writes or reads it still, and its shadow has room. -/
def State.TileFree (s : State) (n : Nat) : Prop := s.me.tileBusy s.cur.op n = false ∧ (s.me.shadowTile s.cur.op n).isSome = true
/-- On the way to t the op wrote one tile, whose write is in progress; every other tile, the registers and every memory are as before. -/
def State.WritesTile (s t : State) (n : Nat) : Prop :=
  (∀ m, m ≠ n → (t.core s.cur.core).tile m = s.me.tile m) ∧ Ev.tileWriteComplete s.cur.core n ∈ t.clk.pending ∧
  (∃ j ∈ (t.core s.cur.core).jobs, j.tile = n) ∧ (t.core s.cur.core).regs = s.me.regs ∧ ∀ sp x, t.byteAt sp x = s.byteAt sp x
/-- The op is done, and the entries it appends to a queue are on their way: the bytes 256 by 256, the flags with the last. -/
def State.Produces (s t : State) (q : Nat) (r : Bytes × Flags) : Prop :=
  ∃ (as : List QArr) (cv : Option (Nat × Nat × Nat)), t = s.doneWith { s.me with conv := cv } (as.map .queueEntryArrival) ∧ as.length = r.1.length / 256 ∧
    ∀ j a, as[j]? = some a → a.core = s.cur.core ∧ a.q = q ∧ a.idx = (s.me.resvIdx s.cur.op q + j) % 65536 ∧ a.seq = s.cur.op.place s.me ∧
      a.data = some ((r.1.drop (256 * j)).take 256) ∧ a.flags = if j + 1 = as.length then r.2 else 0
/-- On the way to t a bank began to load a tile: format, bytes, flags. -/
def State.LoadsBank (s t : State) (b ty : Nat) (data : Bytes) (fl : Flags) : Prop :=
  let k := (t.core s.cur.core).bank b
  k.st = .loading ∧ k.ldi = true ∧ k.incoming = some (ty, data, fl, s.cur.op.ival) ∧ k.data = (s.me.bank b).data ∧ k.ty = (s.me.bank b).ty ∧
  (∀ m, m ≠ b → (t.core s.cur.core).bank m = s.me.bank m) ∧ Ev.bankLoadComplete s.cur.core b ∈ t.clk.pending ∧ (t.core s.cur.core).regs = s.me.regs ∧
  ∀ sp x, t.byteAt sp x = s.byteAt sp x

/-! ## Copy commands (R307 to R310) -/

/-- A window command that is enabled, whose records pass, with the values of its registers. -/
def State.CopyOk (s : State) (i : Instr) (sg : BitVec 4) (l : BitVec 3) (sreg x : Nat) (vs : List W64) : Prop :=
  s.me.stageGuard s.cur.op sg = true ∧ (s.cur.op.lays = [] → s.me.copyCheck i = none) ∧
  vs.length = layRank (s.me.layOf s.cur.op l.toNat) + x ∧ ∀ j v, vs[j]? = some v → s.me.readReg s.cur.op true (sreg + j) = .val v
/-- The op gives its port a command, under a fresh number: a command that is not held is sent at once, and waits where 16 started ones stand; a held one
is an item at its op's place, with the pages its start translated: a page that faults is the op's fault, one that needs a walk is asked for, and a
33rd of the interval faults. No memory changes. -/
def State.Commands (s : State) (i : Instr) (m : CopyCmd) : Prop :=
  let c := s.cur.core
  let id := s.clk.ids
  let same (t : State) : Prop := (t.core c).regs = s.me.regs ∧ ∀ sp x, t.byteAt sp x = s.byteAt sp x
  let pre : Except (W64 × Tr) (List (Nat × Nat)) := if m.kind = .crwr ∨ m.kind = .cfred then .ok [] else s.preCheck c m m.count 0 []
  (m.held = false → Config.portStarted ≤ s.me.portLoad m.port → exec i s = .next (s.requeue i)) ∧
  (m.held = false → s.me.portLoad m.port < Config.portStarted →
    ∃ t, exec i s = .next t ∧ { m with id := id, sent := true } ∈ (t.core c).ports ∧ Ev.copyCommandStart c id ∈ t.clk.pending ∧ same t) ∧
  (∀ va code d, m.held = true → pre = .error (va, .fault code d) → exec i s = .next ((s.clearWalk c (1 + m.port) va).raise code d va)) ∧
  (∀ va, m.held = true → pre = .error (va, .miss) → exec i s = .next ((s.askWalk c (1 + m.port) (s.pasidOf c) va).requeue i)) ∧
  (∀ pas, m.held = true → pre = .ok pas →
    Config.portHeld ≤ (s.me.ports.filter (fun x => x.held && x.ival == m.ival && x.port == m.port)).length → exec i s = .next (s.raise 0x08 0x04 0)) ∧
  (∀ pas, m.held = true → pre = .ok pas →
    (s.me.ports.filter (fun x => x.held && x.ival == m.ival && x.port == m.port)).length < Config.portHeld →
    ∃ t it, exec i s = .next t ∧ { m with id := id, pas := pas } ∈ (t.core c).ports ∧ it ∈ (t.core c).items ∧ it.kind = .copy id ∧ it.rel = m.rel ∧ same t)

/-! ## Placement (R202, R205, R207) -/

/-- The next gang of an entry took its cores on the way to t: each has its work item, not yet started, in the start state of R205; the entry's cursor moved, and
its frames were taken. -/
def State.Placed (s t : State) (d e : Nat) (cores : List Nat) : Prop :=
  let x := (s.die d).entries.get e {}
  let g := gangSize x.record x.hdr
  let y := (t.die d).entries.get e {}
  y.cursor = x.cursor + g ∧ y.st = (if x.total ≤ x.cursor + g then .running else .ready) ∧ y.aged = false ∧ Ev.workItemStart cores ∈ t.clk.pending ∧
  (t.part x.part).frames = (s.part x.part).frames.drop g ∧
  ∀ i c, i < g → cores[i]? = some c → ∃ w, (t.core c).item = some w ∧ w.part = x.part ∧ w.pasid = x.pasid ∧ w.wid = widOf x.record x.hdr (x.cursor + i) ∧
    w.gang = cores ∧ w.started = false ∧ (t.core c).pc = x.hdrVa + BitVec.ofNat 64 (fieldAt x.hdr 0x10 8) ∧
    (t.core c).base (.reg 1) = BitVec.ofNat 64 (fieldAt x.record 0x28 8) ∧ (t.core c).sys.widv = w.wid

/-! ## Knead cells (R337, R340) -/

/-- Lane i of width w of 512 bits. -/
def laneAt (w : Nat) (v i : Nat) : Nat := v / 2 ^ (w * i) % 2 ^ w
/-- A cell fires: the flit is consumed, and after its latency the result d goes to its register and its output flit, and TAKE's register is zero. -/
def State.fires (s : State) (x : CellLoc) (f : CellWord) (lat : Nat) (take : Bool) (d : BitVec 512) : State :=
  let c := s.cell x
  let tag := if f.tkeep then (c.inp.map (·.tag)).getD 0 else f.tag.toNat
  s.setCell x { c with inp := none, fl := c.fl ++ [{ left := lat, wr := (if f.re then [(f.regd.toNat, d)] else []) ++ (if take then [(f.sa.toNat, 0)] else []),
                                                     out := if f.oe then some { data := d, tag := tag, ctl := false } else none }] }
/-- A cell may fire: it holds a flit, no register it reads is still to be written, and its output has room. -/
def State.CellReady (s : State) (x : CellLoc) (f : CellWord) (n : Nat) (i : KFlit) : Prop :=
  (s.cell x).inp = some i ∧ (∀ r ∈ [f.sa, f.sb, f.sc].take n, (s.cell x).regBusy r = false) ∧
  (f.oe = true → ((s.cell x).ing.get 4 []).length + ((s.cell x).fl.filter (fun r => r.out.isSome)).length < 2)

/-! ## Numbers at an op's width (R83, R99) -/

/-- A signed operand. -/
def signed (w : Bool) (v : W64) : Int := if w then (v.setWidth 32).toInt else v.toInt
/-- An unsigned operand. -/
def unsigned (w : Bool) (v : W64) : Nat := if w then v.toNat % 2 ^ 32 else v.toNat
/-- A result of W bits, sign-extended. -/
def resS (w : Bool) (x : Int) : W64 := if w then (BitVec.ofInt 32 x).signExtend 64 else BitVec.ofInt 64 x
/-- A result of W bits, zero-extended. -/
def resZ (w : Bool) (x : Nat) : W64 := if w then BitVec.ofNat 64 (x % 2 ^ 32) else BitVec.ofNat 64 x
/-- The low W bits, sign-extended. -/
def lowS (w : Bool) (v : W64) : W64 := if w then (v.setWidth 32).signExtend 64 else v
/-- W. -/
def width (w : Bool) : Nat := if w then 32 else 64
/-- Quotient and remainder of R40, signed. -/
def quoS (a b : Int) : Int := if b = 0 then -1 else a.tdiv b
def modS (a b : Int) : Int := if b = 0 then a else a.tmod b
/-- Quotient and remainder of R40, unsigned. -/
def quoU (w : Bool) (a b : Nat) : Nat := if b = 0 then 2 ^ width w - 1 else a / b
def modU (a b : Nat) : Nat := if b = 0 then a else a % b

end Sys2Proof.Machine
end

