-- ==== Sys2Proof/Certificates/Slice0/Obligations.lean ====
section
/-! DEFINITION. The statements for the provers. Each names the rules of spec/ that it says; a clause that rests on the model's own choice says so. -/
open Sys2Proof Sys2Proof.Machine

/-! ## Scalar arithmetic -/

/-- R101, R103 with R99, R83: with both sources at values, its guard enabling it and its destination free, each register op gives the result of
its row at the op's width; SEL's guard selects. Shift amounts are the low 5 or 6 bits.
R101: BCNT counts one bits, CLZ and CTZ leading and trailing zeros of the operand at the op's width, W for zero: the count of CLZ is the
number of positions from the top before a one, that of CTZ from the bottom.
R102, R40, R13: a divide or remainder leaves its destination empty, and its result, with the corner cases of R40, is on its way; the divider serves it
until then. -/
def Obligations.ScalarRegisterResults : Prop :=
  (∀ (s : State) (o : SR) (a b : W64), s.Has o.ba o.a a → s.Has o.bb o.b b → s.Free (.reg o.d.toNat) →
    let go (i : Instr) (v : W64) : Prop := exec i s = .next (s.gives (.reg o.d.toNat) v)
    let sh := b.toNat % width o.w
    (s.Guarded o.g →
      go (.add o) (resS o.w (signed o.w a + signed o.w b)) ∧
      go (.sub o) (resS o.w (signed o.w a - signed o.w b)) ∧
      go (.and o) (lowS o.w (a &&& b)) ∧
      go (.or o) (lowS o.w (a ||| b)) ∧
      go (.xor o) (lowS o.w (a ^^^ b)) ∧
      go (.shl o) (resS o.w (signed o.w a * 2 ^ sh)) ∧
      go (.shr o) (resZ o.w (unsigned o.w a / 2 ^ sh)) ∧
      go (.sar o) (resS o.w (signed o.w a / 2 ^ sh)) ∧
      go (.mul o) (resS o.w (signed o.w a * signed o.w b)) ∧
      go (.mulh o) (resS o.w (signed o.w a * signed o.w b / 2 ^ width o.w)) ∧
      go (.mulhz o) (resZ o.w (unsigned o.w a * unsigned o.w b / 2 ^ width o.w)) ∧
      go (.min o) (resS o.w (if signed o.w a ≤ signed o.w b then signed o.w a else signed o.w b)) ∧
      go (.max o) (resS o.w (if signed o.w a ≤ signed o.w b then signed o.w b else signed o.w a)) ∧
      go (.minz o) (resZ o.w (if unsigned o.w a ≤ unsigned o.w b then unsigned o.w a else unsigned o.w b)) ∧
      go (.maxz o) (resZ o.w (if unsigned o.w a ≤ unsigned o.w b then unsigned o.w b else unsigned o.w a)) ∧
      go (.sel o) (lowS o.w a)) ∧
    (¬ s.Guarded o.g → go (.sel o) (lowS o.w b))) ∧
  (∀ (s : State) (o : SR1) (a : W64), s.Has o.ba o.a a → s.Guarded o.g → s.Free (.reg o.d.toNat) →
    (exec (.bcnt o) s = .next (s.gives (.reg o.d.toNat) (BitVec.ofNat 64 ((List.range (width o.w)).filter a.getLsbD).length))) ∧
    (∃ n, exec (.clz o) s = .next (s.gives (.reg o.d.toNat) (BitVec.ofNat 64 n)) ∧ n ≤ width o.w ∧
      (∀ j, j < n → a.getLsbD (width o.w - 1 - j) = false) ∧ (n < width o.w → a.getLsbD (width o.w - 1 - n) = true)) ∧
    (∃ n, exec (.ctz o) s = .next (s.gives (.reg o.d.toNat) (BitVec.ofNat 64 n)) ∧ n ≤ width o.w ∧
      (∀ j, j < n → a.getLsbD j = false) ∧ (n < width o.w → a.getLsbD n = true))) ∧
  (∀ (s : State) (o : SR) (a b : W64), s.Has o.ba o.a a → s.Has o.bb o.b b → s.Guarded o.g →
    exec (.div o) s = .next (s.divides o.d (resS o.w (quoS (signed o.w a) (signed o.w b)))) ∧
    exec (.rem o) s = .next (s.divides o.d (resS o.w (modS (signed o.w a) (signed o.w b)))) ∧
    exec (.divz o) s = .next (s.divides o.d (resZ o.w (quoU o.w (unsigned o.w a) (unsigned o.w b)))) ∧
    exec (.remz o) s = .next (s.divides o.d (resZ o.w (modU (unsigned o.w a) (unsigned o.w b)))))

/-- R105, R106: the immediate ops compute on 64 bits with the immediate sign-extended, from 13 bits or from a LIMM's 32; a shift op's immediate
is one that decoding admits. -/
def Obligations.ImmediateResults : Prop :=
  (∀ (s : State) (o : SI) (a : W64), s.Has o.ba o.a a → s.Free (.reg o.d.toNat) →
    let go (i : Instr) (v : W64) : Prop := exec i s = .next (s.gives (.reg o.d.toNat) v)
    go (.addi o) (BitVec.ofInt 64 (a.toInt + o.imm.toInt)) ∧ go (.andi o) (a &&& o.imm.signExtend 64) ∧ go (.ori o) (a ||| o.imm.signExtend 64) ∧
    go (.xori o) (a ^^^ o.imm.signExtend 64) ∧ go (.muli o) (BitVec.ofInt 64 (a.toInt * o.imm.toInt)) ∧
    go (.movh o) (BitVec.ofNat 64 ((o.imm.signExtend 32).toNat * 2 ^ 32 + a.toNat % 2 ^ 32)) ∧
    (shImmOk o.imm.toInt = true →
      go (.shli o) (BitVec.ofNat 64 (a.toNat * 2 ^ o.imm.toNat)) ∧ go (.shri o) (BitVec.ofNat 64 (a.toNat / 2 ^ o.imm.toNat)) ∧
      go (.sari o) (BitVec.ofInt 64 (a.toInt / 2 ^ o.imm.toNat)))) ∧
  (∀ (s : State) (o : SIL) (a : W64), s.Has o.ba o.a a → s.Free (.reg o.d.toNat) →
    let go (i : Instr) (v : W64) : Prop := exec i s = .next (s.gives (.reg o.d.toNat) v)
    go (.addiLimm o) (BitVec.ofInt 64 (a.toInt + o.imm.toInt)) ∧ go (.andiLimm o) (a &&& o.imm.signExtend 64) ∧ go (.oriLimm o) (a ||| o.imm.signExtend 64) ∧
    go (.xoriLimm o) (a ^^^ o.imm.signExtend 64) ∧ go (.muliLimm o) (BitVec.ofInt 64 (a.toInt * o.imm.toInt)) ∧
    go (.movhLimm o) (BitVec.ofNat 64 (o.imm.toNat * 2 ^ 32 + a.toNat % 2 ^ 32)) ∧
    (shImmOk o.imm.toInt = true →
      go (.shliLimm o) (BitVec.ofNat 64 (a.toNat * 2 ^ o.imm.toNat)) ∧ go (.shriLimm o) (BitVec.ofNat 64 (a.toNat / 2 ^ o.imm.toNat)) ∧
      go (.sariLimm o) (BitVec.ofInt 64 (a.toInt / 2 ^ o.imm.toNat)))) ∧
  (∀ (s : State) (d : BitVec 6) (i : BitVec 13) (x : BitVec 32), s.Free (.reg d.toNat) →
    exec (.movl d i) s = .next (s.gives (.reg d.toNat) (BitVec.ofInt 64 i.toInt)) ∧
    exec (.movlLimm d x) s = .next (s.gives (.reg d.toNat) (BitVec.ofInt 64 x.toInt)))

/-- R104, R107: a compare writes all ones where its test holds and 0 where it does not; immediates are sign-extended.
R121: the predicate ops, lane by lane; PMOVS and PMOVP move 64 bits, PSETA sets the lowest lanes. -/
def Obligations.CompareAndPredicateResults : Prop :=
  ((∀ (s : State) (o : SR) (a b : W64), s.Has o.ba o.a a → s.Has o.bb o.b b → s.Guarded o.g → s.Free (.pred o.d.toNat) →
    let go (i : Instr) (p : Prop) [Decidable p] : Prop := exec i s = .next (s.gives (.pred o.d.toNat) (if p then BitVec.allOnes 64 else 0))
    go (.cmpeq o) (unsigned o.w a = unsigned o.w b) ∧ go (.cmpne o) (unsigned o.w a ≠ unsigned o.w b) ∧
    go (.cmplt o) (signed o.w a < signed o.w b) ∧ go (.cmple o) (signed o.w a ≤ signed o.w b) ∧
    go (.cmpltz o) (unsigned o.w a < unsigned o.w b) ∧ go (.cmplez o) (unsigned o.w a ≤ unsigned o.w b)) ∧
  (∀ (s : State) (o : SI) (a : W64), s.Has o.ba o.a a → s.Free (.pred o.d.toNat) →
    exec (.cmpeqi o) s = .next (s.gives (.pred o.d.toNat) (if a.toInt = o.imm.toInt then BitVec.allOnes 64 else 0)) ∧
    exec (.cmplti o) s = .next (s.gives (.pred o.d.toNat) (if a.toInt < o.imm.toInt then BitVec.allOnes 64 else 0))) ∧
  (∀ (s : State) (o : SIL) (a : W64), s.Has o.ba o.a a → s.Free (.pred o.d.toNat) →
    exec (.cmpeqiLimm o) s = .next (s.gives (.pred o.d.toNat) (if a.toInt = o.imm.toInt then BitVec.allOnes 64 else 0)) ∧
    exec (.cmpltiLimm o) s = .next (s.gives (.pred o.d.toNat) (if a.toInt < o.imm.toInt then BitVec.allOnes 64 else 0)))) ∧
  (∀ (s : State) (d a : BitVec 6) (b : BitVec 5) (v : W64),
    let p (n : Nat) : W64 := s.me.readPred s.cur.op n
    (s.Free (.pred d.toNat) →
      exec (.pand d a b) s = .next (s.gives (.pred d.toNat) (p a.toNat &&& p b.toNat)) ∧
      exec (.por d a b) s = .next (s.gives (.pred d.toNat) (p a.toNat ||| p b.toNat)) ∧
      exec (.pxor d a b) s = .next (s.gives (.pred d.toNat) (p a.toNat ^^^ p b.toNat)) ∧
      exec (.pnot d a) s = .next (s.gives (.pred d.toNat) (~~~ p a.toNat)) ∧
      (s.Has true a v →
        exec (.pmovp d a) s = .next (s.gives (.pred d.toNat) v) ∧
        ∃ m, exec (.pseta d a) s = .next (s.gives (.pred d.toNat) m) ∧ ∀ j, j < 64 → m.getLsbD j = decide (j < v.toNat))) ∧
    (s.Free (.reg d.toNat) → exec (.pmovs d a) s = .next (s.gives (.reg d.toNat) (p a.toNat))))

/-- R15, R99: an op whose guard is clear changes no register, sends nothing and is done, whatever its sources. R13, R28: with its guard enabling it, an op
whose first source is empty waits at the head of its slot, unchanged, where its block bit is 1; where it is 0 and nothing else makes it wait, fault
0x06 is raised with the register in DETAIL (R393).
R12: s0 reads 0 in every state, and a result for s0 is discarded. R11, R13, R31: a result lands where it belongs: in the register or predicate it
names where its op opened no result at issue, in the result its issue opened otherwise; and every other register and predicate keeps its value. -/
def Obligations.GuardsAndResults : Prop :=
  ((∀ (s : State) (o : SR), ¬ s.Guarded o.g →
    ∀ i ∈ [Instr.add o, .sub o, .and o, .or o, .xor o, .shl o, .shr o, .sar o, .mul o, .mulh o, .mulhz o, .div o, .divz o, .rem o, .remz o, .min o, .max o,
           .minz o, .maxz o, .cmpeq o, .cmpne o, .cmplt o, .cmple o, .cmpltz o, .cmplez o],
      exec i s = .next (s.doneWith s.me [])) ∧
  (∀ (s : State) (o : SR1), ¬ s.Guarded o.g → ∀ i ∈ [Instr.bcnt o, .clz o, .ctz o], exec i s = .next (s.doneWith s.me [])) ∧
  (∀ (s : State) (o : SR), s.Guarded o.g →
    ∀ i ∈ [Instr.add o, .sub o, .and o, .or o, .xor o, .shl o, .shr o, .sar o, .mul o, .mulh o, .mulhz o, .div o, .divz o, .rem o, .remz o, .min o, .max o,
           .minz o, .maxz o, .sel o, .cmpeq o, .cmpne o, .cmplt o, .cmple o, .cmpltz o, .cmplez o],
      (s.Awaits o.ba o.a → exec i s = .next (s.requeue i)) ∧
      (∀ c d, s.me.readReg s.cur.op o.ba o.a.toNat = .fault c d → c = 0x06 ∧ d = 0x40 + o.a.toNat ∧ exec i s = .next (s.raise 0x06 d 0))) ∧
  (∀ (k : Core) (p : SlipOp) (r : Nat) (q : Pend), r ≠ 0 → Tab.findL p.caps r = none → pendFor k.pend (.reg r) k.bundleNo = some q → q.val = none → q.fe = true →
    k.readReg p true r = .wait ∧ (p.single = false → k.readReg p false r = .fault 0x06 (0x40 + r)))) ∧
  ((∀ (k : Core) (p : SlipOp) (block : Bool) (v : W64),
    k.readReg p block 0 = .val 0 ∧ k.base (.reg 0) = 0 ∧ k.setBase (.reg 0) v = k ∧ (p.tk = none → k.result p (.reg 0) v = k)) ∧
  (∀ (k : Core) (p : SlipOp) (d e : Dst) (v : W64),
    Landed (k.result p d v) p d v ∧ (e ≠ d → (k.result p d v).base e = k.base e) ∧
    ((k.result p d v).pend.map (fun q => (q.tk, q.dst, q.vis, q.fe)) = k.pend.map (fun q => (q.tk, q.dst, q.vis, q.fe)))))

/-- The frame of the scalar ops with a register or predicate result: when one of them answers a next state and takes no trap, only the
running core and what is in flight differ, that core only in registers, predicates and results to come, in the divide that its divider serves, in
its slots where the op waits, and in readers of queue entries; so every flag, every system register, every accumulator, and every byte of every memory is as before. -/
def Obligations.ScalarOpFrame : Prop :=
  ∀ (s t : State) (o : SR) (o1 : SR1) (oi : SI) (ol : SIL) (d a : BitVec 6) (b : BitVec 5) (i13 : BitVec 13) (i32 : BitVec 32),
    ∀ i ∈ [Instr.add o, .sub o, .and o, .or o, .xor o, .shl o, .shr o, .sar o, .mul o, .mulh o, .mulhz o, .div o, .divz o, .rem o, .remz o, .min o, .max o,
           .minz o, .maxz o, .sel o, .cmpeq o, .cmpne o, .cmplt o, .cmple o, .cmpltz o, .cmplez o, .bcnt o1, .clz o1, .ctz o1, .addi oi, .andi oi, .ori oi,
           .xori oi, .shli oi, .shri oi, .sari oi, .muli oi, .movh oi, .cmpeqi oi, .cmplti oi, .addiLimm ol, .andiLimm ol, .oriLimm ol, .xoriLimm ol,
           .shliLimm ol, .shriLimm ol, .sariLimm ol, .muliLimm ol, .movhLimm ol, .cmpeqiLimm ol, .cmpltiLimm ol, .movl d i13, .movlLimm d i32,
           .pand d a b, .por d a b, .pxor d a b, .pnot d a, .pmovs d a, .pmovp d a, .pseta d a],
      exec i s = .next t → s.NoTrap t →
      State.coreOnly s t s.cur.core ∧
      Core.regsOnly { s.me with slots := (t.core s.cur.core).slots } (t.core s.cur.core) ∧
      ∀ sp x, t.byteAt sp x = s.byteAt sp x

/-! ## Loads, stores, full/empty words, atomics -/

/-- R109, R108, R12, R13, R112: with its base register at a value, its checks passed and nothing to wait for, LDS loads the bytes that the core sees at
EA, extended as its size says, into a destination that is empty meanwhile. R233, R388: LDFF does so for a full word, and so does LDF, which on a control core and in
handler mode makes the word empty at once. -/
def Obligations.ScratchpadLoads : Prop :=
  (∀ (s : State) (o : SM) (x : W64), s.Has o.ba o.a x →
    let n := accessBytes o.size
    let ea := x + o.off.signExtend 64 * BitVec.ofNat 64 n
    s.SpadOk ea n → s.SpadReady ea n → exec (.lds o) s = .next (s.later o.d.toNat (loadValue o.size (s.me.spadRead s.cur.op ea.toNat n)))) ∧
  (∀ (s : State) (o : SMX) (x : W64), s.Has o.ba o.a x →
    let n := accessBytes o.size
    let ea := x + o.off.signExtend 64
    s.SpadOk ea n → s.SpadReady ea n → exec (.ldsOff32 o) s = .next (s.later o.d.toNat (loadValue o.size (s.me.spadRead s.cur.op ea.toNat n)))) ∧
  (∀ (s : State) (o : SF) (x : W64), s.Has o.ba o.a x →
    let ea := x + o.off.signExtend 64 * 8
    s.SpadOk ea 8 → s.SpadReady ea 8 → s.me.wordFull (ea.toNat / 8) = true →
      let v := BitVec.ofNat 64 (leNat (s.me.spadRead s.cur.op ea.toNat 8))
      exec (.ldff o) s = .next (s.later o.d.toNat v) ∧
      (¬ s.Holding →
        exec (.ldf o) s = .next ((s.later o.d.toNat v).modCore s.cur.core (fun k => (k.readersDone s.cur.op.srcs).setFull (ea.toNat / 8) false)))) ∧
  (∀ (s : State) (o : SFX) (x : W64), s.Has o.ba o.a x →
    let ea := x + o.off.signExtend 64
    s.SpadOk ea 8 → s.SpadReady ea 8 → s.me.wordFull (ea.toNat / 8) = true →
      let v := BitVec.ofNat 64 (leNat (s.me.spadRead s.cur.op ea.toNat 8))
      exec (.ldffOff32 o) s = .next (s.later o.d.toNat v) ∧
      (¬ s.Holding →
        exec (.ldfOff32 o) s = .next ((s.later o.d.toNat v).modCore s.cur.core (fun k => (k.readersDone s.cur.op.srcs).setFull (ea.toNat / 8) false))))

/-- R111, R234: on a tile core in normal mode STS, STE and STG write no memory: with their checks passed, their bytes are withheld, in an entry of their line and
of their interval; LDF withholds the change of its word, and its value is on its way. Each needs an open entry of its line or fewer than 256 entries
in the buffer, and raises fault 0x08 with DETAIL 0x01 without. R388: on a control core and in handler mode the write of an STG is sent as it executes. -/
def Obligations.StoresAreWithheld : Prop :=
  (∀ (s : State) (o : SM) (ox : SMX) (x v : W64), s.Has o.ba o.a x → s.Has true o.d v → s.Has ox.ba ox.a x → s.Has true ox.d v → s.Holding →
    let n := accessBytes o.size
    let m := accessBytes ox.size
    let ea := x + o.off.signExtend 64 * BitVec.ofNat 64 n
    let eb := x + ox.off.signExtend 64
    (s.SpadOk ea n →
      (s.StoreRoom false ea.toNat → ∃ t, exec (.sts o) s = .next t ∧ s.Withholds t false (cellsAt ea.toNat (leBytes n v.toNat))) ∧
      (¬ s.StoreRoom false ea.toNat → exec (.sts o) s = .next (s.raise 0x08 0x01 0))) ∧
    (s.SpadOk eb m →
      (s.StoreRoom false eb.toNat → ∃ t, exec (.stsOff32 ox) s = .next t ∧ s.Withholds t false (cellsAt eb.toNat (leBytes m v.toNat))) ∧
      (¬ s.StoreRoom false eb.toNat → exec (.stsOff32 ox) s = .next (s.raise 0x08 0x01 0)))) ∧
  (∀ (s : State) (o : SM) (ox : SMX) (x v : W64) (pa : Nat), s.Has o.ba o.a x → s.Has true o.d v → s.Has ox.ba ox.a x → s.Has true ox.d v →
    let n := accessBytes o.size
    let m := accessBytes ox.size
    (s.Maps (x + o.off.signExtend 64 * BitVec.ofNat 64 n) .w n pa → pa % n = 0 →
      (s.Holding → s.StoreRoom true pa → ∃ t, exec (.stg o) s = .next t ∧ s.Withholds t true (cellsAt pa (leBytes n v.toNat))) ∧
      (s.Holding → ¬ s.StoreRoom true pa → exec (.stg o) s = .next (s.raise 0x08 0x01 0)) ∧
      (¬ s.Holding → ∃ t, exec (.stg o) s = .next t ∧ s.SendsStore t pa (cellsAt pa (leBytes n v.toNat)))) ∧
    (s.Maps (x + ox.off.signExtend 64) .w m pa → pa % m = 0 →
      (s.Holding → s.StoreRoom true pa → ∃ t, exec (.stgOff32 ox) s = .next t ∧ s.Withholds t true (cellsAt pa (leBytes m v.toNat))) ∧
      (s.Holding → ¬ s.StoreRoom true pa → exec (.stgOff32 ox) s = .next (s.raise 0x08 0x01 0)) ∧
      (¬ s.Holding → ∃ t, exec (.stgOff32 ox) s = .next t ∧ s.SendsStore t pa (cellsAt pa (leBytes m v.toNat))))) ∧
  (∀ (s : State) (o : SF) (ox : SFX) (x v : W64), s.Has o.ba o.a x → s.Has true o.d v → s.Has ox.ba ox.a x → s.Has true ox.d v → s.Holding →
    let ea := x + o.off.signExtend 64 * 8
    let eb := x + ox.off.signExtend 64
    let newest (a : W64) : Prop := ∀ it ∈ s.me.items, ∀ g l b f w, it.kind = .store g l b f w → ∀ y ∈ f, y.2.1 = a.toNat / 8 → y.1 < s.cur.op.place s.me
    let loaded (i : Instr) (d : BitVec 6) (a : W64) : Prop := ∃ t, exec i s = .next t ∧ s.Withholds t false [] ∧
      (newest a → (t.core s.cur.core).wordFull (a.toNat / 8) = false) ∧
      Ev.scalarResultArrival s.cur.core (s.me.feTicket s.cur.op d.toNat).1 (BitVec.ofNat 64 (leNat (s.me.spadRead s.cur.op a.toNat 8))) ∈ t.clk.pending
    let room (a : W64) : Prop := s.StoreRoom false a.toNat ∧ (s.cur.op.seq ≠ 0 ∨ s.me.entryCount < 256)
    (s.SpadOk ea 8 →
      (s.me.wordFull (ea.toNat / 8) = false → s.StoreRoom false ea.toNat →
        ∃ t, exec (.ste o) s = .next t ∧ s.Withholds t false (cellsAt ea.toNat (leBytes 8 v.toNat))) ∧
      (s.me.wordFull (ea.toNat / 8) = false → ¬ s.StoreRoom false ea.toNat → exec (.ste o) s = .next (s.raise 0x08 0x01 0)) ∧
      (s.me.wordFull (ea.toNat / 8) = true → s.SpadReady ea 8 → room ea → loaded (.ldf o) o.d ea) ∧
      (s.me.wordFull (ea.toNat / 8) = true → s.SpadReady ea 8 → ¬ s.StoreRoom false ea.toNat → exec (.ldf o) s = .next (s.raise 0x08 0x01 0))) ∧
    (s.SpadOk eb 8 →
      (s.me.wordFull (eb.toNat / 8) = false → s.StoreRoom false eb.toNat →
        ∃ t, exec (.steOff32 ox) s = .next t ∧ s.Withholds t false (cellsAt eb.toNat (leBytes 8 v.toNat))) ∧
      (s.me.wordFull (eb.toNat / 8) = false → ¬ s.StoreRoom false eb.toNat → exec (.steOff32 ox) s = .next (s.raise 0x08 0x01 0)) ∧
      (s.me.wordFull (eb.toNat / 8) = true → s.SpadReady eb 8 → room eb → loaded (.ldfOff32 ox) ox.d eb) ∧
      (s.me.wordFull (eb.toNat / 8) = true → s.SpadReady eb 8 → ¬ s.StoreRoom false eb.toNat → exec (.ldfOff32 ox) s = .next (s.raise 0x08 0x01 0))))

/-- R111, R233, R388: on a control core, and in handler mode, STS and STE write their bytes to the scratchpad as they execute; STE, which needs an empty
word, makes it full.
R109, R233: the checks of an access of LDS, STS, LDF, LDFF and STE in their order: misaligned 0x09; at or above the scratchpad's end (R194 on a control
core) 0x0A; past the declared bytes 0x07, with DETAIL 4; the EA is the address reported. -/
def Obligations.ScratchpadStoresAtOnce : Prop :=
  ((∀ (s : State) (o : SM) (x v : W64), s.Has o.ba o.a x → s.Has true o.d v → ¬ s.Holding →
    let n := accessBytes o.size
    let ea := x + o.off.signExtend 64 * BitVec.ofNat 64 n
    s.SpadOk ea n → exec (.sts o) s = .next (s.doneWith { s.me with spad := s.me.spad.writeN ea.toNat (leBytes n v.toNat) } [])) ∧
  (∀ (s : State) (o : SMX) (x v : W64), s.Has o.ba o.a x → s.Has true o.d v → ¬ s.Holding →
    let n := accessBytes o.size
    let ea := x + o.off.signExtend 64
    s.SpadOk ea n → exec (.stsOff32 o) s = .next (s.doneWith { s.me with spad := s.me.spad.writeN ea.toNat (leBytes n v.toNat) } [])) ∧
  (∀ (s : State) (o : SF) (x v : W64), s.Has o.ba o.a x → s.Has true o.d v → ¬ s.Holding →
    let ea := x + o.off.signExtend 64 * 8
    s.SpadOk ea 8 → s.me.wordFull (ea.toNat / 8) = false →
      exec (.ste o) s = .next (s.doneWith (Core.setFull { s.me with spad := s.me.spad.writeN ea.toNat (leBytes 8 v.toNat) } (ea.toNat / 8) true) [])) ∧
  (∀ (s : State) (o : SFX) (x v : W64), s.Has o.ba o.a x → s.Has true o.d v → ¬ s.Holding →
    let ea := x + o.off.signExtend 64
    s.SpadOk ea 8 → s.me.wordFull (ea.toNat / 8) = false →
      exec (.steOff32 o) s = .next (s.doneWith (Core.setFull { s.me with spad := s.me.spad.writeN ea.toNat (leBytes 8 v.toNat) } (ea.toNat / 8) true) [])) ∧
  (∀ (s : State) (o : SM) (ox : SMX) (e : SF) (ex : SFX) (x v : W64), s.Has o.ba o.a x → s.Has true o.d v → s.Has ox.ba ox.a x → s.Has true ox.d v → s.Has e.ba e.a x → s.Has true e.d v →
    s.Has ex.ba ex.a x → s.Has true ex.d v → ¬ s.Holding → s.me.spad.cells.wf = true →
    let c := s.cur.core
    let only (i : Instr) (ea : W64) (n : Nat) : Prop := ∃ t, exec i s = .next t ∧ (∀ a, t.byteAt (.spad c) a = laid (cellsAt ea.toNat (leBytes n v.toNat)) a (s.byteAt (.spad c) a)) ∧
      (∀ sp a, sp ≠ .spad c → t.byteAt sp a = s.byteAt sp a) ∧ (t.core c).regs = s.me.regs ∧ (t.core c).preds = s.me.preds ∧ (t.core c).sys = s.me.sys ∧ (t.core c).acc = s.me.acc ∧
      (t.core c).handler = s.me.handler ∧ ∀ d, d ≠ c → t.core d = s.core d
    let n := accessBytes o.size
    let m := accessBytes ox.size
    (s.SpadOk (x + o.off.signExtend 64 * BitVec.ofNat 64 n) n → only (.sts o) (x + o.off.signExtend 64 * BitVec.ofNat 64 n) n) ∧
    (s.SpadOk (x + ox.off.signExtend 64) m → only (.stsOff32 ox) (x + ox.off.signExtend 64) m) ∧
    (s.SpadOk (x + e.off.signExtend 64 * 8) 8 → s.me.wordFull ((x + e.off.signExtend 64 * 8).toNat / 8) = false → only (.ste e) (x + e.off.signExtend 64 * 8) 8) ∧
    (s.SpadOk (x + ex.off.signExtend 64) 8 → s.me.wordFull ((x + ex.off.signExtend 64).toNat / 8) = false → only (.steOff32 ex) (x + ex.off.signExtend 64) 8))) ∧
  (∀ (s : State) (o : SM) (ox : SMX) (e : SF) (ex : SFX) (x v : W64), s.Has o.ba o.a x → s.Has true o.d v → s.Has ox.ba ox.a x → s.Has true ox.d v →
    s.Has e.ba e.a x → s.Has true e.d v → s.Has ex.ba ex.a x → s.Has true ex.d v →
    let checked (i : Instr) (ea : W64) (n : Nat) : Prop :=
      (ea.toNat % n ≠ 0 → exec i s = .next (s.raise 0x09 0 ea)) ∧
      (ea.toNat % n = 0 → spadSize s.cur.core ≤ ea.toNat → exec i s = .next (s.raise 0x0A 0 ea)) ∧
      (ea.toNat % n = 0 → ea.toNat < spadSize s.cur.core → s.me.limSpad < ea.toNat + n → exec i s = .next (s.raise 0x07 4 ea))
    (∀ i ∈ [Instr.lds o, .sts o], checked i (x + o.off.signExtend 64 * BitVec.ofNat 64 (accessBytes o.size)) (accessBytes o.size)) ∧
    (∀ i ∈ [Instr.ldsOff32 ox, .stsOff32 ox], checked i (x + ox.off.signExtend 64) (accessBytes ox.size)) ∧
    (∀ i ∈ [Instr.ldf e, .ldff e, .ste e], checked i (x + e.off.signExtend 64 * 8) 8) ∧
    (∀ i ∈ [Instr.ldfOff32 ex, .ldffOff32 ex, .steOff32 ex], checked i (x + ex.off.signExtend 64) 8))

/-- R111: a core's later reads of its own scratchpad return the withheld bytes: with a store the latest in program order that it withholds there, a
later op reads the stored bytes, and every byte that no store withholds as it stands in the scratchpad. -/
def Obligations.CoreSeesItsOwnStores : Prop :=
  ∀ (k : Core) (p : SlipOp) (a n : Nat), (k.spadRead p a n).length = n ∧
    ∀ i, i < n →
      ((∀ w ∈ k.withheld false, w.2.1 ≠ a + i ∨ p.place k ≤ w.1) → (k.spadRead p a n)[i]? = some (k.spad.read (a + i))) ∧
      (∀ w ∈ k.withheld false, w.2.1 = a + i → w.1 < p.place k → (∀ u ∈ k.withheld false, u.2.1 = a + i → u.1 < p.place k → u.1 < w.1 ∨ u = w) →
        (k.spadRead p a n)[i]? = some w.2.2)

/-- R110, R111, R112, R244: with its base register at a value and its address translated, LDG answers a next state in which the load is under way: its
destination is empty; where the core withholds every byte, or holds the line in its L1 with no access of its own to the line on its way, the value
is on its way, the withheld bytes laid over the line's; otherwise a read of the bytes is on its way, which the core counts. -/
def Obligations.GlobalLoads : Prop :=
  ∀ (s : State) (o : SM) (ox : SMX) (x : W64) (pa : Nat), s.Has o.ba o.a x → s.Has ox.ba ox.a x →
    (s.Maps (x + o.off.signExtend 64 * BitVec.ofNat 64 (accessBytes o.size)) .r (accessBytes o.size) pa →
      ∃ t, exec (.ldg o) s = .next t ∧ s.GlobalLoad t o.d o.size pa) ∧
    (s.Maps (x + ox.off.signExtend 64) .r (accessBytes ox.size) pa → ∃ t, exec (.ldgOff32 ox) s = .next t ∧ s.GlobalLoad t ox.d ox.size pa)

/-- R237: the new value of an atomic's location for each integer AOP, at 4 and 8 bytes.
R238, R239, R240, R241: on a tile core in normal mode an atomic past its checks is held, with its operands, at its place; ATOM and ATOMG leave their
destination empty, RADD returns nothing; no memory changes. R388: on a control core and in handler mode an ATOM on the core's own scratchpad is performed as it
executes, and its old value is on its way; a remote one and a global one that pass the bridge gates (R447) are on their way to their target, and the core counts them. -/
def Obligations.AtomicOperations : Prop :=
  (∀ (z : BitVec 3) (l v c : Nat), atomSizeOk z = true →
    let w := 8 * accessBytes z
    let sg (x : Nat) : Int := if x < 2 ^ (w - 1) then (x : Int) else (x : Int) - 2 ^ w
    l < 2 ^ w → v < 2 ^ w → c < 2 ^ w →
      atomNew 0 z l v c = v ∧ atomNew 1 z l v c = (if l = c then v else l) ∧ atomNew 2 z l v c = (l + v) % 2 ^ w ∧
      atomNew 3 z l v c = l &&& v ∧ atomNew 4 z l v c = l ||| v ∧ atomNew 5 z l v c = l ^^^ v ∧
      sg (atomNew 6 z l v c) = min (sg l) (sg v) ∧ sg (atomNew 7 z l v c) = max (sg l) (sg v) ∧
      atomNew 8 z l v c = min l v ∧ atomNew 9 z l v c = max l v) ∧
  (∀ (s : State) (o : SA) (x v c : W64) (pa : Nat), s.Has o.ba o.a x → s.Has o.bv o.v v → (o.aop = 1#4 → s.Has o.bc o.c c) → atomSizeOk o.size = true →
    let n := accessBytes o.size
    let ea := x + o.off.signExtend 64 * BitVec.ofNat 64 n
    let held (i : Instr) (ret : Bool) (at_ : Nat) : Prop :=
      ∃ t it g a, exec i s = .next t ∧ it ∈ (t.core s.cur.core).items ∧ (s.cur.op.seq ≠ 0 → it.seq = s.cur.op.seq) ∧ it.kind = .atom g a ∧ a.pa = at_ ∧
        a.ea = ea ∧ a.v = v ∧ a.c = (if o.aop = 1#4 then c else 0) ∧ a.aop = o.aop.toNat ∧ a.size = o.size ∧ a.tk.isSome = ret ∧
        (∀ sp y, t.byteAt sp y = s.byteAt sp y) ∧
        (∀ tk, a.tk = some tk → s.cur.op.tk = none → ∃ q ∈ (t.core s.cur.core).pend, q.tk = tk ∧ q.dst = .reg o.d.toNat ∧ q.fe = true ∧ q.val = none)
    let sent (i : Instr) (ret : Bool) (at_ dst : Nat) (b : AtomReq → DirBody) : Prop :=
      ∃ t p a, exec i s = .next t ∧ t.OnWay (.directedPacketPerform p) ∧ p.body = b a ∧ p.src = dieOf s.cur.core ∧ p.dst = dst ∧ a.core = s.cur.core ∧ a.pa = at_ ∧
        a.ea = ea ∧ a.v = v ∧ a.c = (if o.aop = 1#4 then c else 0) ∧ a.aop = o.aop.toNat ∧ a.size = o.size ∧ a.tk.isSome = ret ∧ (∃ y ∈ (t.core s.cur.core).sent, y.id = a.id ∧ y.kind = 2) ∧
        ∀ sp y, t.byteAt sp y = s.byteAt sp y
    let p := s.partOf s.cur.core
    (¬ s.Holding → o.rem = true → ea.toNat % n = 0 → saTarget o ≠ s.cur.core → s.partOf (saTarget o) = p → s.gateOk p (nodeOf (saTarget o)) none = true →
      sent (.atom o) true ea.toNat (dieOf (saTarget o)) .atom) ∧
    (¬ s.Holding → s.Maps ea .rw n pa → s.gateOk p (.slice (s.ownerDie pa) (s.homeSlice ((s.windowPart pa).getD p) (s.ownerDie pa) pa)) (some pa) = true →
      sent (.atomg o) true pa (s.ownerDie pa) .atomg ∧ sent (.radd o) false pa (s.ownerDie pa) .atomg) ∧
    (o.rem = false → s.SpadOk ea n → ¬ s.Holding → s.me.spad.cells.wf = true →
      let old := s.me.spad.readN ea.toNat n
      ∃ t, exec (.atom o) s = .next t ∧
        (∀ y, t.byteAt (.spad s.cur.core) y =
          laid (cellsAt ea.toNat (leBytes n (atomNew o.aop.toNat o.size (leNat old) v.toNat (if o.aop = 1#4 then c.toNat else 0)))) y (s.byteAt (.spad s.cur.core) y)) ∧
        Ev.atomicResultArrival s.cur.core (s.me.feTicket s.cur.op o.d.toNat).1 (loadValue o.size old) [] ∈ t.clk.pending) ∧
    (s.Holding → o.rem = false → s.SpadOk ea n → held (.atom o) true ea.toNat) ∧
    (s.Holding → o.rem = true → ea.toNat % n = 0 → saTarget o ≠ s.cur.core → s.partOf (saTarget o) = s.partOf s.cur.core → held (.atom o) true ea.toNat) ∧
    (s.Holding → s.Maps ea .rw n pa → held (.atomg o) true pa ∧ held (.radd o) false pa))

/-! ## Control transfer, NOP, exceptions, system registers -/

/-- R131: NOP is done and changes nothing. R389: TRAP raises fault 0x1A with its number as DETAIL. ERET in handler mode leaves it for TRST or TPC and restores
nothing else; in normal mode it raises fault 0x04.
R113 to R117, R34, R120, R84: a taken BR or CALL goes to the bundle's address plus four times the displacement, JR to its register's value: at once in a
single-op bundle, after the delay bundle in a wide one; the loop engine goes idle; a taken CALL puts the link value, which its op carries, into s63.
A transfer that is not taken changes nothing. JR to an address that is no multiple of 4 raises fault 0x09. -/
def Obligations.ControlTransfers : Prop :=
  (∀ (s : State) (n : BitVec 8) (tgt : Bool),
    exec .nop s = .next (s.doneWith s.me []) ∧
    exec (.trap n) s = .next (s.raise 0x1A n.toNat 0) ∧
    (s.me.handler = false → exec (.eret tgt) s = .next (s.raise 0x04 0 0)) ∧
    (s.me.handler = true → ∃ t, exec (.eret tgt) s = .next t ∧ (t.core s.cur.core).handler = false ∧
      (t.core s.cur.core).pc = (if tgt then s.me.sys.tpc else s.me.sys.trst) ∧ (t.core s.cur.core).sys = s.me.sys ∧
      (t.core s.cur.core).regs = s.me.regs ∧ (t.core s.cur.core).preds = s.me.preds ∧ ∀ sp a, t.byteAt sp a = s.byteAt sp a)) ∧
  ((∀ (s : State) (o : SB),
    let tgt := s.cur.op.pc + BitVec.ofInt 64 (o.disp.toInt * 4)
    let taken : Prop := o.g = 31#5 ∨ (s.me.guard s.cur.op o.g.toNat = true ↔ o.n = false)
    (taken → ∃ t, exec (.br o) s = .next t ∧ (t.core s.cur.core).loop.act = false ∧
      (s.cur.op.single = true → (t.core s.cur.core).pc = tgt ∧ (t.core s.cur.core).target = none) ∧
      (s.cur.op.single = false → (t.core s.cur.core).pc = s.me.pc ∧ (t.core s.cur.core).target = some tgt)) ∧
    (taken → ∃ t, exec (.call o) s = .next t ∧ (t.core s.cur.core).loop.act = false ∧ (t.core s.cur.core).base (.reg 63) = s.cur.op.next ∧
      (∀ p ∈ (t.core s.cur.core).pend, p.dst = .reg 63 → p.dead = true) ∧
      (s.cur.op.single = true → (t.core s.cur.core).pc = tgt ∧ (t.core s.cur.core).target = none) ∧
      (s.cur.op.single = false → (t.core s.cur.core).pc = s.me.pc ∧ (t.core s.cur.core).target = some tgt)) ∧
    (¬ taken → exec (.br o) s = .next (s.doneWith s.me []) ∧ exec (.call o) s = .next (s.doneWith s.me []))) ∧
  (∀ (s : State) (ba : Bool) (a : BitVec 6) (g : BitVec 5) (v : W64), s.Has ba a v →
    (s.Guarded g → v.toNat % 4 = 0 → ∃ t, exec (.jr ba a g) s = .next t ∧ (t.core s.cur.core).loop.act = false ∧
      (s.cur.op.single = true → (t.core s.cur.core).pc = v ∧ (t.core s.cur.core).target = none) ∧
      (s.cur.op.single = false → (t.core s.cur.core).pc = s.me.pc ∧ (t.core s.cur.core).target = some v)) ∧
    (s.Guarded g → v.toNat % 4 ≠ 0 → exec (.jr ba a g) s = .next (s.raise 0x09 0 v)) ∧
    (¬ s.Guarded g → exec (.jr ba a g) s = .next (s.doneWith s.me []))))

/-- R119, R120, R418: a LOOP with a trip count N that is not 0 starts the engine: ACT, LC = N - 1 (0 where a drain request stands, which keeps N - 1), S, II, START
the bundle that follows, END; p16 all ones and the other stage predicates 0; the body is next. With N = 0 the engine stays idle, the stage predicates are 0
and the bundle after the one at END is next, once that one can be fetched. While a loop runs LOOP raises fault 0x04. The rotation at END: each stage
predicate takes what the one below it holds at that moment, p16 all ones while iterations are left; with every stage 0 the engine goes idle and the bundle after
END is next (where no drain request stands), otherwise START. -/
def Obligations.LoopEngine : Prop :=
  (∀ (s : State) (o : SL) (v : W64), s.Has o.ba o.a v →
    (s.me.loop.act = true → exec (.loop o) s = .next (s.raise 0x04 0 0)) ∧
    (s.me.loop.act = false → v.toNat % 2 ^ 32 = 0 → ∀ next, s.after s.cur.core (s.cur.op.pc + BitVec.ofNat 64 (o.imm.toNat * 4)) = .ok next →
      ∃ t, exec (.loop o) s = .next t ∧ (t.core s.cur.core).loop.act = false ∧ (t.core s.cur.core).pc = next ∧
        (∀ j, j ≤ o.sm1.toNat → (t.core s.cur.core).base (.pred (16 + j)) = 0) ∧
        (∀ n, (t.core s.cur.core).base (.reg n) = s.me.base (.reg n)) ∧ ∀ sp a, t.byteAt sp a = s.byteAt sp a) ∧
    (s.me.loop.act = false → v.toNat % 2 ^ 32 ≠ 0 →
      ∃ t, exec (.loop o) s = .next t ∧
        (∀ w, s.me.item = some w → w.drain.isSome = true → (t.core s.cur.core).item = some { w with drain := some (v.toNat % 2 ^ 32 - 1) }) ∧
        (t.core s.cur.core).loop = { act := true, lc := if (s.me.item.bind (·.drain)).isSome then 0 else v.toNat % 2 ^ 32 - 1, s := o.sm1.toNat + 1, ii := o.ii.toNat, start := s.cur.op.next,
                                     end_ := s.cur.op.pc + BitVec.ofNat 64 (o.imm.toNat * 4) } ∧
        (t.core s.cur.core).pc = s.cur.op.next ∧ (t.core s.cur.core).base (.pred 16) = BitVec.allOnes 64 ∧
        (∀ j, 1 ≤ j → j ≤ o.sm1.toNat → (t.core s.cur.core).base (.pred (16 + j)) = 0) ∧
        (∀ n, (t.core s.cur.core).base (.reg n) = s.me.base (.reg n)) ∧ ∀ sp a, t.byteAt sp a = s.byteAt sp a)) ∧
  (∀ (k : Core) (after : W64), 1 ≤ k.loop.s → k.loop.s ≤ 8 → k.item.bind (·.drain) = none →
    let j := (k.rotate after).1
    let p (c : Core) (i : Nat) : W64 := c.base (.pred (16 + i))
    (∀ i, 1 ≤ i → i < k.loop.s → p j i = k.readPred {} (16 + (i - 1))) ∧ (p j 0 = if k.loop.lc = 0 then 0 else BitVec.allOnes 64) ∧ j.loop.lc = k.loop.lc - 1 ∧
    ((∀ i, i < k.loop.s → p j i = 0) → j.loop.act = false ∧ j.pc = after) ∧
    ((∃ i, i < k.loop.s ∧ p j i ≠ 0) → j.loop.act = k.loop.act ∧ j.pc = k.loop.start))

/-- R386, R130, R195: taking an exception: TCAUSE holds the code, TPC the bundle, TINFO the slot, SINGLE and DETAIL, TADDR the address; the mode becomes handler
mode and the PC is TVEC; nothing else of the core changes but what was to come after the bundle: a branch's target, the bundle that stalls to issue.
R30, R383, R384, R195, R386: a fault of an op begins a trap. On a control core in normal mode with a handler, TRST takes the bundle that follows and the handler
is entered at once. On a tile core (an op of the open interval, no trap yet, no HALT) nothing further issues: the fault is recorded, ops of the interval that
have not started are gone, and the rollback's completion is on its way. -/
def Obligations.ExceptionsAreTaken : Prop :=
  (∀ (k : Core) (f : FaultRec), f.code < 256 → f.detail < 256 → f.slot < 8 →
    let j := k.enterHandler f
    j.sys.tcause.toNat = f.code ∧ j.sys.tpc = f.pc ∧ j.sys.tinfo.toNat = f.detail * 65536 + (if f.single then 8 else 0) + f.slot ∧ j.sys.taddr = f.addr ∧
    j.handler = true ∧ j.pc = k.sys.tvec ∧ j.sys.tvec = k.sys.tvec ∧ j.sys.trst = k.sys.trst ∧
    j = { k with sys := { k.sys with tcause := j.sys.tcause, tpc := j.sys.tpc, tinfo := j.sys.tinfo, taddr := j.sys.taddr }, handler := true, pc := k.sys.tvec, target := none, jumped := false, stall := false }) ∧
  (∀ (s : State) (code detail : Nat) (addr : W64),
    let f : FaultRec := { code := code, detail := detail, addr := addr, pc := s.cur.op.pc, slot := s.cur.slot, single := s.cur.op.single }
    (isCtl s.cur.core = true → s.me.handler = false → s.me.sys.tvec ≠ 0 →
      let j := (s.raise code detail addr).core s.cur.core
      j = Core.enterHandler { s.me with sys := { s.me.sys with trst := s.cur.op.next } } f) ∧
    (isCtl s.cur.core = false → s.me.trap = none → s.me.halting = false → s.me.ival ≤ s.cur.op.ival →
      let t := s.raise code detail addr
      (t.core s.cur.core).trap = some (.fault f) ∧ Ev.rollbackComplete s.cur.core ∈ t.clk.pending ∧
      (∀ p ∈ (t.core s.cur.core).slots.l, ∀ o ∈ p.2, o.ival < s.me.ival) ∧ (t.core s.cur.core).regs = s.me.regs ∧ (t.core s.cur.core).items = s.me.items ∧
      ∀ sp a, t.byteAt sp a = s.byteAt sp a))

/-- R384, R386, R390: a rollback that is complete, of a fault taken in normal mode with a handler: s1 to s63, the predicates, the flags and the loop engine take their
duplicate copies, held items are gone, shadowed tiles take their shadows, local queues their descriptors, OWN counters their copies (where no post is to be applied
again), and then the handler is entered with the fault. -/
def Obligations.RollbackEntersHandler : Prop :=
  ∀ (s : State) (c : Nat) (f : FaultRec), (s.core c).trap = some (.fault f) → (s.core c).handler = false → (s.core c).sys.tvec ≠ 0 →
    s.rollbackReady c = true →
    ∃ t, exec (.rollbackComplete c) s = .next t ∧ (t.core c).trap = none ∧ (t.core c).handler = true ∧ (t.core c).pc = (s.core c).sys.tvec ∧
      (t.core c).sys.tpc = f.pc ∧ (t.core c).sys.taddr = f.addr ∧ (t.core c).sys.tcause = w64 (f.code % 256) ∧ (t.core c).sys.trst = (s.core c).sys.trst ∧
      (t.core c).sys.fflags = (s.core c).dup.fflags ∧ (t.core c).items = [] ∧
      ((s.core c).item.bind (·.drain) = none → (t.core c).loop = (s.core c).dup.loop) ∧
      (t.core c).preds = (s.core c).dup.preds ∧ (t.core c).acc = (s.core c).shadow.l.foldl (fun a x => a.set x.1 x.2) (s.core c).acc ∧
      (∀ q, q < 8 → ((s.core c).dup.queues.get q {}).spl = 0 → { (t.core c).queue q with ents := ⟨[]⟩ } = { (s.core c).dup.queues.get q {} with ents := ⟨[]⟩ }) ∧
      ((s.core c).dup.posts = [] → ∀ n, n < 64 → (t.core c).ctrs.get n {} =
        if ((s.core c).dup.ctrs.get n {}).shared = false ∧ ((s.core c).ctrs.get n {}).shared = false then (s.core c).dup.ctrs.get n {} else (s.core c).ctrs.get n {}) ∧
      ∀ n, 1 ≤ n → n < 64 → (t.core c).base (.reg n) = (s.core c).dup.regs.get n 0

/-- R128: SYSR writes the register it names; R6, R130: SYSW writes the RW fields: FFLAGS and TVEC in either mode, the trap registers in handler mode only; on a control
core SCQUANT, SCAGE, PRFCFG, WDCFG, WQCUR and WQPAS. A write of an RO register changes nothing. R465, R467: HINT posts an interrupt event once a release at system
scope is complete, and waits until then. -/
def Obligations.SystemRegisterAccess : Prop :=
  (∀ (s : State) (d : BitVec 6) (f : BitVec 8), s.Free (.reg d.toNat) → exec (.sysr d f) s = .next (s.gives (.reg d.toNat) (s.sysRead s.cur.core f.toNat))) ∧
  (∀ (s : State) (a : BitVec 6) (f : BitVec 8) (v : W64), s.Has true a v → f ≠ 0x3F#8 →
    let after : State := s.sysWrite s.cur.core f.toNat v
    exec (.sysw a f) s = .next after ∧
    (f = 0x03#8 → after.sysRead s.cur.core 3 = w64 (v.toNat % 32)) ∧
    (f = 0x1C#8 → after.sysRead s.cur.core 0x1C = w64 (v.toNat / 4 * 4)) ∧
    (s.me.handler = true →
      (f = 0x18#8 → after.sysRead s.cur.core 0x18 = w64 (v.toNat % 256)) ∧ (f = 0x19#8 → after.sysRead s.cur.core 0x19 = v) ∧
      (f = 0x1A#8 → after.sysRead s.cur.core 0x1A = v &&& 0xFF000F#64) ∧ (f = 0x1B#8 → after.sysRead s.cur.core 0x1B = v) ∧
      (f = 0x1D#8 → after.sysRead s.cur.core 0x1D = w64 (v.toNat / 4 * 4))) ∧
    (s.me.handler = false → (f = 0x18#8 ∨ f = 0x19#8 ∨ f = 0x1A#8 ∨ f = 0x1B#8 ∨ f = 0x1D#8) → after = s) ∧
    (isCtl s.cur.core = true →
      (f = 0x30#8 → after.sysRead s.cur.core 0x30 = w64 (v.toNat % 2 ^ 32)) ∧ (f = 0x31#8 → after.sysRead s.cur.core 0x31 = w64 (v.toNat % 2 ^ 32)) ∧
      (f = 0x34#8 → after.sysRead s.cur.core 0x34 = w64 (v.toNat % 2 ^ 28)) ∧ (f = 0x36#8 → after.sysRead s.cur.core 0x36 = w64 (v.toNat % 2 ^ 20)) ∧
      (f = 0x37#8 → after.sysRead s.cur.core 0x37 = w64 (v.toNat % 2 ^ 10)) ∧ (f = 0x3D#8 → after.sysRead s.cur.core 0x3D = w64 (v.toNat % 2 ^ 20))) ∧
    (f.toNat ≤ 2 ∨ (4 ≤ f.toNat ∧ f.toNat ≤ 0x12) ∨ (0x20 ≤ f.toNat ∧ f.toNat ≤ 0x21) ∨ f.toNat ∈ [0x32, 0x33, 0x35, 0x38, 0x39, 0x3A, 0x3B, 0x3C, 0x3E] → after = s)) ∧
  (∀ (s : State) (a : BitVec 6) (v : W64), s.Has true a v →
    (s.releaseOk s.cur.core 4 = false → exec (.sysw a 0x3F#8) s = .next (s.requeue (.sysw a 0x3F#8))) ∧
    (s.releaseOk s.cur.core 4 = true → exec (.sysw a 0x3F#8) s =
      .next (s.route (.ctl (dieOf s.cur.core)) (.base 0 25) 3 1 (.interruptEvent (s.partOf (128 + dieOf s.cur.core)) (v.toNat % 2048) (s.fn (s.partOf (128 + dieOf s.cur.core))).rgen))))

/-- R268, R267, R244: FENCE with ACQ waits while a read of the core is outstanding; then the L1 is empty, and at quadrant scope or wider the wait for the die's
clock is over. Its REL is held on a tile core in normal mode as one held command; on a control core and in handler mode it waits for the release (R266), and
is done. Registers and memory keep their values. -/
def Obligations.Fences : Prop :=
  ∀ (s : State) (r q : Bool), r = true ∨ q = true →
    let c := s.cur.core
    let sc := s.cur.op.scope
    let ready : Prop := q = true → s.acquireReady c sc none = true
    let clear : Prop := s.me.loadsBefore (s.cur.op.place s.me) = false ∧ s.releaseOk c sc = true
    let acquired (t : State) : Prop := (q = true → (t.core c).l1 = ⟨[]⟩ ∧ (sc ≠ 0 → (t.core c).rcv = [0, 0, 0, 0])) ∧ (t.core c).regs = s.me.regs ∧
      ∀ sp a, t.byteAt sp a = s.byteAt sp a
    (¬ ready → exec (.fence r q) s = .next (s.requeue (.fence r q))) ∧
    (ready → r = false → ∃ t, exec (.fence r q) s = .next t ∧ acquired t ∧ (t.core c).items = s.me.items) ∧
    (ready → r = true → s.Holding → ∃ t it, exec (.fence r q) s = .next t ∧ acquired t ∧ it ∈ (t.core c).items ∧ it.kind = .fence ∧ it.rel = true ∧ it.scope = sc) ∧
    (ready → r = true → ¬ s.Holding → clear → ∃ t, exec (.fence r q) s = .next t ∧ acquired t ∧ (t.core c).items = s.me.items ∧ (t.core c).slots = s.me.slots)

/-- R324: a post of b bytes to a counter. R327: CTRINIT in OWN mode, and in handler mode in SHARED mode too, arms the counter as it executes and keeps PHASE; in
SHARED mode it is held on a tile core in normal mode, and raises fault 0x04 on a control core, as bits above the byte count do on any. R328: CTRPOST to the
core's own counter posts as it executes; a post that overshoots, or a tentative one to a SHARED counter, raises fault 0x13 (R325). To a counter of a core of
the partition it is a held item on a tile core in normal mode and a packet on its way otherwise; to another partition's it raises fault 0x0E. R330: WAITC
is done when PHASE is the one it names and waits otherwise; its POLL form reads PHASE and COUNT. The core's other counters keep their values. -/
def Obligations.CounterOps : Prop :=
  (∀ (c : Counter) (b : Nat),
    (b = 0 → c.post b = some c) ∧
    (b ≠ 0 → c.count + b < c.expect → c.post b = some { c with count := c.count + b }) ∧
    (b ≠ 0 → c.count + b = c.expect → c.post b = some { c with count := 0, phase := !c.phase }) ∧
    (b ≠ 0 → c.expect < c.count + b → c.post b = none)) ∧
  (∀ (s : State) (a n : BitVec 6) (m : Bool) (v : W64), s.Has true a v →
    let c := s.cur.core
    let own := s.me.ctrs.get n.toNat {}
    (2 ^ 40 ≤ v.toNat ∨ (m = true ∧ isCtl c = true) → exec (.ctrinit a m n) s = .next (s.raise 0x04 0 0)) ∧
    (v.toNat < 2 ^ 40 → m = false ∨ (isCtl c = false ∧ ¬ s.Holding) → ∃ t, exec (.ctrinit a m n) s = .next t ∧
      (t.core c).ctrs.get n.toNat {} = { expect := v.toNat, count := 0, phase := own.phase, shared := m } ∧
      (∀ j, j ≠ n.toNat → (t.core c).ctrs.get j {} = s.me.ctrs.get j {})) ∧
    (v.toNat < 2 ^ 40 → m = true → s.Holding → ∃ t it, exec (.ctrinit a m n) s = .next t ∧ it ∈ (t.core c).items ∧ it.kind = .ctrinit n.toNat v.toNat ∧
      (t.core c).ctrs = s.me.ctrs)) ∧
  (∀ (s : State) (a n : BitVec 6) (v : W64), s.Has true a v → v.toNat < 2 ^ 40 → isCtl s.cur.core = true ∨ n.toNat < s.me.limNctr →
    let c := s.cur.core
    let own := s.me.ctrs.get n.toNat {}
    let at_ : W64 := BitVec.ofNat 64 ((if isCtl c then 1047552 else 4193280) + 16 * n.toNat)
    (∀ x, own.shared = false ∨ isCtl c = true → own.post v.toNat = some x → ∃ t, exec (.ctrpost a n) s = .next t ∧ (t.core c).ctrs.get n.toNat {} = x ∧
      (∀ j, j ≠ n.toNat → (t.core c).ctrs.get j {} = s.me.ctrs.get j {})) ∧
    (own.shared = false ∨ isCtl c = true → own.post v.toNat = none → exec (.ctrpost a n) s = .next (s.raise 0x13 1 at_)) ∧
    (own.shared = true → isCtl c = false → v ≠ 0 → exec (.ctrpost a n) s = .next (s.raise 0x13 3 at_))) ∧
  (∀ (s : State) (a n : BitVec 6) (v : W64), s.Has true a v → v.toNat < 2 ^ 49 → v.getLsbD 47 = true → v.getLsbD 48 = false ∨ v.toNat / 2 ^ 40 % 32 = 0 →
    let c := s.cur.core
    let die := v.toNat / 2 ^ 45 % 4
    let tgt := if v.getLsbD 48 then 128 + die else 32 * die + v.toNat / 2 ^ 40 % 32
    let mine : Prop := if v.getLsbD 48 then s.partOnDie (s.partOf c) die = true else s.partOf tgt = s.partOf c
    let post (p : Post) : Prop := p.tgt = tgt ∧ p.src = c ∧ p.ctr = n.toNat ∧ p.n = v.toNat % 2 ^ 40 ∧ p.part = s.partOf c
    (¬ mine → exec (.ctrpost a n) s = .next (s.raise 0x0E 0 v)) ∧
    (mine → s.Holding → ∃ t it p, exec (.ctrpost a n) s = .next t ∧ it ∈ (t.core c).items ∧ it.kind = .post p ∧ post p ∧ (t.core c).ctrs = s.me.ctrs) ∧
    (mine → ¬ s.Holding → tgt ≠ c → ∃ t d p, exec (.ctrpost a n) s = .next t ∧ t.OnWay (.directedPacketPerform d) ∧ d.body = .post p ∧ post p ∧
      (t.core c).ctrs = s.me.ctrs) ∧
    (mine → ¬ s.Holding → tgt = c → ∃ t p, exec (.ctrpost a n) s = .next t ∧ Ev.counterPost p ∈ t.clk.pending ∧ post p ∧ (t.core c).ctrs = s.me.ctrs)) ∧
  (∀ (s : State) (p : Bool) (d n : BitVec 6),
    let c := s.me.ctrs.get n.toNat {}
    (c.phase = p → exec (.waitc p n) s = .next (s.doneWith s.me [])) ∧ (c.phase ≠ p → exec (.waitc p n) s = .next (s.requeue (.waitc p n))) ∧
    (s.Free (.reg d.toNat) → c.count < 2 ^ 63 →
      exec (.waitcPoll d n) s = .next (s.gives (.reg d.toNat) (BitVec.ofNat 64 (c.count + if c.phase then 2 ^ 63 else 0)))))

/-! ## Queues, splices, layout registers, the range table -/

/-- R123, R124, R125, R126, R127, R16: on a local queue that nothing is still to fill or read, QCFG and QWR (which read no queue) with a descriptor that passes their checks make it
the queue's descriptor; after QCFG every entry is FREE, after QWR those from HEAD to TAIL - 1 are PRESENT and the others FREE. QCFG with zero disables the
queue, QRESET empties it. No other queue changes. While an entry is RESERVED or DRAINING each waits; on a splice end each raises fault 0x14 with DETAIL 4. QRD gives
the whole descriptor, QOCC the entries and those present (at a receiving end only delivered ones, R224), each as at the issue of its bundle. -/
def Obligations.QueueConfiguration : Prop :=
  (∀ (s : State) (a : BitVec 6) (q : BitVec 3) (v : W64), s.cur.op.srcs = [] →
    let u := s.me.queue q.toNat
    let n := v.toNat
    let lg := n / 2 ^ 21 % 16
    let base := n % 2 ^ 14
    let cnt := (n / 2 ^ 48 + 65536 - n / 2 ^ 32 % 65536) % 65536
    let new (t : State) : Queue := (t.core s.cur.core).queue q.toNat
    let others (t : State) : Prop := (∀ j, j ≠ q.toNat → (t.core s.cur.core).queue j = s.me.queue j) ∧ (t.core s.cur.core).regs = s.me.regs ∧
      ∀ sp x, t.byteAt sp x = s.byteAt sp x
    let fits : Prop := v.getLsbD 25 = true ∧ n / 2 ^ 26 % 4 = 0 ∧ n / 2 ^ 14 % 128 = 0 ∧ 1 ≤ lg ∧ lg ≤ 12 ∧ lg ≤ s.me.limLogc q.toNat ∧ n / 2 ^ 28 % 16 ≤ 12 ∧
      base + 2 ^ lg ≤ 16380 ∧ ∀ j, j < 8 → j ≠ q.toNat → (s.me.queue j).en = true → base + 2 ^ lg ≤ (s.me.queue j).base ∨ (s.me.queue j).base + (s.me.queue j).cap ≤ base
    let idle : Prop := u.spl = 0 ∧ ∀ e ∈ u.ents.l, e.2.st ≠ .reserved ∧ e.2.st ≠ .draining
    let busy : Prop := u.spl = 0 ∧ ∃ e ∈ u.ents.l, e.2.st = .reserved ∨ e.2.st = .draining
    let good : Prop := s.Has true a v ∧ fits ∧ n < 2 ^ 32
    let goodRun : Prop := s.Has true a v ∧ u.en = true ∧ fits ∧ cnt ≤ 2 ^ lg
    (good ∨ (s.Has true a v ∧ v = 0) → (busy → exec (.qcfg a q) s = .next (s.requeue (.qcfg a q))) ∧ (u.spl ≠ 0 → exec (.qcfg a q) s = .next (s.raise 0x14 4 0))) ∧
    (u.en = true → (busy → exec (.qreset q) s = .next (s.requeue (.qreset q))) ∧ (u.spl ≠ 0 → exec (.qreset q) s = .next (s.raise 0x14 4 0))) ∧
    (goodRun → (busy → exec (.qwr a q) s = .next (s.requeue (.qwr a q))) ∧ (u.spl ≠ 0 → exec (.qwr a q) s = .next (s.raise 0x14 4 0))) ∧
    (idle → good → ∃ t, exec (.qcfg a q) s = .next t ∧ (new t).desc = v ∧ (∀ i, (new t).ent i = {}) ∧ others t) ∧
    (idle → s.Has true a v → v = 0 → ∃ t, exec (.qcfg a q) s = .next t ∧ (new t).en = false ∧ (new t).desc = 0 ∧ others t) ∧
    (idle → u.en = true → ∃ t, exec (.qreset q) s = .next t ∧ new t = { u with head := 0, tail := 0, ents := ⟨[]⟩ } ∧ others t) ∧
    (idle → goodRun → ∃ t, exec (.qwr a q) s = .next t ∧ (new t).desc = v ∧ others t ∧
      (∀ j, j < cnt → (new t).ent ((new t).head + j) = { st := .present, pres := true }) ∧
      (∀ j, cnt ≤ j → j < 2 ^ lg → (new t).ent ((new t).head + j) = {}))) ∧
  (∀ (s : State) (d : BitVec 6) (q : BitVec 3), s.Free (.reg d.toNat) →
    let u := s.me.queue q.toNat
    let n := if u.spl = 2 then u.cap else u.count
    let here (i : Nat) : Bool := (u.ent i).pres && (u.spl != 2 || decide (1 ≤ (u.tail + 65536 - i % 65536) % 65536 ∧ (u.tail + 65536 - i % 65536) % 65536 ≤ u.cap))
    let present := ((List.range n).filter (fun j => here (u.head + j))).length
    exec (.qrd d q) s = .next (s.gives (.reg d.toNat) (s.cur.op.taken u.desc)) ∧
    (u.en = true → exec (.qocc d q) s = .next (s.gives (.reg d.toNat) (s.cur.op.taken (BitVec.ofNat 64 (present * 65536 + n))))))

/-- R301, R302: LSET with a value that its field takes changes only that field, and LGET reads it; LGET is a field's value, STR sign-extended. LDLAY loads the whole
register from 96 bytes as the core sees them; STLAY withholds its 96 bytes on a tile core in normal mode, where it raises fault 0x08 with DETAIL 0x01 when the
buffer has no room (R111), and writes them as it executes on a control core and in handler mode.
R331, R334: RTSET with a valid operand makes its entry valid with no granule written; RTCLR makes it invalid; other entries keep their values. RTWM gives VALID,
MODE, READY and FILLED. A range beyond the declared bytes raises fault 0x07. -/
def Obligations.LayoutAndRangeOps : Prop :=
  ((∀ (s : State) (a : BitVec 6) (l : BitVec 3) (f : BitVec 5) (v : W64), s.Has true a v → f.toNat ≤ 25 → f.toNat ≠ 7 → layValOk f.toNat v = true →
    let old := s.me.lays.get l.toNat 0
    ∃ t new, exec (.lset a l f) s = .next t ∧ (t.core s.cur.core).lays.get l.toNat 0 = new ∧
      bitsAt new.toNat (layField f.toNat).1 (layField f.toNat).2 = v.toNat % 2 ^ (layField f.toNat).2 ∧
      (∀ b, b < 768 → b < (layField f.toNat).1 ∨ (layField f.toNat).1 + (layField f.toNat).2 ≤ b → new.getLsbD b = old.getLsbD b) ∧
      (∀ m, m ≠ l.toNat → (t.core s.cur.core).lays.get m 0 = s.me.lays.get m 0) ∧ (t.core s.cur.core).regs = s.me.regs ∧ ∀ sp x, t.byteAt sp x = s.byteAt sp x) ∧
  (∀ (s : State) (d : BitVec 6) (l : BitVec 3) (f : BitVec 5), s.Free (.reg d.toNat) → f.toNat ≤ 25 → f.toNat ≠ 7 →
    let w := bitsAt (s.me.lays.get l.toNat 0).toNat (layField f.toNat).1 (layField f.toNat).2
    exec (.lget d l f) s = .next (s.gives (.reg d.toNat)
      (if f.toNat ∈ [9, 12, 15, 18, 21, 24] then BitVec.ofInt 64 (if w < 2 ^ 47 then (w : Int) else w - 2 ^ 48) else BitVec.ofNat 64 w))) ∧
  (∀ (s : State) (a : BitVec 6) (l : BitVec 3) (ea : W64), s.Has true a ea → ea.toNat % 32 = 0 → ea.toNat < spadSize s.cur.core → ea.toNat + 96 ≤ s.me.limSpad →
    (s.SpadReady ea 96 → exec (.ldlay a l) s = .next (s.modCore s.cur.core (fun k =>
      { k with lays := k.lays.set l.toNat (BitVec.ofNat 768 (leNat (k.spadRead s.cur.op ea.toNat 96))) }))) ∧
    let cells := cellsAt ea.toNat (leBytes 96 (s.me.lays.get l.toNat 0).toNat)
    (s.Holding → s.RoomFor false cells → ∃ t, exec (.stlay a l) s = .next t ∧ s.Withholds t false cells) ∧
    (s.Holding → ¬ s.RoomFor false cells → exec (.stlay a l) s = .next (s.raise 0x08 0x01 0)) ∧
    (¬ s.Holding → exec (.stlay a l) s = .next (s.doneWith { s.me with spad := s.me.spad.writeAll cells } [])))) ∧
  (∀ (s : State) (a d : BitVec 6) (e : BitVec 5) (v : W64),
    let st := v.toNat % 2 ^ 23
    let ln := v.toNat / 2 ^ 23 % 2 ^ 23
    let x := s.me.rts.get e.toNat {}
    let ok : Prop := s.Has true a v ∧ st % 256 = 0 ∧ ln % 256 = 0 ∧ 256 ≤ ln ∧ v.toNat < 2 ^ 47
    (ok → st + ln ≤ s.me.limSpad → exec (.rtset a e) s = .next (s.doneWith
      { s.me with rts := s.me.rts.set e.toNat { valid := true, start := st, len := ln, mode := v.getLsbD 46, bytes := [] } } [])) ∧
    (ok → s.me.limSpad < st + ln → ∃ w, exec (.rtset a e) s = .next (s.raise 0x07 4 w)) ∧
    exec (.rtclr e) s = .next (s.doneWith { s.me with rts := s.me.rts.set e.toNat { x with valid := false } } []) ∧
    (s.Free (.reg d.toNat) → exec (.rtwm d e) s = .next (s.gives (.reg d.toNat) (BitVec.ofNat 64
      ((if x.valid then 2 ^ 26 else 0) + (if x.mode then 2 ^ 25 else 0) + (if x.valid && x.ready then 2 ^ 24 else 0) + (if x.valid then x.filled else 0))))))

/-! ## HALT, SYNC, LAUNCH -/

/-- R213, R215: SYNC by a member of an unbroken line arrives and holds; the last member's arrival completes the line; a member that has been restarted is done
with its SYNC. Without a line, on a broken line, and in handler mode SYNC raises fault 0x15, with DETAIL 1, 2 and 3. -/
def Obligations.SyncArrives : Prop :=
  ∀ (s : State) (l : Nat),
    let c := s.cur.core
    let line (t : State) : SyncLine := (t.die (dieOf c)).lines.get l {}
    (s.me.goSync = true → ∃ t, exec .sync s = .next t ∧ (t.core c).goSync = false ∧ (t.core c).arrived = false ∧ t.dies = s.dies ∧ s.coreOnly t c) ∧
    (s.me.goSync = false → s.me.handler = true → exec .sync s = .next (s.raise 0x15 3 0)) ∧
    (s.me.goSync = false → s.me.handler = false → s.me.item.bind (·.line) = none → exec .sync s = .next (s.raise 0x15 1 0)) ∧
    (s.me.goSync = false → s.me.handler = false → s.me.item.bind (·.line) = some l → (line s).broken = true → exec .sync s = .next (s.raise 0x15 2 0)) ∧
    (s.me.goSync = false → s.me.handler = false → s.me.item.bind (·.line) = some l → (line s).broken = false → s.me.arrived = false →
      ∃ t, exec .sync s = .next t ∧ (line t).arrived = (line s).arrived ++ [c] ∧ (t.core c).arrived = true ∧ (t.core c).regs = s.me.regs ∧
        (t.core c).slots.get s.cur.slot [] = { s.cur.op with op := .sync, waits := true } :: s.me.slots.get s.cur.slot [] ∧
        ((line s).arrived.length + 1 = (line s).g → Ev.syncLineComplete (dieOf c) l ∈ t.clk.pending))

/-- R198, R200, R193, R269: LAUNCH on a tile core: with its guard false it does nothing; an address that is no multiple of 64 raises fault 0x09; its record and
then its header are read, and a check that fails raises fault 0x1D with that status; otherwise sd receives HELD and the target die, and the launch is held
as a release on a tile core in normal mode, or submitted in handler mode once its release at package scope is complete.
R198, R199, R202: LAUNCH on a control core: an address beyond the scratchpad raises fault 0x0A; it waits for its release at package scope; then a failed check
gives its status, a header that does not translate status 0x07; with no free entry status 0x01; otherwise the launch takes the lowest free entry of the target die,
READY where no dependence has a kind, else WAITING, and sd receives status 0, the entry and the die. -/
def Obligations.Launches : Prop :=
  (∀ (s : State) (d : BitVec 6) (ba : Bool) (a : BitVec 6) (g : BitVec 5) (v : W64) (pa pb : Nat) (r h : Bytes),
    let c := s.cur.core
    let i := Instr.launch d ba a g
    let hv : W64 := BitVec.ofNat 64 (fieldAt r 0 8)
    let pre := s.launchPre (s.partOf c) (dieOf c) r
    let st := if pre.1 ≠ 0 then pre.1 else s.launchPost (s.partOf c) pre.2 r h
    let word : Ev := .scalarResultArrival c (s.me.feTicket s.cur.op d.toNat).1 (BitVec.ofNat 64 (65536 + pre.2 * 16384))
    (¬ s.Guarded g → exec i s = .next s) ∧
    (s.Guarded g → s.Has ba a v → v.toNat % 64 ≠ 0 → exec i s = .next (s.raise 0x09 0 v)) ∧
    (s.Guarded g → s.Has ba a v → v.toNat % 64 = 0 → isCtl c = false → s.Maps v .r 64 pa → s.rangeBusy c pa 64 = false → s.ReadsMem pa 64 r →
      s.Maps hv .r (if hv.toNat % 128 = 0 then 128 else 1) pb → s.rangeBusy c pb 128 = false → s.ReadsMem pb 128 h →
        (st ≠ 0 → exec i s = .next (s.raise 0x1D st v)) ∧
        (st = 0 → s.Holding → ∃ t it, exec i s = .next t ∧ it ∈ (t.core c).items ∧ it.kind = .launch h r pre.2 hv ∧ it.rel = true ∧
          word ∈ t.clk.pending ∧ (t.core c).regs = s.me.regs ∧ ∀ sp x, t.byteAt sp x = s.byteAt sp x) ∧
        (st = 0 → ¬ s.Holding → s.me.loadsBefore (s.cur.op.place s.me) = false → s.releaseOk c (max 3 s.cur.op.scope) = true → s.cur.op.tk.isSome = true →
          ∃ t it, exec i s = .next t ∧ it ∈ (t.core c).subm ∧ it.kind = .launch h r pre.2 hv ∧ word ∈ t.clk.pending ∧ Ev.launchSubmissionAccept c ∈ t.clk.pending ∧
            (t.core c).regs = s.me.regs ∧ ∀ sp x, t.byteAt sp x = s.byteAt sp x))) ∧
  (∀ (s : State) (d : BitVec 6) (ba : Bool) (a : BitVec 6) (g : BitVec 5) (v : W64) (pb : Nat) (h : Bytes),
    let c := s.cur.core
    let i := Instr.launch d ba a g
    let p := s.partOf c
    let r := s.me.spadRead s.cur.op v.toNat 64
    let hv : W64 := BitVec.ofNat 64 (fieldAt r 0 8)
    let pre := s.launchPre p (dieOf c) r
    let post := s.launchPost p pre.2 r h
    let word (st e : Nat) : W64 := BitVec.ofNat 64 (pre.2 * 16384 + e * 256 + st)
    let ready : Prop := s.releaseOk c (max 3 s.cur.op.scope) = true
    s.Guarded g → s.Has ba a v → v.toNat % 64 = 0 → isCtl c = true →
      (1047552 < v.toNat + 64 → exec i s = .next (s.raise 0x0A 0 v)) ∧
      (v.toNat + 64 ≤ 1047552 → ¬ ready → exec i s = .next (s.requeue i)) ∧
      (v.toNat + 64 ≤ 1047552 → ready → pre.1 ≠ 0 → exec i s = .next (s.later d.toNat (word pre.1 0))) ∧
      (v.toNat + 64 ≤ 1047552 → ready → pre.1 = 0 → ∀ code det, s.translate c 0 s.me.ctl.wqpas hv .r 128 = .fault code det →
        ∃ t, exec i s = .next t ∧ Ev.scalarResultArrival c (s.me.feTicket s.cur.op d.toNat).1 (word 7 0) ∈ t.clk.pending ∧ t.dies = s.dies) ∧
      (v.toNat + 64 ≤ 1047552 → ready → pre.1 = 0 → s.translate c 0 s.me.ctl.wqpas hv .r 128 = .pa pb → s.ReadsMem pb 128 h →
        (post ≠ 0 → exec i s = .next (s.later d.toNat (word post 0))) ∧
        (post = 0 → s.freeEntry pre.2 p = none → exec i s = .next (s.later d.toNat (word 1 0))) ∧
        (∀ e, post = 0 → s.freeEntry pre.2 p = some e → ∃ t, exec i s = .next t ∧
          Ev.scalarResultArrival c (s.me.feTicket s.cur.op d.toNat).1 (word 0 e) ∈ t.clk.pending ∧ Ev.gangPlacement pre.2 ∈ t.clk.pending ∧
          (let x := (t.die pre.2).entries.get e {}
           x.record = r ∧ x.hdr = h ∧ x.part = p ∧ x.pasid = s.me.ctl.wqpas ∧ x.tag = s.me.ctl.wqcur ∧ x.cursor = 0 ∧ x.total = itemCount r h ∧
           x.st = if ∀ k ∈ List.range 4, recDep r k / 16384 % 4 = 0 then .ready else .waiting))))

/-! ## Operations of the control cores -/

/-- R197, R283, R285, R359, R410, R428: on a tile core the ops of the control cores raise fault 0x02.
R197, R461, R462: WQTAKE takes from the queue it names, or with ANY from the first queue after the one last taken that is bound to the core's die and partition and
has a packet; a queue named that is not bound gives 0x13. The packet's record goes to the scratchpad, RPOS advances, status 0x10; where the packet's PASID is
revoked the packet is refused: RPOS advances, the refusal is counted and noted, status 0x12. Without a packet it gives status 0x11, or waits where it may. A
reserved operand bit raises fault 0x04, a destination beyond the scratchpad fault 0x0A.
R428: FENCEREC at an aligned address within the scratchpad gives status 1 where no fence record is enabled. It waits for its release at system scope; then, with both
slots readable, the record of the next number is written to its slot but for SEAL, and the op waits for those writes; its last step writes SEAL and gives the
number. R410, R411: PEELPOST with a bad record gives status 1, one that names a core outside the partition status 2; UNHOLD takes the cores' holds away and gives 0; any other
record becomes a post of the Peel, with HOLD the cores are held. -/
def Obligations.SchedulerOps : Prop :=
  (∀ (s : State) (d a : BitVec 6) (n : BitVec 2) (x y : Bool), isCtl s.cur.core = false →
    ∀ i ∈ [Instr.chopen d a, .chclose d a x, .fencerec d a, .peelpost d a, .wqtake d a x y, .knbind d a x, .knload d a n x, .kndict d a x, .knunbind d a x y],
      exec i s = .next (s.raise 0x02 0 0)) ∧
  (∀ (s : State) (d a : BitVec 6) (any w : Bool) (v : W64), isCtl s.cur.core = true → s.Has true a v →
    let c := s.cur.core
    let i := Instr.wqtake d a any w
    let q := v.toNat % 1024
    let dst := v.toNat / 65536 * 64
    let p := s.partOf c
    let ready (x : Nat) : Prop := s.bound x (dieOf c) p = true ∧ s.hasPacket x (dieOf c) = true
    let after : Nat := match s.me.ctl.lastQ with | some l => l + 1 | none => 0
    let word (x st : Nat) : W64 := BitVec.ofNat 64 (x % 1024 * 256 + st)
    let good : Prop := v.toNat < 2 ^ 30 ∧ v.toNat / 2 ^ 10 % 64 = 0 ∧ (any = true → q = 0)
    let named : Prop := any = true ∨ s.bound q (dieOf c) p = true
    let tk := (s.me.feTicket s.cur.op d.toNat).1
    (¬ good → exec i s = .next (s.raise 0x04 0 0)) ∧
    (good → 1047552 < dst + 64 → exec i s = .next (s.raise 0x0A 0 (BitVec.ofNat 64 dst))) ∧
    (good → dst + 64 ≤ 1047552 → ¬ named → exec i s = .next (s.later d.toNat (word q 0x13))) ∧
    (good → dst + 64 ≤ 1047552 → named →
      (any = false → ready q → s.pickQueue c any q = some q) ∧ (any = false → ¬ ready q → s.pickQueue c any q = none) ∧
      (∀ x, any = true → s.pickQueue c any q = some x →
        ready x ∧ ∀ y, ready y → (after ≤ x → after ≤ y → x ≤ y) ∧ (x < after → y < after ∧ x ≤ y)) ∧
      (any = true → s.pickQueue c any q = none → ∀ y, ¬ ready y) ∧
      (s.pickQueue c any q = none → exec i s = .next (if w then s.requeue i else s.later d.toNat (word q 0x11))) ∧
      (∀ x b, s.pickQueue c any q = some x → s.ReadsMem ((s.wq x).slot (s.wq x).rpos) 72 b →
        let pasid := fieldAt b 64 4 % 2 ^ 20
        let tab := (s.fn p).pastab.toNat
        let inside : Prop := pasid < 2 ^ min (tab % 32) 20
        let entry (e : Bytes) : Prop := s.ReadsMem (tab / 4096 % 2 ^ 40 * 4096 + 16 * pasid) 8 e
        (∀ e, inside → entry e → leNat e % 2 = 1 → ∃ t, exec i s = .next t ∧ (t.wq x).rpos = ((s.wq x).rpos + 1) % 2 ^ 32 ∧
          (t.core c).spad = s.me.spad.writeN dst (b.take 64) ∧ (t.core c).ctl.lastQ = some x ∧ (t.core c).ctl.wqcur = x ∧ (t.core c).ctl.wqpas = pasid ∧
          Ev.scalarResultArrival c tk (word x 0x10) ∈ t.clk.pending) ∧
        (¬ inside ∨ (∃ e, entry e ∧ leNat e % 2 = 0) → ∃ t, exec i s = .next t ∧ (t.wq x).rpos = ((s.wq x).rpos + 1) % 2 ^ 32 ∧
          (t.wq x).nref = ((s.wq x).nref + 1) % 2 ^ 32 ∧ (t.wq x).lseq = fieldAt b 68 4 ∧ (t.wq x).lpas = pasid ∧ (t.core c).spad = s.me.spad ∧
          (t.core c).ctl.lastQ = some x ∧ Ev.scalarResultArrival c tk (word x 0x12) ∈ t.clk.pending ∧
          ((s.wq x).w0.getLsbD 3 = true → t.OnWay (.interruptEvent p ((s.wq x).w0.toNat / 2 ^ 16 % 2 ^ 11) (s.fn p).rgen)))))) ∧
  ((∀ (s : State) (d a : BitVec 6) (v : W64), isCtl s.cur.core = true → s.Has true a v →
    let c := s.cur.core
    let i := Instr.fencerec d a
    let p := s.partOf c
    let base := (s.fn p).fence.toNat / 2 ^ 15 % 2 ^ 37 * 32768
    let enabled := (s.fn p).fence.getLsbD 0
    (v.toNat % 64 ≠ 0 → exec i s = .next (s.raise 0x09 0 v)) ∧
    (v.toNat % 64 = 0 → 1047552 < v.toNat + 448 → exec i s = .next (s.raise 0x0A 0 v)) ∧
    (v.toNat % 64 = 0 → v.toNat + 448 ≤ 1047552 → enabled = false → exec i s = .next (s.later d.toNat 1)) ∧
    (v.toNat % 64 = 0 → v.toNat + 448 ≤ 1047552 → enabled = true → s.cur.op.answer = none →
      (s.releaseOk c 4 = false → exec i s = .next (s.requeue i)) ∧
      (∀ b0 b1, s.releaseOk c 4 = true → s.memRead (dieOf c) base 64 = .bytes b0 → s.memRead (dieOf c) (base + 16384) 64 = .bytes b1 →
        let n := (max ((recSeq b0).getD 0) ((recSeq b1).getD 0) + 1) % 2 ^ 64
        let pa := base + 16384 * (n % 2)
        let qs := s.boundQueues p
        let s1 := s.agentWrite (dieOf c) pa (leBytes 4 0x43455246 ++ leBytes 4 qs.length ++ leBytes 8 n ++ leBytes 8 s.clk.cyc ++ List.replicate 32 0)
        let s2 := s1.agentWrite (dieOf c) (pa + 0x40) (s.me.spadRead s.cur.op v.toNat 448)
        let s3 := s2.agentWrite (dieOf c) (pa + 0x200) (qs.flatMap (fun q => leBytes 8 ((s.wq q).rpos * 2 ^ 32 + q)))
        ∃ t o, exec i s = .next t ∧ (t.core c).slots.get s.cur.slot [] = o :: s.me.slots.get s.cur.slot [] ∧ o.op = i ∧
          o.answer = some (some { word := 0, part := n, writer := pa }) ∧ ∀ sp x, t.byteAt sp x = s3.byteAt sp x)) ∧
    (∀ r, v.toNat % 64 = 0 → v.toNat + 448 ≤ 1047552 → enabled = true → s.cur.op.answer = some (some r) →
      exec i s = .next ((s.agentWrite (dieOf c) (r.writer + 0x38) (leBytes 8 r.part)).later d.toNat (BitVec.ofNat 64 (r.part % 2 ^ 56 * 256))))) ∧
  (∀ (s : State) (d a : BitVec 6) (v : W64), isCtl s.cur.core = true → s.Has true a v →
    let c := s.cur.core
    let i := Instr.peelpost d a
    let r := s.me.spadRead s.cur.op v.toNat 64
    let tk := (s.me.feTicket s.cur.op d.toNat).1
    let ours : Prop := ∀ x ∈ recCores r, s.partOf x = s.partOf c
    (v.toNat % 64 ≠ 0 → exec i s = .next (s.raise 0x09 0 v)) ∧
    (v.toNat % 64 = 0 → 1047552 < v.toNat + 64 → exec i s = .next (s.raise 0x0A 0 v)) ∧
    (v.toNat % 64 = 0 → v.toNat + 64 ≤ 1047552 →
      (recPostBad r = true → exec i s = .next (s.later d.toNat 1)) ∧
      (recPostBad r = false → ¬ ours → exec i s = .next (s.later d.toNat 2)) ∧
      (recPostBad r = false → ours → fieldAt r 0x18 1 = 2 → ∃ t, exec i s = .next t ∧ Ev.scalarResultArrival c tk 0 ∈ t.clk.pending ∧
        ∀ y ∈ recCores r, y ∉ (t.die (dieOf y)).hold) ∧
      (recPostBad r = false → ours → fieldAt r 0x18 1 ≠ 2 →
        ∃ t x, exec i s = .next t ∧ x ∈ t.peelPosts ∧ x.tk = some (c, tk) ∧ x.part = s.partOf c ∧ x.cores = recCores r ∧
          x.d = fieldAt r 0 8 ∧ x.decided = false ∧ Ev.peelDecision x.id ∈ t.clk.pending ∧
          (fieldAt r 0x18 1 = 1 → ∀ y ∈ recCores r, y ∈ (t.die (dieOf y)).hold)))))

/-! ## Vector ops -/

/-- R142, R143, R144, R145, R137: with queues of class F and its sources present, each float op appends one entry: the function of its row on the elements'
values, computed exactly and rounded once to the destination's type, with its flags. The six approximations give the exact cases of R146, and
otherwise the value that an implementation has (a free value, log 8) where it keeps the bound of R145 and, for VEXP2, VLOG2, VSIG and VTANH, never
falls, and the function's own value rounded where it does not; NX is set. -/
def Obligations.VectorFloatResults : Prop :=
  (∀ (s : State) (o : VT) (a b : Bytes), s.me.clsF [o.q, o.a.q, o.b.q] = true → s.Reads o.a a → s.Reads o.b b →
    let x (i : Nat) : FV := (fmtOf (s.me.qTy o.a.q)).dec (elemAt (s.me.qTy o.a.q) a i)
    let y (i : Nat) : FV := (fmtOf (s.me.qTy o.b.q)).dec (elemAt (s.me.qTy o.b.q) b i)
    let go (i : Instr) (f : FV → FV → FV × Flags) : Prop := ∃ t, exec i s = .next t ∧ s.Fills t o.q (s.maskOf o.g) (fun j => fres (s.me.qTy o.q) (f (x j) (y j)))
    go (.vadd o) FV.add ∧ go (.vsub o) (fun u v => u.add v.neg) ∧ go (.vmul o) FV.mul ∧
    go (.vmin o) (fun u v => (FV.minmax false u v, 0)) ∧ go (.vmax o) (fun u v => (FV.minmax true u v, 0))) ∧
  (∀ (s : State) (o : VT) (c : QSpec) (a b z : Bytes), s.me.clsF [o.q, o.a.q, o.b.q, c.q] = true → s.Reads o.a a → s.Reads o.b b → s.Reads c z →
    let v (q : BitVec 3) (e : Bytes) (i : Nat) : FV := (fmtOf (s.me.qTy q)).dec (elemAt (s.me.qTy q) e i)
    let go (i : Instr) (sub : Bool) : Prop := ∃ t, exec i s = .next t ∧
      s.Fills t o.q (s.maskOf o.g) (fun j => fres (s.me.qTy o.q) (fma sub (v o.a.q a j) (v o.b.q b j) (v c.q z j)))
    go (.vfma o c) false ∧ go (.vfms o c) true) ∧
  (∀ (s : State) (o : VU) (a : Bytes), s.me.clsF [o.q, o.a.q] = true → s.Reads o.a a →
    let x (i : Nat) : FV := (fmtOf (s.me.qTy o.a.q)).dec (elemAt (s.me.qTy o.a.q) a i)
    let go (i : Instr) (f : FV → Nat × Flags) : Prop := ∃ t, exec i s = .next t ∧ s.Fills t o.q (s.maskOf o.g) (fun j => f (x j))
    go (.vabs o) (fun u => fres (s.me.qTy o.q) (u.abs, 0)) ∧ go (.vneg o) (fun u => fres (s.me.qTy o.q) (u.neg, 0)) ∧
    go (.vrcp o) (approxElem 0x0A (s.me.qTy o.q)) ∧ go (.vrsq o) (approxElem 0x0B (s.me.qTy o.q)) ∧ go (.vexp2 o) (approxElem 0x0C (s.me.qTy o.q)) ∧
    go (.vlog2 o) (approxElem 0x0D (s.me.qTy o.q)) ∧ go (.vsig o) (approxElem 0x0E (s.me.qTy o.q)) ∧ go (.vtanh o) (approxElem 0x0F (s.me.qTy o.q))) ∧
  (∀ (op t : Nat) (v : FV),
    (∀ y fl, approxExact op v = some (y, fl) → approxElem op t v = (((fmtOf t).enc false y).1, ((fmtOf t).enc false y).2 ||| fl)) ∧
    (∀ n m e, v = .fin n m e → approxExact op v = none →
      let f := approxRef op n m e
      let r := fp32.round false (decide (f < 0)) f.natAbs (-256)
      ∃ y fl, approxElem op t v = approxEnc t y fl ∧ fl &&& flNX = flNX ∧
        ((∃ z, fxVal y = some z ∧ (z - f).natAbs ≤ approxRoom op f.natAbs ∧ y = fp32.dec (Config.approx op (BitVec.ofNat 32 (fp32.enc false v).1)).toNat) ∨
          y = fp32.dec r.1)) ∧
    (op ≠ 0x0A → op ≠ 0x0B → approxOwn op = true →
      ∀ i, i < 2 * 0x7F800001 - 1 → FV.lt false (approxAt op (approxBits (i + 1))) (approxAt op (approxBits i)) = false))

/-- R147, R137: with integer queues of one width w, VIADD, VISUB and VIMUL give the low w bits, VIMIN and VIMAX compare as the types read, shifts take the count
modulo w, VIADDS saturates to the destination's range. VAND, VOR, VXOR take any queues of one width. No flag is set.
R148, R152 to R155: VSEL takes each element from its first source where its lane is enabled, from the second where not, and writes every element; VSHUF takes the
elements of its first source that the second names, modulo the count; VROT rotates by its scalar; VBCAST and VIOTA fill an entry from a scalar. -/
def Obligations.VectorIntegerResults : Prop :=
  (∀ (s : State) (o : VT) (a b : Bytes), s.Reads o.a a → s.Reads o.b b →
    let w := tyWidth (s.me.qTy o.q)
    let x (i : Nat) : Nat := elemAt (s.me.qTy o.a.q) a i
    let y (i : Nat) : Nat := elemAt (s.me.qTy o.b.q) b i
    let xi (i : Nat) : Int := intOf (s.me.qTy o.a.q) (x i)
    let yi (i : Nat) : Int := intOf (s.me.qTy o.b.q) (y i)
    let go (i : Instr) (f : Nat → Nat) : Prop := ∃ t, exec i s = .next t ∧ s.Fills t o.q (s.maskOf o.g) (fun j => (f j, 0))
    (s.me.clsX [o.q, o.a.q, o.b.q] = true →
      go (.vand o) (fun j => x j &&& y j) ∧ go (.vor o) (fun j => x j ||| y j) ∧ go (.vxor o) (fun j => x j ^^^ y j)) ∧
    (s.me.clsI [o.q, o.a.q, o.b.q] = true →
      go (.viadd o) (fun j => x j + y j) ∧ go (.visub o) (fun j => x j + (2 ^ w - y j)) ∧ go (.vimul o) (fun j => x j * y j) ∧
      go (.vimin o) (fun j => if yi j < xi j then y j else x j) ∧ go (.vimax o) (fun j => if xi j < yi j then y j else x j) ∧
      go (.vshl o) (fun j => x j * 2 ^ (y j % w)) ∧ go (.vshr o) (fun j => x j / 2 ^ (y j % w)) ∧
      go (.vsar o) (fun j => (sInt w (x j) / 2 ^ (y j % w) % 2 ^ w).toNat) ∧
      go (.viadds o) (fun j =>
        let lo : Int := if s.me.qTy o.q = 1 then 0 else -(2 ^ (w - 1))
        let hi : Int := if s.me.qTy o.q = 1 then 2 ^ w - 1 else 2 ^ (w - 1) - 1
        (Max.max lo (Min.min hi (xi j + yi j)) % 2 ^ w).toNat))) ∧
  ((∀ (s : State) (o : VT) (a b : Bytes), s.me.clsX [o.q, o.a.q, o.b.q] = true → s.Reads o.a a → s.Reads o.b b →
    let n := elemCount (s.me.qTy o.q)
    let x (i : Nat) : Nat := elemAt (s.me.qTy o.a.q) a i
    let y (i : Nat) : Nat := elemAt (s.me.qTy o.b.q) b i
    (∃ t, exec (.vsel o) s = .next t ∧
      s.Fills t o.q (BitVec.allOnes 64) (fun i => (if laneOn (s.maskOf o.g) (tyWidth (s.me.qTy o.q)) i then x i else y i, 0))) ∧
    (tyInt (s.me.qTy o.b.q) = true → ∃ t, exec (.vshuf o) s = .next t ∧ s.Fills t o.q (s.maskOf o.g) (fun i => (x (y i % n), 0)))) ∧
  (∀ (s : State) (o : VS) (a : Bytes) (v : W64), s.me.clsX [o.q, o.a.q] = true → s.Reads o.a a → s.Has o.bs o.s v →
    let n := elemCount (s.me.qTy o.q)
    ∃ t, exec (.vrot o) s = .next t ∧ s.Fills t o.q (s.maskOf o.g) (fun i => (elemAt (s.me.qTy o.a.q) a ((i + v.toNat) % n), 0))) ∧
  (∀ (s : State) (o : VN) (v : W64), s.Has o.bs o.s v →
    (s.me.clsX [o.q] = true → ∃ t, exec (.vbcast o) s = .next t ∧ s.Fills t o.q (s.maskOf o.g) (fun _ => (v.toNat, 0))) ∧
    (s.me.clsI [o.q] = true → ∃ t, exec (.viota o) s = .next t ∧ s.Fills t o.q (s.maskOf o.g) (fun i => (v.toNat + i, 0)))))

/-- R149: a vector compare ORs its elements' flags and writes a predicate: lane j is 1 where every element in it passes. R156: an integer reduction of the enabled
elements: VRSUM their sum modulo 2^w, VRMAX and VRMIN the greatest and the least as the type reads, 0 where none is enabled, in element 0; a float
reduction combines neighbours level by level, and rounds a sum to FP32 at each node.
R150, R151: VMOV and VCVTZ convert element by element, to nearest and towards zero; VPACK converts r consecutive entries into one, VUNPK one entry into r
consecutive ones, with r the ratio of the widths. -/
def Obligations.VectorComparesAndConversions : Prop :=
  ((∀ (s : State) (d : BitVec 5) (qa qb : QSpec) (a b : Bytes), s.me.clsF [qa.q, qb.q] = true ∨ s.me.clsI [qa.q, qb.q] = true → s.Reads qa a → s.Reads qb b →
    s.Free (.pred d.toNat) →
    let ta := s.me.qTy qa.q
    let n := elemCount ta
    let test (kind i : Nat) : Bool × Flags := vcmp kind ta (s.me.qTy qb.q) (elemAt ta a i) (elemAt (s.me.qTy qb.q) b i)
    let go (i : Instr) (kind : Nat) : Prop := ∃ m f,
      exec i s = .next (s.doneWith ((s.me.orFlags s.cur.op.ival f).result s.cur.op (.pred d.toNat) m) []) ∧
      f = (List.range n).foldl (fun g i => g ||| (test kind i).2) 0 ∧
      ∀ j, j < 64 → (m.getLsbD j = true ↔ ∀ i, i < n → i * tyWidth ta / 32 = j ∨ (tyWidth ta = 64 ∧ i * tyWidth ta / 32 + 1 = j) → (test kind i).1 = true)
    go (.vcmpeq d qa qb) 0 ∧ go (.vcmplt d qa qb) 1 ∧ go (.vcmple d qa qb) 2) ∧
  (∀ (s : State) (o : VU) (a : Bytes), s.me.clsI [o.q, o.a.q] = true → s.Reads o.a a →
    let ta := s.me.qTy o.a.q
    let on := enabled (s.maskOf o.g) (tyWidth ta)
    let x (i : Nat) : Nat := elemAt ta a i
    let go (i : Instr) (v : Nat) : Prop := ∃ t, exec i s = .next t ∧ s.Fills t o.q (BitVec.allOnes 64) (fun i => (if i = 0 then v else 0, 0))
    go (.vrsum o) ((on.map x).foldl (· + ·) 0) ∧
    (on = [] → go (.vrmax o) 0 ∧ go (.vrmin o) 0) ∧
    (on ≠ [] → (∃ i ∈ on, (∀ j ∈ on, intOf ta (x j) ≤ intOf ta (x i)) ∧ go (.vrmax o) (x i)) ∧
               (∃ i ∈ on, (∀ j ∈ on, intOf ta (x i) ≤ intOf ta (x j)) ∧ go (.vrmin o) (x i)))) ∧
  (∀ (s : State) (o : VU) (a : Bytes), s.me.clsF [o.q, o.a.q] = true → s.Reads o.a a →
    let ta := s.me.qTy o.a.q
    let leaf (i : Nat) : Option FV := if laneOn (s.maskOf o.g) (tyWidth ta) i then some ((fmtOf ta).dec (elemAt ta a i)) else none
    let go (i : Instr) (kind : Nat) : Prop :=
      let r := redTree (redF kind) (Nat.log2 (elemCount ta)) ((List.range (elemCount ta)).map leaf) 0
      let v : Nat × Flags := match r.1 with
        | some v => (((fmtOf (s.me.qTy o.q)).enc false v).1, ((fmtOf (s.me.qTy o.q)).enc false v).2 ||| r.2)
        | none => (0, r.2)
      ∃ t, exec i s = .next t ∧ s.Fills t o.q (BitVec.allOnes 64) (fun i => if i = 0 then v else (0, 0))
    go (.vrsum o) 0 ∧ go (.vrmax o) 1 ∧ go (.vrmin o) 2)) ∧
  (∀ (s : State) (o : VC), s.me.qOn o.a.q = true → s.me.qOn o.q = true →
    let ts := s.me.qTy o.a.q
    let td := s.me.qTy o.q
    let one (tz : Bool) (x : Nat) : Nat × Flags := conv1 tz ts td o.usrc o.udst x
    (∀ a, s.Reads o.a a →
      (cvtOk 0 ts td o = true → ∃ t, exec (.vmov o) s = .next t ∧ s.Fills t o.q (s.maskOf o.g) (fun i => one false (elemAt ts a i))) ∧
      (cvtOk 1 ts td o = true → ∃ t, exec (.vcvtz o) s = .next t ∧ s.Fills t o.q (s.maskOf o.g) (fun i => one true (elemAt ts a i))) ∧
      (cvtOk 3 ts td o = true →
        ∃ as : List QArr, exec (.vunpk o) s = .next (s.doneWith s.me (as.map .queueEntryArrival)) ∧ as.length = tyWidth td / tyWidth ts ∧
          ∀ j r, as[j]? = some r → s.FillsEnt r o.q j (s.maskOf o.g) (fun i => one false (elemAt ts a (j * elemCount td + i))))) ∧
    (∀ es, cvtOk 2 ts td o = true → o.a.k.toNat + tyWidth ts / tyWidth td ≤ 32 → s.me.readEnts s.cur.op o.a (tyWidth ts / tyWidth td) = .val es →
      ∃ t, exec (.vpack o) s = .next t ∧
        s.Fills t o.q (s.maskOf o.g) (fun i => one false (elemAt ts (es.getD (i / elemCount ts) []) (i % elemCount ts)))))

/-- R157, R158, R159, R111: with their registers and source entries at values, VLDS, VSTS, VGATH and VSCAT make their checks in their order: a
misaligned address 0x09, one past the scratchpad 0x0A, one past the declared bytes 0x07; a gather or scatter reports its lowest lane that
fails, and takes no 8-bit type. Past them VLDS and VGATH, where nothing of the core's own keeps their bytes from them, append the elements that
the core sees at their addresses; VSTS and VSCAT store their enabled elements: withheld on a tile core in normal mode where the buffer has room
for their lines, fault 0x08 with DETAIL 0x01 and no store where it has not, and at once in handler mode.
R160, R62, R32: a stripe's scalar with a reserved bit raises fault 0x04, and a tile at or above NACC fault 0x07 with DETAIL 5; a busy tile is waited
for. VRACC reads 64 elements of a row of an accumulator tile as FP32; VWACC writes its enabled elements into them: a clamp sets OVF, a NaN OVF
and NV; it keeps every other element and the scale, and shadows the tile where it is the first write since the checkpoint (R381), with fault
0x08 and DETAIL 0x02 where the shadow is full; with no element enabled it does nothing. -/
def Obligations.VectorMemory : Prop :=
  ((∀ (s : State) (o : VN) (v : W64), s.me.clsX [o.q] = true → s.Has o.bs o.s v →
    let t := s.me.qTy o.q
    let n := tyWidth t / 8
    (v.toNat % n ≠ 0 → exec (.vlds o) s = .next (s.raise 0x09 0 v)) ∧
    (v.toNat % n = 0 → 4194304 < v.toNat + 256 → exec (.vlds o) s = .next (s.raise 0x0A 0 v)) ∧
    (v.toNat % n = 0 → v.toNat + 256 ≤ 4194304 → s.me.limSpad < v.toNat + 256 → exec (.vlds o) s = .next (s.raise 0x07 4 v)) ∧
    (v.toNat % n = 0 → v.toNat + 256 ≤ 4194304 → v.toNat + 256 ≤ s.me.limSpad →
      (∀ i ∈ enabled (s.maskOf o.g) (tyWidth t), s.me.gated (v.toNat + i * n) n = false) → s.me.storeWait s.cur.op v.toNat 256 = false →
      s.me.unfilled s.cur.op.seq v.toNat 256 = false →
      ∃ u, exec (.vlds o) s = .next u ∧ s.Fills u o.q (s.maskOf o.g) (fun i => (elemAt t (s.me.spadRead s.cur.op v.toNat 256) i, 0)))) ∧
  (∀ (s : State) (o : VW) (v : W64) (b : Bytes), s.me.clsX [o.a.q] = true → s.Has o.bs o.s v → s.Reads o.a b →
    let t := s.me.qTy o.a.q
    let n := tyWidth t / 8
    let cells := storeCells (s.maskOf o.g) t b (fun i => v.toNat + i * n)
    (v.toNat % n ≠ 0 → exec (.vsts o) s = .next (s.raise 0x09 0 v)) ∧
    (v.toNat % n = 0 → 4194304 < v.toNat + 256 → exec (.vsts o) s = .next (s.raise 0x0A 0 v)) ∧
    (v.toNat % n = 0 → v.toNat + 256 ≤ 4194304 → s.me.limSpad < v.toNat + 256 → exec (.vsts o) s = .next (s.raise 0x07 4 v)) ∧
    (v.toNat % n = 0 → v.toNat + 256 ≤ 4194304 → v.toNat + 256 ≤ s.me.limSpad →
      (s.Holding → s.RoomFor false cells → ∃ u, exec (.vsts o) s = .next u ∧ s.Withholds u false cells) ∧
      (s.Holding → ¬ s.RoomFor false cells → exec (.vsts o) s = .next (s.raise 0x08 0x01 0)) ∧
      (¬ s.Holding → exec (.vsts o) s = .next (s.doneWith { s.me with spad := s.me.spad.writeAll cells } [])))) ∧
  (∀ (s : State) (o : VS) (v : W64) (b ib : Bytes), s.me.clsX [o.q, o.a.q] = true → s.Has o.bs o.s v → s.Reads o.a b →
    let checked (i : Instr) (w : Nat) (at_ : Nat → Nat) (go : Prop) : Prop :=
      let on := enabled (s.maskOf o.g) w
      (w = 8 → exec i s = .next (s.raise 0x04 0 0)) ∧
      (w ≠ 8 → v.toNat % (w / 8) ≠ 0 → exec i s = .next (s.raise 0x09 0 v)) ∧
      (w ≠ 8 → v.toNat % (w / 8) = 0 →
        (∀ l ∈ on, 4194304 < at_ l + w / 8 → (∀ j ∈ on, j < l → at_ j + w / 8 ≤ 4194304) → exec i s = .next (s.raise 0x0A 0 (BitVec.ofNat 64 (at_ l)))) ∧
        ((∀ l ∈ on, at_ l + w / 8 ≤ 4194304) →
          (∀ l ∈ on, s.me.limSpad < at_ l + w / 8 → (∀ j ∈ on, j < l → at_ j + w / 8 ≤ s.me.limSpad) → exec i s = .next (s.raise 0x07 4 (BitVec.ofNat 64 (at_ l)))) ∧
          ((∀ l ∈ on, at_ l + w / 8 ≤ s.me.limSpad) → go)))
    (tyInt (s.me.qTy o.a.q) = true →
      let w := tyWidth (s.me.qTy o.q)
      let at_ (i : Nat) : Nat := v.toNat + elemAt (s.me.qTy o.a.q) b i * (w / 8)
      checked (.vgath o) w at_
        ((∀ i ∈ enabled (s.maskOf o.g) w, s.me.gated (at_ i) (w / 8) = false ∧ s.me.storeWait s.cur.op (at_ i) (w / 8) = false ∧
            s.me.unfilled s.cur.op.seq (at_ i) (w / 8) = false) →
          ∃ u, exec (.vgath o) s = .next u ∧ s.Fills u o.q (s.maskOf o.g) (fun i => (leNat (s.me.spadRead s.cur.op (at_ i) (w / 8)), 0)))) ∧
    (tyInt (s.me.qTy o.q) = true → s.Reads { b := true, q := o.q, k := 0 } ib →
      let w := tyWidth (s.me.qTy o.a.q)
      let at_ (i : Nat) : Nat := v.toNat + elemAt (s.me.qTy o.q) ib i * (w / 8)
      let cells := storeCells (s.maskOf o.g) (s.me.qTy o.a.q) b at_
      checked (.vscat o) w at_
        ((s.Holding → s.RoomFor false cells → ∃ u, exec (.vscat o) s = .next u ∧ s.Withholds u false cells) ∧
          (s.Holding → ¬ s.RoomFor false cells → exec (.vscat o) s = .next (s.raise 0x08 0x01 0)) ∧
          (¬ s.Holding → exec (.vscat o) s = .next (s.doneWith { s.me with spad := s.me.spad.writeAll cells } [])))))) ∧
  ((∀ (s : State) (n : VN) (o : VW) (v : W64) (b : Bytes),
    let tile := v.toNat / 64
    let at_ := 128 * (v.toNat / 2 % 32) + 64 * (v.toNat % 2)
    let on := enabled (s.maskOf o.g) 32
    (s.me.qOn n.q = true → s.me.qTy n.q = 8 → s.Has n.bs n.s v →
      (2 ^ 15 ≤ v.toNat → exec (.vracc n) s = .next (s.raise 0x04 0 0)) ∧
      (v.toNat < 2 ^ 15 → s.me.limNacc ≤ tile → exec (.vracc n) s = .next (s.raise 0x07 5 0)) ∧
      (v.toNat < 2 ^ 15 → tile < s.me.limNacc → s.me.tileBusy s.cur.op tile = true → exec (.vracc n) s = .next (s.requeue (.vracc n))) ∧
      (v.toNat < 2 ^ 15 → tile < s.me.limNacc → s.me.tileBusy s.cur.op tile = false →
        ∃ t, exec (.vracc n) s = .next t ∧
          s.Fills t n.q (s.maskOf n.g) (fun i => fp32.enc false (accVal ((s.me.tile tile).el.get (at_ + i) 0) (s.me.tile tile).x)))) ∧
    (s.me.qOn o.a.q = true → s.me.qTy o.a.q = 8 → s.Has o.bs o.s v → s.Reads o.a b →
      (2 ^ 15 ≤ v.toNat → exec (.vwacc o) s = .next (s.raise 0x04 0 0)) ∧
      (v.toNat < 2 ^ 15 → s.me.limNacc ≤ tile → exec (.vwacc o) s = .next (s.raise 0x07 5 0)) ∧
      (v.toNat < 2 ^ 15 → tile < s.me.limNacc →
        (on = [] → exec (.vwacc o) s = .next (s.doneWith s.me [])) ∧
        (on ≠ [] → s.me.tileBusy s.cur.op tile = true → exec (.vwacc o) s = .next (s.requeue (.vwacc o))) ∧
        (on ≠ [] → s.me.tileBusy s.cur.op tile = false → s.me.shadowTile s.cur.op tile = none → exec (.vwacc o) s = .next (s.raise 0x08 0x02 0)) ∧
        (∀ k, on ≠ [] → s.me.tileBusy s.cur.op tile = false → s.me.shadowTile s.cur.op tile = some k →
          let put (i : Nat) : Int × Bool × Bool := accWrite (s.me.tile tile).x (fp32.dec (elemAt 8 b i))
          ∃ w : Tile, exec (.vwacc o) s =
              .next (s.doneWith ((k.setTile tile w).orFlags s.cur.op.ival (if on.any (fun i => (put i).2.2) then flNV else 0)) []) ∧
            w.x = (s.me.tile tile).x ∧ w.ovf = ((s.me.tile tile).ovf || on.any (fun i => (put i).2.1)) ∧
            (∀ i ∈ on, w.el.get (at_ + i) 0 = (put i).1) ∧
            ∀ e, (∀ i ∈ on, e ≠ at_ + i) → w.el.get e 0 = (s.me.tile tile).el.get e 0)))) ∧
  (∀ (k j : Core) (p : SlipOp) (n : Nat),
    (k.shadowTile p n = none ↔ k.handler = false ∧ k.ival ≤ p.ival ∧ k.shadow.find n = none ∧ k.limNshadow ≤ k.shadow.l.length) ∧
    (k.shadowTile p n = some j → j = { k with shadow := j.shadow, dirty := j.dirty } ∧ n ∈ j.dirty ∧
      (k.handler = true ∨ p.ival < k.ival ∨ (k.shadow.find n).isSome = true → j.shadow = k.shadow) ∧
      (k.handler = false → k.ival ≤ p.ival → k.shadow.find n = none → j.shadow = k.shadow.set n (k.tile n)))))

/-! ## Matrix ops -/

/-- R15: a matrix op whose stage guard is clear does nothing. R180: a repeated op starts the engine's stream, which knows its queue and the entries of
its A tile. R173, R174, R175, R163: MZERO zeroes a tile and its overflow, keeping its scale; MSETX sets the scale alone; MSCL moves the elements to
the new scale, rounding to nearest even, or saturating to 40 bits, which sets the overflow; MACCCP copies a whole tile. Nothing else is written,
and the tile is busy until its write completes. R32, R381: a busy tile is waited for, and a full shadow raises fault 0x08 with DETAIL 0x02.
R164, R165, R170, R171: MLDB and MLDBW wait until their bank is held and a load port free, and begin to load it where it was not read in this interval
before a load (fault 0x08, DETAIL 0x03): with the tile of the queue's entries, or of the partition's weight-store window, whose offset is checked
(0x09, 0x0D), as it is or encoded in QB16. R172: MMUL and MMAC wait for a lane, the bank and the tile, and write every element (i, j) of the tile as R61
computes it from row i and column j, from 0 or from the element, with the overflow and the flags of it; the bank computes. R176 to R179: MRDOUT,
MCVT, MREQ and MTRN wait for the conversion unit and append the entries of their results. A source entry that is not there makes the op wait, or
raises fault 0x06 where its B bit is clear (R26). -/
def Obligations.MatrixOps : Prop :=
  (∀ (s : State) (a : QSpec) (x : BitVec 8) (r : BitVec 6) (m c : BitVec 9) (q : BitVec 3) (ty : BitVec 4) (b : BitVec 2) (bs tg : Bool) (sg : BitVec 4),
    let tl (t : State) : Tile := (t.core s.cur.core).tile c.toNat
    let old := s.me.tile c.toNat
    (s.me.stageGuard s.cur.op sg = false →
      ∀ i ∈ [Instr.mldb a b sg, .mldbw bs r ty b sg, .mmul a c b sg, .mmac a c b sg, .mzero c sg, .msetx x c sg, .mscl x c sg, .mrdout q c sg, .mcvt a q sg,
             .mreq a q tg sg, .mtrn a q sg, .macccp m c sg], exec i s = .next (s.doneWith s.me [])) ∧
    (∀ i ∈ [Instr.mmul a c b sg, .mmac a c b sg, .mzero c sg, .msetx x c sg, .mscl x c sg, .mrdout q c sg],
      s.me.stageGuard s.cur.op sg = true → (shapeOf s.me s.cur.op.rep i).tyOk = true → s.cur.op.rep.n ≠ 0 → s.me.stream = none →
      ∃ t st, exec i s = .next t ∧ (t.core s.cur.core).stream = some st ∧ st.op = { s.cur.op with op := i } ∧ st.j = 0 ∧ st.running = true ∧ st.popped = 0 ∧
        (i ∈ [Instr.mmul a c b sg, .mmac a c b sg] → st.q = a.q.toNat ∧ st.na = (aTile (s.me.qTy a.q)).getD 0) ∧
        (i ∉ [Instr.mmul a c b sg, .mmac a c b sg] → st.na = 0) ∧ Ev.repeatIterationStart s.cur.core ∈ t.clk.pending) ∧
    (∀ i ∈ [Instr.mzero c sg, .msetx x c sg, .mscl x c sg, .macccp m c sg], s.MatOk i sg →
      (s.me.tileBusy s.cur.op c.toNat = true → exec i s = .next (s.requeue i)) ∧
      ((i = .macccp m c sg → s.me.tileBusy s.cur.op m.toNat = false) → s.me.tileBusy s.cur.op c.toNat = false →
        s.me.shadowTile s.cur.op c.toNat = none → exec i s = .next (s.raise 0x08 0x02 0))) ∧
    (s.MatOk (.macccp m c sg) sg → s.me.tileBusy s.cur.op m.toNat = true → exec (.macccp m c sg) s = .next (s.requeue (.macccp m c sg))) ∧
    (s.TileFree c.toNat →
      (s.MatOk (.mzero c sg) sg → ∃ t, exec (.mzero c sg) s = .next t ∧ s.WritesTile t c.toNat ∧ (∀ e, (tl t).el.get e 0 = 0) ∧ (tl t).x = old.x ∧ (tl t).ovf = false) ∧
      (s.MatOk (.msetx x c sg) sg → ∃ t, exec (.msetx x c sg) s = .next t ∧ s.WritesTile t c.toNat ∧ tl t = { old with x := x.toNat }) ∧
      (s.MatOk (.mscl x c sg) sg → ∃ t, exec (.mscl x c sg) s = .next t ∧ s.WritesTile t c.toNat ∧ (tl t).x = x.toNat ∧
        (∀ e, (tl t).el.get e 0 = if old.x ≤ x.toNat then rneInt (old.el.get e 0) (x.toNat - old.x) else (sat40 (old.el.get e 0 * 2 ^ (old.x - x.toNat))).1) ∧
        (old.x ≤ x.toNat → (tl t).ovf = old.ovf) ∧
        (x.toNat < old.x → ((tl t).ovf = true ↔ old.ovf = true ∨ ∃ p ∈ old.el.l, (sat40 (p.2 * 2 ^ (old.x - x.toNat))).2 = true))) ∧
      (s.MatOk (.macccp m c sg) sg → s.me.tileBusy s.cur.op m.toNat = false →
        ∃ t, exec (.macccp m c sg) s = .next t ∧ s.WritesTile t c.toNat ∧ tl t = s.me.tile m.toNat))) ∧
  ((∀ (s : State) (a : QSpec) (b : BitVec 2) (sg : BitVec 4), s.MatOk (.mldb a b sg) sg →
    let t := s.me.qTy a.q
    let src := s.me.readEnts s.cur.op a ((bTile t).getD 0)
    (s.me.loadReady b.toNat = false ∨ src = .wait → exec (.mldb a b sg) s = .next (s.requeue (.mldb a b sg))) ∧
    (s.me.loadReady b.toNat = true → (∀ code d, src = .fault code d → exec (.mldb a b sg) s = .next (s.raise code d 0)) ∧
      ∀ es, src = .val es →
        let e := encodeRows 16 (rowsOfVals t 128 es.flatten)
        ((s.me.bank b.toNat).rdi = true → exec (.mldb a b sg) s = .next (s.raise 0x08 0x03 0)) ∧
        ((s.me.bank b.toNat).rdi = false → ∃ u, exec (.mldb a b sg) s = .next u ∧
          (tyQB t = true → s.LoadsBank u b.toNat t es.flatten 0) ∧ (tyQB t = false → s.LoadsBank u b.toNat 11 (splitOfB 16 e.1) e.2)))) ∧
  (∀ (s : State) (bs : Bool) (r : BitVec 6) (ty : BitVec 4) (b : BitVec 2) (sg : BitVec 4), s.MatOk (.mldbw bs r ty b sg) sg →
    let i := Instr.mldbw bs r ty b sg
    let win := s.layout.now.ws.getD (4 * s.partOf s.cur.core + dieOf s.cur.core) (0, 0)
    (s.me.loadReady b.toNat = false → exec i s = .next (s.requeue i)) ∧
    (∀ v, s.me.loadReady b.toNat = true → s.Has bs r v →
      let data := (s.die (dieOf s.cur.core)).ws.readN (win.1 * 65536 + v.toNat) (wsTileSize ty.toNat)
      let e := encodeRows 16 (rowsOfVals ty.toNat 128 data)
      (v.toNat % 256 ≠ 0 → exec i s = .next (s.raise 0x09 0 v)) ∧
      (v.toNat % 256 = 0 → win.2 * 65536 < v.toNat + wsTileSize ty.toNat → exec i s = .next (s.raise 0x0D 0 v)) ∧
      (v.toNat % 256 = 0 → v.toNat + wsTileSize ty.toNat ≤ win.2 * 65536 →
        ((s.me.bank b.toNat).rdi = true → exec i s = .next (s.raise 0x08 0x03 0)) ∧
        ((s.me.bank b.toNat).rdi = false → ∃ u, exec i s = .next u ∧
          (tyQB ty.toNat = true → s.LoadsBank u b.toNat ty.toNat (splitOfB (qbBits ty.toNat) (rowsOfPacked (qbBits ty.toNat) 512 data)) 0) ∧
          (tyQB ty.toNat = false → s.LoadsBank u b.toNat 11 (splitOfB 16 e.1) e.2))))) ∧
  (∀ (s : State) (mac : Bool) (a : QSpec) (c : BitVec 9) (b : BitVec 2) (sg : BitVec 4),
    let i := if mac then Instr.mmac a c b sg else .mmul a c b sg
    let t := s.me.qTy a.q
    let bk := s.me.bank b.toNat
    let src := s.me.readEnts s.cur.op a ((aTile t).getD 0)
    s.MatOk i sg →
    (s.me.mulReady s.cur.op c.toNat b.toNat 1 = false ∨ src = .wait → exec i s = .next (s.requeue i)) ∧
    (s.me.mulReady s.cur.op c.toNat b.toNat 1 = true → (∀ code d, src = .fault code d → exec i s = .next (s.raise code d 0)) ∧
      ∀ es, src = .val es →
        (s.me.shadowTile s.cur.op c.toNat = none → exec i s = .next (s.raise 0x08 0x02 0)) ∧
        ((s.me.shadowTile s.cur.op c.toNat).isSome = true →
          let old := s.me.tile c.toNat
          let ing := ingestA t es.flatten
          let cols := colsOfB (qbBits bk.ty) bk.data
          let res (x y : Nat) : Int × Bool × Bool :=
            matStep (qbBits (engineTy t)) (qbBits bk.ty) old.x (if mac then old.el.get (128 * x + y) 0 else 0) (ing.1.getD x []) (cols.getD y [])
          let nv : Prop := ∃ x y, x < 32 ∧ y < 128 ∧ (res x y).2.2 = true
          ∃ u j, exec i s = .next u ∧ s.WritesTile u c.toNat ∧ ((u.core s.cur.core).bank b.toNat).st = .computing ∧
            ((u.core s.cur.core).bank b.toNat).rdi = (bk.rdi || !bk.ldi) ∧ Ev.bankComputeComplete s.cur.core b.toNat ∈ u.clk.pending ∧
            ((u.core s.cur.core).tile c.toNat).x = old.x ∧
            (((u.core s.cur.core).tile c.toNat).ovf = true ↔ (mac = true ∧ old.ovf = true) ∨ ∃ x y, x < 32 ∧ y < 128 ∧ (res x y).2.1 = true) ∧
            (∀ x y, x < 32 → y < 128 → ((u.core s.cur.core).tile c.toNat).el.get (128 * x + y) 0 = (res x y).1) ∧
            j ∈ (u.core s.cur.core).jobs ∧ j.tile = c.toNat ∧ j.ival = s.cur.op.ival ∧ (nv → j.flags = flNV ||| ing.2) ∧ (¬ nv → j.flags = ing.2)))) ∧
  (∀ (s : State) (a : QSpec) (q : BitVec 3) (c : BitVec 9) (tg : Bool) (sg : BitVec 4),
    let ta := s.me.qTy a.q
    let td := s.me.qTy q
    let n := qbBits ta
    let conv (i : Instr) (k : Nat) (f : Bytes → Bytes × Flags) : Prop := s.MatOk i sg → s.me.convBusy = false →
        (s.me.readEnts s.cur.op a k = .wait → exec i s = .next (s.requeue i)) ∧
        (∀ code d, s.me.readEnts s.cur.op a k = .fault code d → exec i s = .next (s.raise code d 0)) ∧
        ∀ es, s.me.readEnts s.cur.op a k = .val es → ∃ u, exec i s = .next u ∧ s.Produces u q.toNat (f es.flatten)
    (∀ i ∈ [Instr.mrdout q c sg, .mcvt a q sg, .mreq a q tg sg, .mtrn a q sg], s.MatOk i sg → s.me.convBusy = true → exec i s = .next (s.requeue i)) ∧
    (s.MatOk (.mrdout q c sg) sg → s.me.convBusy = false →
      (s.me.tileBusy s.cur.op c.toNat = true → exec (.mrdout q c sg) s = .next (s.requeue (.mrdout q c sg))) ∧
      (s.me.tileBusy s.cur.op c.toNat = false →
        ∃ u, exec (.mrdout q c sg) s = .next u ∧ s.Produces u q.toNat (encodeTile td (s.me.tile c.toNat).rows))) ∧
    conv (.mcvt a q sg) ((anyTile ta).getD 0) (fun d => encodeTile td (valsOfTile ta d)) ∧
    conv (.mreq a q tg sg) ((aTile ta).getD 0 + (if tg then 1 else 0)) (fun d => requantTile n (qbBits td) (d.take (splitSize n)) (d.drop (splitSize n))) ∧
    conv (.mtrn a q sg) (4 * (anyTile ta).getD 0) (fun d => transposeTiles ta d)))

/-! ## Copy commands -/

/-- R309, R310, R312 to R320: a copy command with its origin and its other registers makes the checks of its scratchpad side, and past them is given to its
port as a command that has captured them: the commands that write what others can see are held on a tile core in normal mode, translated whole as
they start (fault 0x0B, 0x0C or 0x0D at the first VA that fails); the others begin at once. A port that holds 16 started commands makes one of these wait, and one that
holds 32 of the interval raises fault 0x08 with DETAIL 0x04 for a held one. A copy of an image that the range table gates waits (R333). A
command whose stage guard is clear does nothing. -/
def Obligations.CopyCommands : Prop :=
  (∀ (s : State) (o : CQ) (vs : List W64),
    let r := s.me.layOf s.cur.op o.l.toNat
    let n := (layEntries r).getD 0
    let org := vs.map (·.toInt)
    let src := s.me.srcIdx s.cur.op o.q.toNat 0
    let cmd (k : CopyKind) (h : Bool) : CopyCmd := s.cmdOf k h o.acq o.rel (postOf o.np o.c) r
    let ready (n : Nat) : Prop := ∃ es, s.me.readEnts s.cur.op { b := true, q := o.q, k := 0 } n = .val es
    (s.me.stageGuard s.cur.op o.sg = false → ∀ i ∈ [Instr.cldq o, .cstq o, .ccpy o, .cred o, .crwr o], exec i s = .next s) ∧
    (∀ i ∈ [Instr.cldq o, .cstq o, .ccpy o, .cred o], ∀ code d a, s.me.stageGuard s.cur.op o.sg = true → s.cur.op.lays = [] →
      s.me.copyCheck i = some (code, d, a) → exec i s = .next (s.raise code d (BitVec.ofNat 64 a))) ∧
    (s.CopyOk (.cldq o) o.sg o.l o.s.toNat 0 vs →
      s.Commands (.cldq o) { cmd .cldq false with org := org, q := o.q.toNat, idx := s.me.resvIdx s.cur.op o.q.toNat, n := n }) ∧
    (s.CopyOk (.cstq o) o.sg o.l o.s.toNat 0 vs → ready n → s.Commands (.cstq o) { cmd .cstq true with org := org, q := o.q.toNat, idx := src, n := n }) ∧
    (s.CopyOk (.cred o) o.sg o.l o.s.toNat 0 vs → ready n → s.Commands (.cred o) { cmd .cred true with org := org, q := o.q.toNat, idx := src, n := n }) ∧
    (s.CopyOk (.ccpy o) o.sg o.l o.s.toNat (layRank r) vs →
      s.Commands (.ccpy o) { cmd .ccpy true with org := org.take (layRank r), lay2 := s.me.layOf s.cur.op o.q.toNat, org2 := org.drop (layRank r) }) ∧
    (∀ v, s.me.stageGuard s.cur.op o.sg = true → s.me.qOn o.q = true → s.Has true o.s v → ready (o.l.toNat + 1) →
      let t := v.toNat / 2 ^ 23 % 128
      let ok : Prop := v.toNat % 256 = 0
      (¬ ok → exec (.crwr o) s = .next (s.raise 0x09 0 v)) ∧
      (ok → 2 ^ 30 ≤ v.toNat ∨ t = s.cur.core → exec (.crwr o) s = .next (s.raise 0x04 0 v)) ∧
      (ok → v.toNat < 2 ^ 30 → t ≠ s.cur.core → s.partOf t ≠ s.partOf s.cur.core → exec (.crwr o) s = .next (s.raise 0x0E 0 v)) ∧
      (ok → v.toNat < 2 ^ 30 → t ≠ s.cur.core → s.partOf t = s.partOf s.cur.core →
        s.Commands (.crwr o) { s.cmdOf .crwr true o.acq o.rel (postOf o.np o.c) 0 with v := v, q := o.q.toNat, idx := src, n := o.l.toNat + 1, a0 := t }))) ∧
  (∀ (s : State) (o : CN) (vs : List W64),
    let r := s.me.layOf s.cur.op o.l.toNat
    let org := (vs.map (·.toInt)).take (layRank r)
    let a := vs.getD (layRank r) 0
    let cmd (k : CopyKind) (h : Bool) : CopyCmd := s.cmdOf k h o.acq o.rel (postOf o.np o.c) r
    let image (i : Instr) (m : CopyCmd) (gates : Bool) : Prop := s.CopyOk i o.sg o.l o.s.toNat 1 vs →
      (a.toNat % imageAlign r ≠ 0 → exec i s = .next (s.raise 0x09 0 a)) ∧
      (a.toNat % imageAlign r = 0 → spadSize s.cur.core < a.toNat + imageSize r → exec i s = .next (s.raise 0x0A 0 a)) ∧
      (a.toNat % imageAlign r = 0 → a.toNat + imageSize r ≤ spadSize s.cur.core → s.me.limSpad < a.toNat + imageSize r → exec i s = .next (s.raise 0x07 4 a)) ∧
      (a.toNat % imageAlign r = 0 → a.toNat + imageSize r ≤ spadSize s.cur.core → a.toNat + imageSize r ≤ s.me.limSpad →
        (gates = true → s.me.imageGated r org a.toNat = true → exec i s = .next (s.requeue i)) ∧
        (gates = false ∨ s.me.imageGated r org a.toNat = false → s.Commands i { m with org := org, a0 := a.toNat }))
    let win := s.wsWindow (s.partOf s.cur.core) (dieOf s.cur.core)
    (s.me.stageGuard s.cur.op o.sg = false → ∀ i ∈ [Instr.clds o, .csts o, .cpref o, .cws o, .cbcast o, .czero o], exec i s = .next s) ∧
    (∀ i ∈ [Instr.clds o, .csts o, .cpref o, .cws o, .cbcast o, .czero o], ∀ code d x, s.me.stageGuard s.cur.op o.sg = true → s.cur.op.lays = [] →
      s.me.copyCheck i = some (code, d, x) → exec i s = .next (s.raise code d (BitVec.ofNat 64 x))) ∧
    image (.clds o) (cmd .clds false) false ∧ image (.csts o) (cmd .csts true) true ∧ image (.cbcast o) (cmd .cbcast true) true ∧
    (s.CopyOk (.cpref o) o.sg o.l o.s.toNat 0 vs → s.Commands (.cpref o) { cmd .cpref false with org := org }) ∧
    (s.CopyOk (.czero o) o.sg o.l o.s.toNat 0 vs → s.Commands (.czero o) { cmd .czero true with org := org }) ∧
    (s.CopyOk (.cws o) o.sg o.l o.s.toNat 1 vs →
      (isCtl s.cur.core = false → o.np = false → exec (.cws o) s = .next (s.raise 0x04 0 0)) ∧
      (isCtl s.cur.core = true ∨ o.np = true →
        (a.toNat % 256 ≠ 0 → exec (.cws o) s = .next (s.raise 0x09 0 a)) ∧
        (a.toNat % 256 = 0 → win.2 * 65536 < a.toNat + layBytes r → exec (.cws o) s = .next (s.raise 0x0D 0 a)) ∧
        (a.toNat % 256 = 0 → a.toNat + layBytes r ≤ win.2 * 65536 → s.Commands (.cws o) { cmd .cws true with org := org, a0 := win.1 * 65536 + a.toNat })))) ∧
  (∀ (s : State) (l q : BitVec 3) (sr c : BitVec 6) (rel np : Bool) (sg : BitVec 4) (v : W64),
    let i := Instr.cfred l q sr c rel np sg
    let w := s.fgrp (s.partOf s.cur.core) (v.toNat / 2 ^ 40 % 64)
    let a := v.toNat % 2 ^ 23
    let n := l.toNat + 1
    let named : Prop := v.toNat < 2 ^ 46 ∧ v.getLsbD 23 = false ∧ s.grpOn w = true ∧ l.toNat = w.1 / 2 ^ 21 % 8 ∧ s.me.qTy q = w.1 / 2 ^ 28 % 16
    (s.me.stageGuard s.cur.op sg = false → exec i s = .next s) ∧
    (s.me.stageGuard s.cur.op sg = true → s.me.qOn q = true → s.Has true sr v →
      (¬ named → exec i s = .next (s.raise 0x04 0 v)) ∧
      (named → a % 256 ≠ 0 → exec i s = .next (s.raise 0x09 0 v)) ∧
      (named → a % 256 = 0 → 4194304 < a + 256 * n → exec i s = .next (s.raise 0x0A 0 v)) ∧
      (named → a % 256 = 0 → a + 256 * n ≤ 4194304 → s.me.limSpad < a + 256 * n → exec i s = .next (s.raise 0x07 4 v)) ∧
      (named → a % 256 = 0 → a + 256 * n ≤ 4194304 → a + 256 * n ≤ s.me.limSpad →
        (s.me.readEnts s.cur.op { b := true, q := q, k := 0 } n = .wait → exec i s = .next (s.requeue i)) ∧
        ((∃ es, s.me.readEnts s.cur.op { b := true, q := q, k := 0 } n = .val es) →
          s.Commands i { s.cmdOf .cfred true false rel (postOf np c) 0 with v := v, q := q.toNat, idx := s.me.srcIdx s.cur.op q.toNat 0, n := n }))))

/-! ## Knead cells -/

/-- R340, R341, R343: a cell that may fire consumes its flit, and its op's result, computed lane by lane or byte by byte as its row says, goes where the word says
after the row's latency; NOP consumes the flit alone, and TAKE clears the register it reads. -/
def Obligations.KneadCellOps : Prop :=
  ∀ (s : State) (x : CellLoc) (f : CellWord) (i : KFlit),
    let c := s.cell x
    let A := c.src f i f.sa
    let B := c.src f i f.sb
    let C := c.src f i f.sc
    let w := 8 * 2 ^ f.w.toNat
    let sg (v : Nat) : Int := sInt w v
    let lut (v : Nat) : Nat := (c.lut.get v 0).toNat
    let fires (n lat : Nat) (op : Instr) (P : Nat → Prop) : Prop := s.CellReady x f n i → ∃ d : BitVec 512, exec op s = .next (s.fires x f lat false d) ∧ P d.toNat
    let lanes (n lat : Nat) (op : Instr) (v : Nat) (g : Nat → Nat) : Prop := fires n lat op (fun d => ∀ j, j < 512 / v → laneAt v d j = g j)
    let a (j : Nat) : Nat := laneAt w A j
    let b (j : Nat) : Nat := laneAt w B j
    let fa (j : Nat) : FV := fp32.dec (laneAt 32 A j)
    let fb (j : Nat) : FV := fp32.dec (laneAt 32 B j)
    A < 2 ^ 512 → B < 2 ^ 512 →
    exec (.knNop x f) s = .next (s.setCell x { c with inp := none }) ∧
    fires 1 1 (.knPass x f) (fun d => d = A) ∧
    lanes 2 1 (.knAdd x f) w (fun j => (a j + b j) % 2 ^ w) ∧
    lanes 2 1 (.knSub x f) w (fun j => (a j + 2 ^ w - b j) % 2 ^ w) ∧
    lanes 2 2 (.knMul x f) w (fun j => a j * b j % 2 ^ w) ∧
    lanes 2 1 (.knAdds x f) w (fun j => (Max.max (-(2 ^ (w - 1) : Int)) (Min.min (2 ^ (w - 1) - 1 : Int) (sg (a j) + sg (b j))) % 2 ^ w).toNat) ∧
    fires 2 1 (.knAnd x f) (fun d => d = A &&& B) ∧ fires 2 1 (.knOr x f) (fun d => d = A ||| B) ∧ fires 2 1 (.knXor x f) (fun d => d = A ^^^ B) ∧
    lanes 2 1 (.knShl x f) w (fun j => a j * 2 ^ (b j % w) % 2 ^ w) ∧
    lanes 2 1 (.knShr x f) w (fun j => a j / 2 ^ (b j % w)) ∧
    lanes 2 1 (.knSar x f) w (fun j => (sg (a j) / 2 ^ (b j % w) % 2 ^ w).toNat) ∧
    lanes 2 1 (.knMin x f) w (fun j => if sg (a j) ≤ sg (b j) then a j else b j) ∧
    lanes 2 1 (.knMax x f) w (fun j => if sg (a j) ≤ sg (b j) then b j else a j) ∧
    lanes 3 1 (.knSel x f) w (fun j => if laneAt w C j ≠ 0 then a j else b j) ∧
    lanes 2 1 (.knCmpeq x f) w (fun j => if a j = b j then 2 ^ w - 1 else 0) ∧
    lanes 2 1 (.knCmplt x f) w (fun j => if sg (a j) < sg (b j) then 2 ^ w - 1 else 0) ∧
    lanes 1 2 (.knLutl x f) 16 (fun j => lut (laneAt 8 A j)) ∧
    lanes 1 2 (.knLuth x f) 16 (fun j => lut (laneAt 8 A (32 + j))) ∧
    lanes 1 2 (.knLutn x f) 8 (fun j => lut (laneAt 4 A (64 * (f.mode.toNat % 2) + j)) % 256) ∧
    lanes 3 1 (.knPerm x f) 8 (fun j => let p := laneAt 8 C j % 128; if p < 64 then laneAt 8 A p else laneAt 8 B (p - 64)) ∧
    (f.mode.toNat < 2 → lanes 2 2 (.knFcvt x f) 16 (fun j =>
      ((fmtOf (if f.mode.toNat = 0 then 7 else 6)).enc false (if j < 16 then fa j else fb (j - 16))).1 % 2 ^ 16)) ∧
    (2 ≤ f.mode.toNat → f.mode.toNat < 6 → lanes 1 2 (.knFcvt x f) 32 (fun j =>
      (fp32.enc false ((fmtOf (if f.mode.toNat < 4 then 7 else 6)).dec (laneAt 16 A (16 * (f.mode.toNat % 2) + j)))).1 % 2 ^ 32)) ∧
    lanes 2 2 (.knFadd x f) 32 (fun j => (fp32.enc false ((fa j).add (fb j)).1).1 % 2 ^ 32) ∧
    lanes 2 2 (.knFmul x f) 32 (fun j => (fp32.enc false ((fa j).mul (fb j)).1).1 % 2 ^ 32) ∧
    lanes 2 1 (.knFmax x f) 32 (fun j => (fp32.enc false (FV.minmax true (fa j) (fb j))).1 % 2 ^ 32) ∧
    (s.CellReady x f 1 i → exec (.knTake x f) s = .next (s.fires x f 1 true (BitVec.ofNat 512 A)))

/-! ## What is in flight lands: results, tiles, copies, counters -/

/-- R164, R170, R51: a bank load that completes gives the bank its new tile and format, and ORs the flags; it waits while its weight-store chunks are refreshed
(R248). R164, R180: a bank whose product is done is held again; the last bank to read a streamed tile pops it, in the record of the checkpoint too where the
checkpoint bundle issued the repeat (R377), and the stream ends with the last pop. R32: a tile write completes, and its flags are ORed. R180:
iteration j of a repeated MZERO does the op on tile C + j STEP, and the next follows.
R271, R304, R305: a copy command begins, after its acquire; its walk takes one element outside the tensor, or one contiguous run of elements inside it, at a
time: an element outside reads as the fill value, or is left alone; a run is read or written by one access a line; a translation that fails stops
the command (R309), but a prefetch (R317). R312, R313: read bytes land at their place; the last read ends the command, and turns a CCPY to its writes
(R314). R310: with every access performed, and its release done, the command is complete and posts its bytes; a stopped one posts nothing. -/
def Obligations.EnginesProgress : Prop :=
  ((∀ (s : State) (c b ty iv : Nat) (d : Bytes) (f : Flags), ((s.core c).bank b).incoming = some (ty, d, f, iv) →
    (s.loadRefresh c ((s.core c).bank b) = true → exec (.bankLoadComplete c b) s = .next (s.push (.bankLoadComplete c b))) ∧
    (s.loadRefresh c ((s.core c).bank b) = false → ∃ t, exec (.bankLoadComplete c b) s = .next t ∧ ((t.core c).bank b).st = .held ∧ ((t.core c).bank b).ty = ty ∧
      ((t.core c).bank b).data = d ∧ ((t.core c).bank b).incoming = none ∧ (∀ x, x ≠ b → (t.core c).bank x = (s.core c).bank x) ∧
      (t.core c).sys.fflags = (s.core c).sys.fflags ||| f ∧ (t.core c).regs = (s.core c).regs ∧ (t.core c).acc = (s.core c).acc)) ∧
  (∀ (s : State) (c b n : Nat), (s.core c).bankJobs.find? (fun j => j.1 == b) = some (b, n) →
    let k := s.core c
    ∃ t, exec (.bankComputeComplete c b) s = .next t ∧ ((t.core c).bank b).st = .held ∧ ((t.core c).bank b).data = (k.bank b).data ∧
      (t.core c).bankJobs = k.bankJobs.erase (b, n) ∧ (t.core c).acc = k.acc ∧
      (∀ st, k.stream = some st → n ≠ 0 → (∀ j ∈ k.bankJobs.erase (b, n), j.2 ≠ n) →
        (t.core c).queue st.q = (k.queue st.q).popN st.na ∧
        (st.op.ival < k.ival → (t.core c).dup.queues.get st.q {} = (k.dup.queues.get st.q {}).popN st.na) ∧
        (t.core c).stream = (if st.running = false ∧ st.popped + 1 = st.tiles st.j then none else some { st with popped := st.popped + 1 })) ∧
      (k.stream = none ∨ n = 0 ∨ (∃ j ∈ k.bankJobs.erase (b, n), j.2 = n) → (t.core c).stream = k.stream ∧ ∀ q, (t.core c).queue q = k.queue q)) ∧
  (∀ (s : State) (c n : Nat) (j : MxJob), (s.core c).jobs.find? (fun x => x.tile == n) = some j →
    ∃ t, exec (.tileWriteComplete c n) s = .next t ∧ (t.core c).jobs = (s.core c).jobs.erase j ∧ (t.core c).sys.fflags = (s.core c).sys.fflags ||| j.flags ∧
      (t.core c).acc = (s.core c).acc) ∧
  (∀ (s : State) (c : Nat) (st : Stream) (m : BitVec 9) (g : BitVec 4), (s.core c).stream = some st → st.op.op = .mzero m g → st.running = true → st.na = 0 →
    (s.core c).trap = none →
    let n := m.toNat + st.j * st.op.rep.step
    ((s.core c).tileBusy st.op n = true → exec (.repeatIterationStart c) s = .next (s.push (.repeatIterationStart c))) ∧
    ((s.core c).tileBusy st.op n = false → ((s.core c).shadowTile st.op n).isSome = true →
      ∃ t, exec (.repeatIterationStart c) s = .next t ∧ (∀ e, ((t.core c).tile n).el.get e 0 = 0) ∧ ((t.core c).tile n).x = ((s.core c).tile n).x ∧
        (∀ x, x ≠ n → (t.core c).tile x = (s.core c).tile x) ∧
        (st.op.rep.n ≤ st.j + 1 → (t.core c).stream = none) ∧
        (st.j + 1 < st.op.rep.n → (t.core c).stream = some { st with j := st.j + 1 } ∧ Ev.repeatIterationStart c ∈ t.clk.pending)))) ∧
  ((∀ (s : State) (c id : Nat) (m : CopyCmd), (s.core c).cmd id = some m → m.stopped = false →
    let k := s.core c
    let e := m.next
    let n := elemBytes (layType m.lay)
    let run := runLen m.lay m.org e
    let start (t : State) : Prop := exec (.copyCommandStart c id) s = .next t
    let mayAcquire : Prop := s.acquireReady c m.scope (some m.seq) = true ∧ (∀ r ∈ k.sent, r.kind = 2) ∧
      ∀ x ∈ k.ports, x.sent = true → x.id = id ∨ m.seq ≤ x.seq ∨ 3 ≤ x.phase
    let accesses (t : State) (ps : List (Nat × Nat × Nat)) (wr : Nat × Nat × Nat → Option (List (Nat × BitVec 8))) : Prop :=
      ∀ p ∈ ps, ∃ a, t.OnWay (.homeSliceAccess a) ∧ a.core = c ∧ a.pa = p.2.2 ∧ a.len = p.2.1 ∧ a.wr = wr p
    (m.phase = 0 → m.acq = true → ¬ mayAcquire → start (s.push (.copyCommandStart c id))) ∧
    (m.phase = 0 → (m.acq = false ∨ mayAcquire) →
      ∃ t, start t ∧ (t.core c).cmd id = some { m with phase := 1 } ∧ Ev.copyCommandStart c id ∈ t.clk.pending ∧ (m.acq = true → (t.core c).l1 = ⟨[]⟩) ∧
        ∀ sp a, t.byteAt sp a = s.byteAt sp a) ∧
    (m.phase = 1 → (m.kind = .clds ∨ m.kind = .cldq) → e < m.count →
      (∀ va ps, elemVa m.lay m.org e = some va → s.copyParts c m va .r (run * n) = .ok ps → ps ≠ [] →
        ∃ t ids, start t ∧ ids.length = ps.length ∧
          (t.core c).cmd id = some { m with next := e + run, rds := m.rds ++ List.zipWith (fun i (p : Nat × Nat × Nat) => (i, e * n + p.1, p.2.1)) ids ps } ∧
          accesses t ps (fun _ => none) ∧ ∀ sp a, t.byteAt sp a = s.byteAt sp a) ∧
      (elemVa m.lay m.org e = none → ∃ t, start t ∧
        (layFillen m.lay = true → k.spad.cells.wf = true → ∀ x, (t.core c).spad.read x =
          laid ((List.range (fillBytes m.lay).length).map (fun j => (k.homeByte m (e * n + j), (fillBytes m.lay).getD j 0))) x (k.spad.read x)) ∧
        (layFillen m.lay = false → (t.core c).spad = k.spad))) ∧
    (m.phase = 1 → (m.kind = .csts ∨ m.kind = .cstq ∨ m.kind = .czero) → e + run < m.count → ∀ va ps, elemVa m.lay m.org e = some va →
      let data := (k.runData m e run).flatten
      s.copyParts c m va .w (run * n) = .ok ps →
      ∃ t ids, start t ∧ ids.length = ps.length ∧ (t.core c).cmd id = some { m with next := e + run, wrs := m.wrs ++ ids } ∧ Ev.copyCommandStart c id ∈ t.clk.pending ∧
        accesses t ps (fun p => some (cellsAt p.2.2 ((data.drop p.1).take p.2.1)))) ∧
    (m.phase = 1 → (m.kind = .clds ∨ m.kind = .cldq ∨ m.kind = .ccpy ∨ m.kind = .cws ∨ m.kind = .cbcast ∨ m.kind = .cpref) → e < m.count →
      ∀ va v, elemVa m.lay m.org e = some va →
      let read := s.copyParts c m va .r ((if m.kind = .cpref then 1 else run) * n)
      (∀ code d, read = .error (v, .fault code d) → m.kind ≠ .cpref → start (s.copyStop c m code d v)) ∧
      (∀ code d, read = .error (v, .fault code d) → m.kind = .cpref → e + 1 < m.count →
        ∃ t, start t ∧ (t.core c).cmd id = some { m with next := e + 1 } ∧ Ev.copyCommandStart c id ∈ t.clk.pending) ∧
      (read = .error (v, .miss) → ∃ t, start t ∧ (t.core c).cmd id = some m ∧ Ev.copyCommandStart c id ∈ t.clk.pending)) ∧
    ((m.phase = 1 ∨ m.phase = 2) → (m.kind = .cldq ∨ m.kind = .clds ∨ m.kind = .csts ∨ m.kind = .czero ∨ m.kind = .cpref) → m.count ≤ e → m.rds = [] →
      ∃ t, start t ∧ (t.core c).cmd id = some { m with phase := 3 } ∧ Ev.copyCommandComplete c id ∈ t.clk.pending)) ∧
  (∀ (s : State) (c id : Nat) (m : CopyCmd) (r : Nat × Nat × Nat), (s.core c).cmd id = some m → m.rds.find? (fun x => x.1 == r.1) = some r →
    let left := m.rds.filter (fun x => x.1 ≠ r.1)
    let m1 := { m with rds := left }
    ∃ t, exec (.copyDataReturn c id r.1) s = .next t ∧
      (m.next < m.count ∨ left ≠ [] → (t.core c).cmd id = some m1) ∧
      (m.count ≤ m.next → left = [] → m.stopped = false → m.phase = 1 →
        ((m.kind = .clds ∨ m.kind = .cldq) → (t.core c).cmd id = some { m1 with phase := 3 } ∧ Ev.copyCommandComplete c id ∈ t.clk.pending) ∧
        (m.kind = .ccpy → (t.core c).cmd id = some { m1 with phase := 2, next := 0 } ∧ Ev.copyCommandStart c id ∈ t.clk.pending)) ∧
      ((m.kind = .clds ∨ m.kind = .cldq) → (s.core c).spad.cells.wf = true → ∀ x, (t.core c).spad.read x =
        laid ((List.range r.2.2).map (fun j => ((s.core c).homeByte m1 (r.2.1 + j), m.buf.read (r.2.1 + j)))) x ((s.core c).spad.read x))) ∧
  (∀ (s : State) (c id : Nat) (m : CopyCmd), (s.core c).cmd id = some m →
    let waits : Prop := m.phase < 3 ∨ m.rds ≠ [] ∨ (∃ w ∈ m.wrs, ∃ r ∈ (s.core c).sent, r.id = w) ∨
      (m.rel = true ∧ m.stopped = false ∧ m.kind ≠ .cfred ∧ s.releaseOk c m.scope = false)
    (waits → exec (.copyCommandComplete c id) s = .next (s.push (.copyCommandComplete c id))) ∧
    (¬ waits → ∃ t, exec (.copyCommandComplete c id) s = .next t ∧ (t.core c).cmd id = none ∧ (∀ sp a, t.byteAt sp a = s.byteAt sp a) ∧
      (m.kind ≠ .crwr → m.kind ≠ .cbcast → m.kind ≠ .cfred → m.stopped = false →
        ∀ n, m.post = some n → ∃ p, Ev.counterPost p ∈ t.clk.pending ∧ p.tgt = c ∧ p.src = c ∧ p.ctr = n ∧ p.n = layBytes m.lay) ∧
      (m.stopped = true → ∀ p, Ev.counterPost p ∈ t.clk.pending → Ev.counterPost p ∈ s.clk.pending) ∧
      (m.failed ≠ [] → ∃ x ∈ m.failed, (∀ y ∈ m.failed, x.1 ≤ y.1) ∧
        ∃ f ∈ (t.core c).async, f.code = x.2.2 / 256 ∧ f.detail = x.2.2 % 256 ∧ f.addr = x.2.1))))

/-- R20, R51: an arrival fills the entry that its op reserved: its bytes land and it is PRESENT; one popped meanwhile turns FREE, its bytes discarded, unless a
reader waits for it. The op's flags are ORed into FFLAGS, and into the record of a checkpoint that closed its interval (R379), once no entry of the op is
still to be filled. R13, R241, R263: a scalar result or an atomic's old value fills its register, and the atomic's brings its clock.
R324, R325, R326, R329: a post reaches its counter: COUNT rises, or turns 0 with PHASE the other way when EXPECT is met; in OWN mode one that came before the
checkpoint is recorded for a rollback; one that overshoots, or that the mode refuses, is fault 0x13 and changes no counter; a target that runs no item of the
poster's partition and PASID, or has no such counter, rejects it. R316, R319, R232: a remote write or a broadcast is written, makes each word that it writes whole full, and is then posted,
or is rejected and writes nothing. R481, R482: a fabric result is written and posted so; a fabric completion acknowledges the CFRED it names. -/
def Obligations.ArrivalsAndPosts : Prop :=
  ((∀ (s : State) (a : QArr),
    let k := s.core a.core
    let u := k.queue a.q
    let e := u.ent a.idx
    let all := k.opFlags.get a.seq 0 ||| a.flags
    let bytes (x : Nat) (old : BitVec 8) : BitVec 8 := match a.data with
      | some b => laid (cellsAt (u.addr a.idx) b) x old
      | none => old
    let unfilled (t : State) : Bool := (t.core a.core).queues.l.any (fun q => q.2.ents.l.any (fun e => e.2.seq == a.seq && !e.2.pres && (e.2.st == .reserved || e.2.st == .draining)))
    let flagged (t : State) : Prop :=
      (unfilled t = true → (t.core a.core).sys.fflags = k.sys.fflags ∧ (t.core a.core).opFlags.get a.seq 0 = all) ∧
      (unfilled t = false → (t.core a.core).sys.fflags = k.sys.fflags ||| all ∧ (e.ival < k.ival → (t.core a.core).dup.fflags = k.dup.fflags ||| all))
    let filled (e' : Entry) : Prop := ∃ t, exec (.queueEntryArrival a) s = .next t ∧ ((t.core a.core).queue a.q).ent a.idx = e' ∧
      (k.spad.cells.wf = true → ∀ x, (t.core a.core).spad.read x = bytes x (k.spad.read x)) ∧ flagged t ∧
      (t.core a.core).regs = k.regs ∧ (t.core a.core).preds = k.preds ∧ ∀ c, c ≠ a.core → t.core c = s.core c
    e.seq = a.seq →
    (e.st = .reserved → filled { e with st := .present, pres := true }) ∧
    (e.st = .draining → e.readers ≠ 0 → filled { e with pres := true }) ∧
    (e.st = .draining → e.readers = 0 → ∃ t, exec (.queueEntryArrival a) s = .next t ∧ (((t.core a.core).queue a.q).ent a.idx).st = .free ∧
      (t.core a.core).spad = k.spad ∧ flagged t)) ∧
  (∀ (s : State) (c tk : Nat) (v : W64) (clk : List Nat) (p : Pend) (n : Nat), p ∈ (s.core c).pend → (∀ q ∈ (s.core c).pend, q.dst = p.dst → q = p) → p.tk = tk →
    p.dst = .reg n → n ≠ 0 → p.dead = false → p.vis ≤ (s.core c).bundleNo →
    ∀ e ∈ [Instr.scalarResultArrival c tk v, .atomicResultArrival c tk v clk], ∃ t, exec e s = .next t ∧ (t.core c).readReg {} false n = .val v ∧
      (t.core c).base (.reg n) = v ∧ (∀ m, m ≠ n → (∀ q ∈ (s.core c).pend, q.dst ≠ .reg m) → (t.core c).base (.reg m) = (s.core c).base (.reg m)) ∧
      (p.fin = false → p.ival < (s.core c).ival → (t.core c).dup.regs.get n 0 = v) ∧
      (e = .atomicResultArrival c tk v clk → (t.core c).outs = (s.core c).outs.filter (· ≠ tk) ∧
        ∀ i, i < 4 → (t.core c).rcv.getD i 0 = Max.max ((s.core c).rcv.getD i 0) (clk.getD i 0)) ∧
      (∀ sp a, t.byteAt sp a = s.byteAt sp a) ∧ ∀ x, x ≠ c → t.core x = s.core x)) ∧
  ((∀ (s : State) (p : Post), ((p.src ≠ p.tgt ∧ s.accepts p.tgt p.part p.pasid = false) ∨ (isCtl p.tgt = false ∧ (s.core p.tgt).limNctr ≤ p.ctr)) →
    ∃ t r, exec (.counterPost p) s = .next t ∧ t.OnWay (.remoteAtomRejection p.src r) ∧ r.code = 0x1E ∧ r.tk = none ∧ r.addr = p.addr ∧
      r.detail = (if p.src ≠ p.tgt ∧ s.accepts p.tgt p.part p.pasid = false then 1 else 4) ∧
      (∀ c n, (t.core c).ctrs.get n {} = (s.core c).ctrs.get n {}) ∧ ∀ c, (t.core c).async = (s.core c).async) ∧
  (∀ (s : State) (p : Post), (p.src = p.tgt ∨ s.accepts p.tgt p.part p.pasid = true) → (isCtl p.tgt = true ∨ p.ctr < (s.core p.tgt).limNctr) →
    let k := s.core p.tgt
    let n (t : State) : Counter := (t.core p.tgt).ctrs.get p.ctr {}
    (∀ c', k.postFault (isCtl p.tgt) p = none → (n s).post p.n = some c' → ∃ t, exec (.counterPost p) s = .next t ∧ n t = c' ∧
      (∀ m, m ≠ p.ctr → (t.core p.tgt).ctrs.get m {} = k.ctrs.get m {}) ∧
      (t.core p.tgt).dup.posts = (if (n s).shared = false ∧ p.ival < k.ival then k.dup.posts ++ [(p.ctr, p.n)] else k.dup.posts) ∧
      (∀ sp a, t.byteAt sp a = s.byteAt sp a)) ∧
    (∀ d, k.postFault (isCtl p.tgt) p = some d → ∃ t f, exec (.counterPost p) s = .next t ∧ f ∈ (t.core p.tgt).async ∧ f.code = 0x13 ∧ f.detail = d ∧
      f.addr = ctrAddr p.tgt p.ctr ∧ f.slot = (if p.src = p.tgt then p.slot else 7) ∧ (t.core p.tgt).ctrs = k.ctrs)) ∧
  (∀ (s : State) (w : RWrite), ∀ e ∈ [Instr.remoteWriteDelivery w, .broadcastDelivery w],
    let k := s.core w.tgt
    let ok : Prop := s.accepts w.tgt w.part w.pasid = true
    let fits : Prop := ∀ c ∈ w.data, c.1 < k.limSpad
    let counts : Prop := ∀ ctr n, w.post = some (ctr, n) → ctr < k.limNctr
    (¬ ok ∨ ¬ fits ∨ ¬ counts → ∃ t r, exec e s = .next t ∧ t.OnWay (.remoteAtomRejection w.src r) ∧ r.code = 0x1E ∧ r.tk = none ∧ r.addr = w.addr ∧
      (¬ ok → r.detail = 1) ∧ (ok → ¬ fits → r.detail = 2) ∧ (ok → fits → r.detail = 4) ∧ ∀ sp a, t.byteAt sp a = s.byteAt sp a) ∧
    (ok → fits → counts → k.spad.cells.wf = true → ∃ t, exec e s = .next t ∧
      (∀ a, (t.core w.tgt).spad.read a = laid w.data a (k.spad.read a)) ∧ (∀ sp a, sp ≠ .spad w.tgt → t.byteAt sp a = s.byteAt sp a) ∧
      (∀ x, (∀ i, i < 8 → ∃ c ∈ w.data, c.1 = 8 * x + i) → x ∉ (t.core w.tgt).empty) ∧
      (∀ ctr n c', w.post = some (ctr, n) → (isCtl w.tgt = true ∨ w.src = w.tgt ∨ (k.ctrs.get ctr {}).shared = true) →
        (k.ctrs.get ctr {}).post n = some c' → (t.core w.tgt).ctrs.get ctr {} = c'))) ∧
  (∀ (s : State) (p : FabPkt) (it : WorkItem) (w : Nat × Nat),
    let x := p.token.toNat
    let c := 32 * bitsAt x 28 2 + bitsAt x 23 5
    (s.core c).item = some it → s.groupOf it.part p.swgrp = some w → (s.core c).spad.cells.wf = true → ∃ t, exec (.fabricResultDelivery p) s = .next t ∧
      (∀ a, (t.core c).spad.read a = laid (cellsAt (bitsAt x 0 23) p.data) a ((s.core c).spad.read a)) ∧
      (∀ c', x.testBit 36 = false → bitsAt x 30 6 < (s.core c).limNctr → ((s.core c).ctrs.get (bitsAt x 30 6) {}).shared = true →
        ((s.core c).ctrs.get (bitsAt x 30 6) {}).post p.data.length = some c' → (t.core c).ctrs.get (bitsAt x 30 6) {} = c')) ∧
  (∀ (s : State) (p : FabPkt) (m : CopyCmd),
    let c := 32 * bitsAt p.token.toNat 28 2 + bitsAt p.token.toNat 23 5
    (s.core c).ports.find? (fun m => m.kind == .cfred && decide (3 ≤ m.phase) && bitsAt m.v.toNat 32 8 == p.epoch && bitsAt m.v.toNat 24 8 == p.chunk &&
      bitsAt (s.fgrp (s.partOf c) (bitsAt m.v.toNat 40 6)).1 48 16 == p.swgrp) = some m →
    ∃ t, exec (.fabricDoneArrival p) s = .next t ∧ (t.core c).sent = (s.core c).sent.filter (fun r => r.id ∉ m.wrs) ∧ (t.core c).ports = (s.core c).ports))

/-! ## Placement, the start and the end of work items -/

/-- R202, R207, R208: the stream controller of a die, where nothing is to be placed, does nothing; it places a gang that is aged, or whose class has its size in deficit,
on cores that fit, and takes up a parked group as a pending gang of its entry (R420); an aged gang that does not fit keeps its partition's cores unplaced. The
selection state stands as the cycles without a candidate left it. An entry becomes aged; a satisfied dependence is kept and the last one makes it READY. R200: an accepted
submission takes an entry within its partition's quota, or waits. R206, R201: a gang's members start in one step with an acquire.
R205, R232, R402: the state that a core takes before a work item's first bundle. The full/empty bits keep their values; the scratchpad is zero after an item of another
partition or PASID, and on a replacement core, and otherwise its bytes are free values (log 8). -/
def Obligations.PlacementAndStart : Prop :=
  ((∀ (s : State) (d : Nat), (∀ p ∈ s.diePartList d, s.cands p d = []) → exec (.gangPlacement d) s = .next s) ∧
  (∀ (s : State) (d p : Nat) (x : CandRec), s.diePartList d = [p] → s.cands p d = [x] →
    let old := (s.die d).sel.get p {}
    let sel : Sel := { old.idle (if old.none_ then s.cyc - old.last - 1 else 0) with last := s.cyc, none_ := false }
    let paid : Sel := { sel with def_ := sel.def_.set sel.cls (sel.def_.getD sel.cls 0 - x.n) }
    let due : Prop := sel.cls = x.cls ∧ x.n ≤ sel.def_.getD sel.cls 0
    (x.aged = true → s.candFits p d x = false → ∃ t, exec (.gangPlacement d) s = .next t ∧ t.cores = s.cores ∧ (t.die d).sel.get p {} = sel) ∧
    (∀ e cores, x.c = .entry e →
      let y := (s.die d).entries.get e {}
      y.part = p → x.n = gangSize y.record y.hdr → s.fits p d x.n = true → s.pickCores p d x.n = some cores → cores.length = x.n →
      (x.aged = true → ∃ t, exec (.gangPlacement d) s = .next t ∧ s.Placed t d e cores ∧ (t.die d).sel.get p {} = sel) ∧
      (x.aged = false → due → ∃ t, exec (.gangPlacement d) s = .next t ∧ s.Placed t d e cores ∧ (t.die d).sel.get p {} = paid)) ∧
    (∀ g, x.c = .group g → s.candFits p d x = true → x.aged = false → due →
      ∃ t, exec (.gangPlacement d) s = .next t ∧ Ev.groupResumePlacement g ∈ t.clk.urgent ∧ (t.die d).sel.get p {} = paid ∧ t.cores = s.cores)) ∧
  (∀ (s : State) (d e : Nat),
    let x := (s.die d).entries.get e {}
    let amax := ((s.die d).sel.get x.part {}).scage
    let due : Prop := x.st = .ready ∧ amax ≠ 0 ∧ amax ≤ s.cyc - x.readyAt
    (¬ due → exec (.scoreboardAgeLimit d e) s = .next s) ∧
    (due → ∃ t, exec (.scoreboardAgeLimit d e) s = .next t ∧ (t.die d).entries.get e {} = { x with aged := true } ∧ Ev.gangPlacement d ∈ t.clk.pending ∧ t.cores = s.cores)) ∧
  (∀ (s : State) (d e k : Nat),
    let x := (s.die d).entries.get e {}
    let y (t : State) : LEntry := (t.die d).entries.get e {}
    (x.st ≠ .waiting ∨ s.depNow d e k = false → exec (.dependenceSatisfied d e k) s = .next s) ∧
    (x.st = .waiting → s.depNow d e k = true → ∃ t, exec (.dependenceSatisfied d e k) s = .next t ∧ (y t).deps = x.deps.set k true ∧
      (y t).st = (if (x.deps.set k true).all id then .ready else .waiting) ∧ (y t).readyAt = s.cyc ∧ Ev.gangPlacement d ∈ t.clk.pending ∧ t.cores = s.cores)) ∧
  (∀ (s : State) (cores : List Nat),
    let due : Prop := ∀ c ∈ cores, ∃ w, (s.core c).item = some w ∧ w.started = false
    (¬ due → exec (.workItemStart cores) s = .next s) ∧
    (due → ∃ t, exec (.workItemStart cores) s = .next t ∧ (∀ c ∈ cores, (t.core c).item = (s.core c).item.map (fun w => { w with started := true }) ∧
      (t.core c).l1 = ⟨[]⟩ ∧ (t.core c).rcv = [0, 0, 0, 0] ∧ (t.core c).opbBase = s.cyc ∧ (t.core c).regs = (s.core c).regs ∧ (t.core c).pc = (s.core c).pc) ∧
      ∀ c, c ∉ cores → t.core c = s.core c)) ∧
  (∀ (s : State) (c : Nat) (i : Item) (r : List Item) (w : WorkItem) (h rec : Bytes) (d : Nat) (hv : W64), (s.core c).subm = i :: r → (s.core c).item = some w →
    i.kind = .launch h rec d hv →
    (s.freeEntry d w.part = none → exec (.launchSubmissionAccept c) s = .next (s.push (.launchSubmissionAccept c))) ∧
    (∀ e, s.freeEntry d w.part = some e → ∃ t, exec (.launchSubmissionAccept c) s = .next t ∧ (t.core c).subm = r ∧
      let x := (t.die d).entries.get e {}
      x.record = rec ∧ x.hdr = h ∧ x.part = w.part ∧ x.pasid = w.pasid ∧ x.tag = w.tag ∧ x.cursor = 0 ∧
      x.st = (if (List.range 4).all (fun k => bitsAt (recDep rec k) 14 2 == 0) then EntryState.ready else EntryState.waiting)))) ∧
  (∀ (k : Core) (w : WorkItem) (cyc n : Nat),
    let j := startCore k w w.entryPos cyc n
    let h := w.hdr
    j.sys.limq = BitVec.ofNat 64 (hdrLimq h) ∧ j.sys.lims = BitVec.ofNat 64 (hdrLims h) ∧ j.sys.lima = BitVec.ofNat 64 (hdrLima h) ∧
    j.sys.limk = BitVec.ofNat 64 (hdrLimk h) ∧ j.sys.opbmax = BitVec.ofNat 32 (fieldAt h 0x38 4) ∧ j.sys.widv = w.wid ∧ j.sys.fflags = 0 ∧
    j.pc = w.entryPc ∧ j.handler = false ∧ j.base (.reg 1) = w.arg ∧ (∀ r, r ≠ 1 → j.base (.reg r) = 0) ∧ (∀ p, j.base (.pred p) = 0) ∧ j.pend = [] ∧
    (∀ q, q < 8 → hdrLogc h q ≠ 0 → j.queue q = { en := true, ty := bitsAt (hdrQd h q) 28 4, base := bitsAt (hdrQd h q) 0 14, logc := hdrLogc h q }) ∧
    (∀ q, q < 8 → hdrLogc h q = 0 → j.queue q = {}) ∧
    (∀ x e, (j.tile x).el.get e 0 = 0 ∧ (j.tile x).x = 0 ∧ (j.tile x).ovf = false) ∧ (∀ b, j.bank b = {}) ∧ (∀ c, j.ctrs.get c {} = {}) ∧
    (∀ l, j.lays.get l 0 = 0) ∧ (∀ r, (j.rts.get r {}).valid = false) ∧ j.loop = {} ∧ j.items = [] ∧ j.shadow = ⟨[]⟩ ∧ j.empty = k.empty ∧
    (k.clean = true ∨ (∃ o, k.lastOwner = some o ∧ o ≠ (w.part, w.pasid)) → ∀ a, j.spad.read a = 0) ∧
    (k.clean = false → (∀ o, k.lastOwner = some o → o = (w.part, w.pasid)) → ∀ a, j.spad.read a = Config.freeByte n a) ∧
    j.dup.regs = j.regs ∧ j.sys.trst = j.pc)

/-- R132: HALT on a tile core asks for the end of its item; with nothing held, no channel end and no splice end the core is then halting, and keeps its item, its
registers and every memory; a second look at it changes nothing. On a control core every one of whose accesses has been accepted and none of whose
commands, atomics and releases is outstanding, the context no longer runs; otherwise HALT waits.
R204, R132, R202, R409: an item whose HALT is complete ends: its core is vacant and free later, its frame returns, and its entry counts it; until then what may be released is, and its
splice ends close (R227). With the last item the entry is FREE, and with DONE its post counts on the control core once its release is done (R202, R272). R212, R213: a line whose members have all
arrived starts again at zero, and each member may then issue its SYNC. -/
def Obligations.WorkItemEnds : Prop :=
  (∀ (s : State),
    let c := s.cur.core
    let accepted : Prop := (∀ r ∈ s.me.sent, r.id ∈ s.accepted c) ∧ s.me.ports = [] ∧ s.me.outs = [] ∧ s.me.relWait = none
    (isCtl c = false → s.me.halting = true → exec .halt s = .next s) ∧
    (isCtl c = false → s.me.halting = false →
      (∃ t, exec .halt s = .next t ∧ Ev.workItemEnd c ∈ t.clk.pending) ∧
      (s.me.items = [] → s.me.chans.l = [] → (∀ q, q < 8 → (s.me.queue q).spl = 0) →
        ∃ t, exec .halt s = .next t ∧ Ev.workItemEnd c ∈ t.clk.pending ∧ (t.core c).halting = true ∧ (t.core c).item = s.me.item ∧
          (t.core c).regs = s.me.regs ∧ ∀ sp a, t.byteAt sp a = s.byteAt sp a)) ∧
    (128 ≤ c → c < 132 → accepted →
      ∃ t, exec .halt s = .next t ∧ (t.core c).ctl.running = false ∧ (t.fn s.me.ctl.part).dies.testBit (c - 128) = false ∧
        Ev.schedulerContextSaved (c - 128) ∈ t.clk.pending) ∧
    (128 ≤ c → ¬ accepted → exec .halt s = .next (s.requeue .halt))) ∧
  ((∀ (s : State) (c : Nat) (w : WorkItem), (s.core c).item = some w → (s.core c).halting = true →
    let x := (s.die w.die).entries.get w.entry {}
    (s.haltDone c = false → exec (.workItemEnd c) s = .next (((s.pump c).haltSplices c).push (.workItemEnd c))) ∧
    (s.haltDone c = true → ∃ t, exec (.workItemEnd c) s = .next t ∧ (t.core c).item = none ∧ (t.core c).halting = false ∧ Ev.coreFree c ∈ t.clk.pending ∧
      (t.part w.part).frames = (s.part w.part).frames ++ [w.frame] ∧ (∀ sp a, t.byteAt sp a = s.byteAt sp a) ∧
      (x.st = .ready → (∀ y, (w.entry, y) ∈ (s.die w.die).entries.l → y = x) → ((t.die w.die).entries.get w.entry {}).ended = x.ended + 1))) ∧
  (∀ (s : State) (d e : Nat) (x : LEntry), (s.die d).entries = ⟨[(e, x)]⟩ → x.st = .running → x.total ≤ x.ended → (s.core (32 * d)).item = none → d < 4 →
    let n := recDone x.record % 64
    let done : Prop := (recDone x.record).testBit 7 = true
    let ctr (t : State) : Counter := (t.core (128 + d)).ctrs.get n {}
    (¬ done → ∃ t, exec (.workItemEnd (32 * d)) s = .next t ∧ ((t.die d).entries.get e {}).st = .free ∧ t.cores = s.cores) ∧
    (done → s.exported x.exp = false → exec (.workItemEnd (32 * d)) s = .next (s.push (.workItemEnd (32 * d)))) ∧
    (done → s.exported x.exp = true → s.ctlRuns x.part d = true → ∀ c', (ctr s).post 1 = some c' →
      ∃ t, exec (.workItemEnd (32 * d)) s = .next t ∧ ((t.die d).entries.get e {}).st = .free ∧ ctr t = c')) ∧
  (∀ (s : State) (c : Nat), ((s.core c).ports ≠ [] → exec (.coreFree c) s = .next (s.push (.coreFree c))) ∧
    ((s.core c).ports = [] → ∃ t, exec (.coreFree c) s = .next t ∧ (t.core c).freeAt = true ∧ Ev.gangPlacement (dieOf c) ∈ t.clk.pending ∧
      ∀ x, x ≠ c → t.core x = s.core x)) ∧
  (∀ (s : State) (d l : Nat),
    let ln := (s.die d).lines.get l {}
    (ln.held = true → ln.arrived.length = ln.g → ∃ t, exec (.syncLineComplete d l) s = .next t ∧ (t.die d).lines.get l {} = { ln with arrived := [] } ∧
      Ev.syncRestart d l ∈ t.clk.pending ∧ t.cores = s.cores) ∧
    (ln.held = false ∨ ln.arrived.length ≠ ln.g → exec (.syncLineComplete d l) s = .next s) ∧
    (∃ t, exec (.syncRestart d l) s = .next t ∧ (∀ c ∈ ln.members, (s.core c).arrived = true → (t.core c).goSync = true) ∧
      (∀ c, c ∉ ln.members ∨ (s.core c).arrived = false → t.core c = s.core c) ∧ t.dies = s.dies)))

/-- R491, R492: GO starts a context on each die of the partition that is idle: registers 0 but s1 and s2, the scratchpad zero, at VA; it is ignored while a context runs. R208, R196: SCQUANT written
starts the selection state afresh, and so does a context that starts, with SCQUANT and SCAGE at their reset values. R465: HINT is an interrupt event of the function. R197: a waiting WQTAKE that is woken is executed again. -/
def Obligations.SchedulerContextEvents : Prop :=
  (∀ (k : Core) (p d : Nat) (f : Fn),
    let j := startCtl k p d f
    j.base (.reg 1) = BitVec.ofNat 64 f.seq ∧ j.base (.reg 2) = BitVec.ofNat 64 d ∧ (∀ r, r ≠ 1 → r ≠ 2 → j.base (.reg r) = 0) ∧ (∀ q, j.base (.pred q) = 0) ∧
    (f.sdata = [] → ∀ a, j.spad.read a = 0) ∧ j.pc.toNat = bitsAt f.sched.toNat 2 46 * 4 ∧ j.handler = false ∧ j.sys.tvec = 0 ∧ j.ctl.running = true ∧ j.ctl.part = p) ∧
  (∀ (s : State) (p : Nat) (v : W64), s.booted = true →
    ((s.fn p).dies ≠ 0 → ∃ t, exec (.schedulerGo p v) s = .next t ∧ t.cores = s.cores ∧ (t.fn p).toStart = (s.fn p).toStart) ∧
    (∀ d, p < 16 → d < 4 → (s.fn p).dies = 0 → s.layout.now.quad = List.replicate 16 p → (∀ x, x < 4 → (s.core (128 + x)).ctl.running = false ∧ (s.die x).ctx = ⟨[]⟩) →
      (∀ x, x ≠ p → (s.fn x).toStart = 0) →
      ∃ t, exec (.schedulerGo p v) s = .next t ∧ (t.core (128 + d)).ctl.running = true ∧ (t.core (128 + d)).ctl.part = p ∧
        (t.core (128 + d)).pc = v &&& 0x0000FFFFFFFFFFFC#64 ∧ (t.core (128 + d)).base (.reg 1) = 0 ∧ (t.core (128 + d)).base (.reg 2) = BitVec.ofNat 64 d ∧
        (t.fn p).dies = 15 ∧ (t.die d).sel.get p {} = { last := s.cyc })) ∧
  (∀ (s : State) (d : Nat) (v : W64),
    let p := s.partOf (128 + d)
    (∃ t, exec (.scquantWrite d v) s = .next t ∧ t.cores = s.cores ∧ (t.die d).sel.get p {} = { (s.die d).sel.get p {} with
      scquant := v.extractLsb' 0 32, cls := 0, def_ := [v.toNat % 256, 0, 0, 0], last := s.cyc }) ∧
    exec (.hintWrite d v) s = .next (s.route (.ctl d) (.base 0 25) 3 1 (.interruptEvent p (v.toNat % 2048) (s.fn p).rgen))) ∧
  (∀ (s : State) (d : Nat) (o : SlipOp) (r : List SlipOp) (rd ra : BitVec 6) (any wait : Bool), (s.core (128 + d)).slots.get 0 [] = o :: r → o.op = .wqtake rd ra any wait →
    ∃ t, exec (.wqtakeWake d) s = .next t ∧
      exec o.op (State.modCore { s with cur := { core := 128 + d, slot := 0, op := o } } (128 + d) (fun k => { k with slots := k.slots.set 0 r })) = .next t)

/-! ## Issue, queue entries, splices -/

/-- R20: the states of a queue entry: reserved at the tail, popped at the head, read for the last time. R23: what is reserved and popped moves TAIL and HEAD by one, modulo 65,536. R223: at a
receiving end a pop and a reader leave every entry as it is.
R22, R23, R28, R268: a wide bundle that may issue, on a core with no result to come and no loop, puts each enabled op into its slot with its bundle's address and the values of its registers, opens its
result, and the bundle that follows is next; a FENCE's acquire is done as it issues, its release is kept for the slot; a checkpoint bundle also opens an interval and takes its copies (R378), an operator
boundary its graph position (R403). R33: a single-op bundle puts its op at its slot's head alone. R22, R30: a bundle that fails a check does not issue: its fault is taken. -/
def Obligations.BundlesIssue : Prop :=
  (∀ (u : Queue) (f : Filler) (seq ival i : Nat),
    let r := u.reserve1 f seq ival
    let p := u.pop1
    let e := u.ent u.head
    let x := u.ent i
    let y := (u.readerDone i).ent i
    r.tail = (u.tail + 1) % 65536 ∧ r.head = u.head ∧ (r.ent u.tail).st = .reserved ∧ (r.ent u.tail).pres = false ∧ (r.ent u.tail).readers = 0 ∧
    (r.ent u.tail).seq = seq ∧ (r.ent u.tail).ival = ival ∧ (r.ent u.tail).filler = f ∧ (∀ j, j % u.cap ≠ u.tail % u.cap → r.ent j = u.ent j) ∧
    p.head = (u.head + 1) % 65536 ∧ p.tail = u.tail ∧ (∀ j, j % u.cap ≠ u.head % u.cap → p.ent j = u.ent j) ∧
    (u.spl ≠ 2 → (e.st = .reserved → (p.ent u.head).st = .draining) ∧ (e.st = .present → e.readers = 0 → (p.ent u.head).st = .free) ∧
      (e.st = .present → e.readers ≠ 0 → (p.ent u.head).st = .draining)) ∧
    (u.spl ≠ 2 → x.st = .draining → x.readers = 1 → x.pres = true → x.passed = false → y.st = .free) ∧
    (u.spl ≠ 2 → x.st = .present → y.st = .present ∧ y.readers = x.readers - 1) ∧
    (u.spl = 2 → p.ents = u.ents ∧ (u.readerDone i).ents = u.ents ∧ (u.addReader i).ents = u.ents ∧ (u.addReader i).rd = i :: u.rd ∧ (u.readerDone i).rd = u.rd.erase i)) ∧
  (∀ (s : State) (c : Nat) (b : Bundle),
    let k := s.core c
    let s1 := s.setCore c k
    let ops := b.ops k
    let j (t : State) : Core := t.core c
    let opOf (o : BOp) : Instr := if b.single then o.i else (match o.i with
      | .fence r true => .fence r false
      | i => i)
    let held (t : State) (o : BOp) (p : SlipOp) : Prop := p ∈ (j t).slots.get o.slot [] ∧ p.op = opOf o ∧ p.pc = b.pc ∧ p.next = b.next ∧ p.scope = b.scope ∧ p.ival = k.ival ∧
      (∀ r ∈ o.sh.regs, Tab.findL p.caps r.1 = some (.val (k.base (.reg r.1)))) ∧ (p.tk.isSome = o.sh.dst.isSome)
    let slips (o : BOp) : Prop := o.en = true ∧ (b.single = true ∨ ∀ a, o.i ≠ .fence false a)
    let issued (t : State) : Prop := (j t).pc = b.next ∧ (j t).bundleNo = k.bundleNo + 1 ∧ (j t).regs = k.regs ∧ (j t).preds = k.preds ∧ (j t).async = k.async ∧
      (∀ o ∈ ops, slips o → ∃ p, held t o p) ∧ (∀ o ∈ ops, slips o → ∀ d l, o.sh.dst = some (d, l) → ∃ q ∈ (j t).pend, q.dst = d ∧ q.val = none) ∧
      ((∃ o ∈ ops, o.en = true ∧ o.acq = true) → b.single = false → (j t).l1 = ⟨[]⟩) ∧ ∀ sp a, t.byteAt sp a = s.byteAt sp a
    let ckpt (t : State) : Prop := (j t).ival = k.ival + 1 ∧ (j t).dup.regs = k.regs ∧ (j t).dup.preds = k.preds ∧ (j t).dup.fflags = k.sys.fflags ∧ (j t).dup.loop = k.loop ∧
      (j t).sys.trst = b.next ∧ (j t).shadow = ⟨[]⟩ ∧ ∀ n, ((j t).bank n).ldi = false ∧ ((j t).bank n).rdi = false
    s.mayIssue c = true → k.serial = false → k.pend = [] → k.async = [] → k.items = [] → k.chans = ⟨[]⟩ → k.loop.act = false → k.target = none →
    s1.readBundle c k.pc = .got b → s1.syncGate c b ops = none → s1.bundleWaits c b ops = false →
    (∀ f, k.bundleFault (isCtl c) b ops = some f →
      (s.bkind c = .wide → b.single = false → exec (.wideBundleIssue c) s = .next (s1.issueFault c f b.next)) ∧
      (s.bkind c = .single → b.single = true → exec (.singleOpBundleIssue c) s = .next (s1.issueFault c f b.next))) ∧
    (k.bundleFault (isCtl c) b ops = none → k.canReserve (resvList ops) = true →
    ops.findSome? (k.nowCheck b) = none → (∀ o ∈ ops, isBranch o.i = false ∧ isSync o.i = false) →
    (s.bkind c = .wide → b.single = false → b.ckp = false → ∃ t, exec (.wideBundleIssue c) s = .next t ∧ issued t ∧ (j t).ival = k.ival) ∧
    (s.bkind c = .ckpt → b.single = false → b.ckp = true → b.opb = false → ∃ t, exec (.checkpointBundle c) s = .next t ∧ issued t ∧ ckpt t) ∧
    (s.bkind c = .opb → b.single = false → b.ckp = true → b.opb = true → k.item.bind (·.group) = none → ∃ t, exec (.operatorBoundaryBundle c) s = .next t ∧ issued t ∧ ckpt t ∧
      (j t).opbBase = s.cyc ∧ ∀ w, k.item = some w → ∃ w', (j t).item = some w' ∧ w'.bpos = (b.next, (List.range' 1 15).map (fun n => k.base (.reg n)))) ∧
    (s.bkind c = .single → b.single = true → ∀ o, ops = [o] → o.en = true → ∃ t p, exec (.singleOpBundleIssue c) s = .next t ∧ issued t ∧ held t o p ∧
      (j t).slots.get o.slot [] = p :: k.slots.get o.slot [] ∧ (j t).serial = true ∧ t.cur.core = c ∧ t.cur.slot = o.slot)))

/-- R218, R219, R221: QSPLICE on a local queue with every entry FREE, naming another core of the partition, makes it a sending end: OPEN with the credits of an
acceptance it holds from that peer with its TYPE, FAILED where it holds another, else PENDING with none. QACCEPT on such a queue makes it a receiving end,
ACCEPTING; on a tile core in normal mode the acceptance is held, elsewhere it is sent and the end is OPEN. Any other queue raises fault 0x14 with DETAIL 3, an operand
that is no other core's fault 0x04, another partition's fault 0x0E. R220: QUNSPLICE closes an open or pending sending end; one that is CLOSING stays as it is; one
that has FAILED or ENDED becomes local and empty, once no entry is RESERVED. It makes a CLOSED receiving end local, with HEAD and TAIL and the entries delivered and not passed by
a pop PRESENT, those passed DRAINING; it waits while a receiving end is not CLOSED; on a local queue it raises fault 0x14 with DETAIL 8.
R221, R222, R223, R220: the splice unit: a PENDING sending end that the named peer accepts, with the same TYPE, is OPEN with its credits; an acceptance that does not fit fails it, makes a CLOSING end
local, and is refused, as is one that a LOCAL end with one in hand, or any other end, receives; credits are added; an entry that may ship leaves the head and is on its way; a delivered entry is written at the receiving end's TAIL; a CLOSE
or a refusal ends an open sending end and closes a receiving one, and a refusal makes a CLOSING one local; a closing end whose entries are all delivered sends CLOSE and is local. What an end
sends passes the gates or is rejected there (R447); the refusal of an acceptance by a receiving end, and a refusal that reaches a PENDING or LOCAL end, are the model's choice (log 102). -/
def Obligations.Splices : Prop :=
  (∀ (s : State) (a : BitVec 6) (q : BitVec 3) (v : W64),
    let u := s.me.queue q.toNat
    let r := s.me.splice q.toNat
    let peer := v.toNat / 8 % 128
    let fresh : Prop := u.en = true ∧ u.spl = 0 ∧ ∀ e ∈ u.ents.l, e.2.st = .free
    let ready : Prop := s.Has true a v ∧ fresh ∧ v.toNat < 2 ^ 10 ∧ peer ≠ s.cur.core ∧ s.partOf peer = s.partOf s.cur.core
    let core (t : State) : Core := t.core s.cur.core
    let new (t : State) : Queue := (core t).queue q.toNat
    let msg : SplMsg := { core := peer, q := v.toNat % 8, pcore := s.cur.core, pq := q.toNat, ty := u.ty, n := u.cap, refuse := false }
    (∀ i ∈ [Instr.qsplice a q, .qaccept a q],
      (s.Has true a v → ¬ fresh → exec i s = .next (s.raise 0x14 3 0)) ∧
      (s.Has true a v → fresh → 2 ^ 10 ≤ v.toNat ∨ peer = s.cur.core → exec i s = .next (s.raise 0x04 0 0)) ∧
      (s.Has true a v → fresh → v.toNat < 2 ^ 10 → peer ≠ s.cur.core → s.partOf peer ≠ s.partOf s.cur.core → exec i s = .next (s.raise 0x0E 0 v))) ∧
    (ready → ∃ t, exec (.qsplice a q) s = .next t ∧ new t = { u with spl := 1 } ∧
      (r.acc = none → (core t).splice q.toNat = { st := .pending, pcore := peer, pq := v.toNat % 8 }) ∧
      (∀ n, r.acc = some (peer, v.toNat % 8, u.ty, n) → (core t).splice q.toNat = { st := .open_, pcore := peer, pq := v.toNat % 8, cred := n, got := true }) ∧
      (∀ c p y n, r.acc = some (c, p, y, n) → (c, p, y) ≠ (peer, v.toNat % 8, u.ty) → (core t).splice q.toNat = { st := .failed, pcore := peer, pq := v.toNat % 8 })) ∧
    (ready → ∃ t, exec (.qaccept a q) s = .next t ∧ new t = { u with spl := 2, tail := u.head } ∧
      ((core t).splice q.toNat).pcore = peer ∧ ((core t).splice q.toNat).pq = v.toNat % 8 ∧
      (s.Holding → ((core t).splice q.toNat).st = .accepting ∧ ∃ it ∈ (core t).items, it.kind = .accept msg) ∧
      (¬ s.Holding → ((core t).splice q.toNat).st = .ropen ∧ t.OnWay (.spliceAcceptanceArrival msg))) ∧
    (u.spl = 0 → exec (.qunsplice q) s = .next (s.raise 0x14 8 0)) ∧
    (u.spl = 1 → r.st = .pending ∨ r.st = .open_ → ∃ t, exec (.qunsplice q) s = .next t ∧ ((core t).splice q.toNat).st = .closing ∧ new t = u) ∧
    (u.spl = 1 → r.st = .closing → exec (.qunsplice q) s = .next s) ∧
    (u.spl = 1 → r.st = .failed ∨ r.st = .ended →
      ((∃ e ∈ u.ents.l, e.2.st = .reserved) → exec (.qunsplice q) s = .next (s.requeue (.qunsplice q))) ∧
      ((∀ e ∈ u.ents.l, e.2.st ≠ .reserved) → ∃ t, exec (.qunsplice q) s = .next t ∧ new t = { u with spl := 0, head := u.tail, ents := ⟨[]⟩ } ∧
        ((core t).splice q.toNat).st = .local_)) ∧
    (u.spl = 2 → r.st = .closed → ∃ t, exec (.qunsplice q) s = .next t ∧ (new t).spl = 0 ∧ (new t).head = u.head ∧ (new t).tail = u.tail ∧
      ((core t).splice q.toNat).st = .local_ ∧
      ∀ i, ((u.ent i).pres = false → (new t).ent i = {}) ∧
        ((u.ent i).pres = true → ((new t).ent i).pres = true ∧ ((new t).ent i).st = if u.passedIdx (u.deliveredAt (i % u.cap)) then .draining else .present)) ∧
    (u.spl = 2 → r.st ≠ .closed → exec (.qunsplice q) s = .next (s.requeue (.qunsplice q)))) ∧
  ((∀ (s : State) (m : SplMsg),
    let k := s.core m.core
    let r := k.splice m.q
    let r' (t : State) : Splice := (t.core m.core).splice m.q
    let same := r.pcore = m.pcore ∧ r.pq = m.pq ∧ (k.queue m.q).ty = m.ty
    let keeps (t : State) : Prop := (t.core m.core).regs = k.regs ∧ (∀ sp a, t.byteAt sp a = s.byteAt sp a) ∧ ∀ x, x ≠ m.core → t.core x = s.core x
    let refused (t : State) : Prop := s.gateOk (s.partOf m.core) (nodeOf m.pcore) none = true →
      t.OnWay (.spliceCloseArrival { core := m.pcore, q := m.pq, pcore := m.core, pq := m.q, ty := 0, n := 0, refuse := true })
    let acc (p : State → Prop) : Prop := ∃ t, exec (.spliceAcceptanceArrival m) s = .next t ∧ p t ∧ keeps t
    let isLocal (t : State) : Prop := (r' t).st = .local_ ∧ ((t.core m.core).queue m.q).spl = 0 ∧ ((t.core m.core).queue m.q).count = 0
    (r.st = .local_ → r.acc = none → acc (fun t => r' t = { r with acc := some (m.pcore, m.pq, m.ty, m.n) })) ∧
    (r.st = .local_ → r.acc ≠ none → acc (fun t => r' t = r ∧ refused t)) ∧
    (r.st = .pending → same → acc (fun t => (r' t).st = .open_ ∧ (r' t).cred = m.n)) ∧
    (r.st = .pending → ¬ same → acc (fun t => (r' t).st = .failed ∧ refused t)) ∧
    (r.st = .closing → same → acc (fun t => (r' t).st = .closing ∧ (r' t).cred = m.n ∧ (r' t).got = true)) ∧
    (r.st = .closing → ¬ same → acc (fun t => isLocal t ∧ refused t)) ∧
    (r.st ≠ .local_ → r.st ≠ .pending → r.st ≠ .closing → acc (fun t => r' t = r ∧ refused t)) ∧
    ((r.st = .open_ ∨ r.st = .closing) → r.pcore = m.pcore → r.pq = m.pq → ∃ t, exec (.spliceCreditArrival m) s = .next t ∧ r' t = { r with cred := r.cred + m.n } ∧ keeps t) ∧
    ((r.st ≠ .open_ ∧ r.st ≠ .closing) ∨ r.pcore ≠ m.pcore ∨ r.pq ≠ m.pq → exec (.spliceCreditArrival m) s = .next s) ∧
    (r.pcore = m.pcore → r.pq = m.pq →
      (r.st = .open_ → ∃ t, exec (.spliceCloseArrival m) s = .next t ∧ (r' t).st = .ended ∧ keeps t) ∧
      ((r.st = .accepting ∨ r.st = .ropen) → ∃ t, exec (.spliceCloseArrival m) s = .next t ∧ (r' t).st = .closed ∧ keeps t) ∧
      (r.st = .closing → m.refuse = true → ∃ t, exec (.spliceCloseArrival m) s = .next t ∧ isLocal t ∧ keeps t)) ∧
    (r.pcore ≠ m.pcore ∨ r.pq ≠ m.pq ∨ r.st ∈ [SplSt.local_, .pending, .failed, .ended, .closed] → exec (.spliceCloseArrival m) s = .next s) ∧
    (∀ data,
      let live : Prop := (k.queue m.q).spl = 2 ∧ r.pcore = m.pcore ∧ r.pq = m.pq ∧ r.st ∈ [SplSt.ropen, .accepting, .closed]
      (¬ live → exec (.spliceEntryDelivery m data) s = .next s) ∧
      (live → m.pcore ≠ m.core → k.spad.cells.wf = true → (k.queue m.q).tail < 65536 →
        let u := k.queue m.q
        ∃ t, exec (.spliceEntryDelivery m data) s = .next t ∧ ((t.core m.core).queue m.q).tail = (u.tail + 1) % 65536 ∧ ((t.core m.core).queue m.q).head = u.head ∧
          (((t.core m.core).queue m.q).ent u.tail).pres = true ∧ (∀ a, (t.core m.core).spad.read a = laid (cellsAt (u.addr u.tail) data) a (k.spad.read a)) ∧
          ((t.core m.pcore).splice m.pq).inflight = ((s.core m.pcore).splice m.pq).inflight - 1))) ∧
  (∀ (s : State) (c q : Nat),
    let k := s.core c
    let u := k.queue q
    let r := k.splice q
    let passes : Prop := s.gateOk (s.partOf c) (nodeOf r.pcore) none = true
    (k.canShip q = true → ∃ t, exec (.spliceEntryShip c q) s = .next t ∧ ((t.core c).queue q).head = (u.head + 1) % 65536 ∧ (((t.core c).queue q).ent u.head).st = .free ∧
      ((t.core c).splice q).cred = r.cred - 1 ∧ ((t.core c).splice q).inflight = r.inflight + 1 ∧ (t.core c).regs = k.regs ∧ (∀ sp a, t.byteAt sp a = s.byteAt sp a) ∧
      (passes → t.OnWay (.spliceEntryDelivery { core := r.pcore, q := r.pq, pcore := c, pq := q, ty := u.ty, n := 1, refuse := false } (k.entBytes { seq := 0 } q u.head)))) ∧
    (k.canShip q = false → exec (.spliceEntryShip c q) s = .next s) ∧
    (k.canClose q = true → ∃ t, exec (.spliceCloseSend c q) s = .next t ∧ ((t.core c).queue q).spl = 0 ∧ ((t.core c).splice q).st = .local_ ∧ (∀ sp a, t.byteAt sp a = s.byteAt sp a) ∧
      (passes → t.OnWay (.spliceCloseArrival { core := r.pcore, q := r.pq, pcore := c, pq := q, ty := 0, n := 0, refuse := false }))) ∧
    (k.canClose q = false → exec (.spliceCloseSend c q) s = .next s)))

/-! ## Where memory accesses are performed -/

/-- R263: an exported write waits until the die has applied every write its clock names; then the die applies it byte by byte, keeping a byte that holds a later write, and counts it. The owner gives it
its place and forwards it. R260, R263: a directed packet is performed in the order sent, once the die has applied what its clock names, an atomic after its core's earlier accesses to the line. -/
def Obligations.CausalDelivery : Prop :=
  (∀ (s : State) (d : Nat) (w : Export),
    let x := s.die d
    (x.ready w = true ↔ (x.app.getD w.src 0 + 1 = w.clk.getD w.src 0 ∧ (∀ y, y < 4 → y ≠ w.src → w.clk.getD y 0 ≤ x.app.getD y 0) ∧
      (w.pos = none ∨ lineOfCells w.data ∉ x.waitLn))) ∧
    (x.ready w = false → exec (.exportedWriteApply d w) s = .next (s.push (.exportedWriteApply d w))) ∧
    (x.ready w = true → x.view.wf = true → d < 4 → w.src < 4 → w.src ≠ d → x.app.length = 4 →
      let pos := w.pos.getD (s.ownerPos.get (lineOfCells w.data) 0 + 1)
      ∃ t, exec (.exportedWriteApply d w) s = .next t ∧ (∀ a, (t.die d).view.read a = if x.stamp.get a 0 ≤ pos then laid w.data a (x.view.read a) else x.view.read a) ∧
        (t.die d).app.getD w.src 0 = w.clk.getD w.src 0 ∧ (∀ sp a, sp ≠ .view d → t.byteAt sp a = s.byteAt sp a) ∧ t.cores = s.cores ∧
        (w.pos = none → t.ownerPos.get (lineOfCells w.data) 0 = pos ∧ ∀ z, z < 4 → z ≠ d → z ≠ w.src → t.OnWay (.exportedWriteApply z { w with pos := some pos })))) ∧
  (∀ (s : State) (p : Directed),
    let due := s.dpDone.get (p.src * 8192 + p.unit) 0 = p.ord ∧ (∀ y, y < 4 → p.clk.getD y 0 ≤ (s.die p.dst).app.getD y 0) ∧
      ∀ a, p.body = .atomg a → s.lineBusy a.core (a.pa / 64) a.id = false ∧ (p.src = p.dst ∨ a.pa / 64 ∉ (s.die p.src).waitLn)
    (¬ due → exec (.directedPacketPerform p) s = .next (s.push (.directedPacketPerform p))) ∧
    (due → ∃ t, exec (.directedPacketPerform p) s = .next t ∧ t.clk.urgent = s.clk.urgent ++ [bodyEv p.body] ∧
      t.dpDone.get (p.src * 8192 + p.unit) 0 = p.ord + 1 ∧ t.cores = s.cores ∧ t.dies = s.dies))

/-- R245, R246, R231, R244, R260, R261, R263, R357, R447: an access waits for the earlier accesses of its core to its line, a read also for the export of an atomic of the core's. Then a read's bytes are fixed, from
the host's memory or the die's view, and are on their way to the core, the command or the host; a write changes those bytes and no other, is counted by the die, and at an HBM address is
exported. An access that would leave its partition ends in fault 0x0E with nothing done; so does, with 0x18, one that a bound view does not serve, and lost data is reported.
R239, R240, R237, R263: an atomic at its home slice reads the old value and writes the new one in one step, its write is exported by the owner, and the old value is on its way with the owner's clock. On a bound view it waits
while the binding is PENDING or DRAINING, and else faults with 0x18 DETAIL 3 (R357, R358); on lost data it is reported. R238, R243: a remote ATOM is applied at its
target's scratchpad, or rejected with DETAIL 1, 2 or 3 and changes nothing. The choice of DETAIL 3 on a FAULTED binding is the model's (log 96). -/
def Obligations.HomeSliceAccesses : Prop :=
  (∀ (s : State) (a : Access),
    let line := a.pa / 64
    let base := line * 64
    let run (t : State) : Prop := exec (.homeSliceAccess a) s = .next t
    let waits : Prop := s.lineBusy a.core line a.id = true ∨ (a.wr = none ∧ s.atomLate a.core line = true)
    let inside : Prop := isSys a.pa = false ∧ (200 ≤ a.core ∨ s.gateOk (s.partOf a.core) (s.sliceNode a) (some a.pa) = true)
    let plain : Prop := inside ∧ s.bindingAt a.pa = none
    let gone (t : State) : Prop := a.core < 200 → ∀ r ∈ (t.core a.core).sent, r.id ≠ a.id
    let same (t : State) : Prop := ∀ sp x, t.byteAt sp x = s.byteAt sp x
    let val (n : Nat) (sg : Bool) (b : Bytes) : W64 := if sg then BitVec.ofInt 64 (sInt (8 * n) (leNat b)) else BitVec.ofNat 64 (leNat b)
    let answers (t : State) (b : Bytes) : Prop :=
      (∀ fn off, a.reply = .host fn off → t.msgs = s.msgs ++ [.read fn off (some b)]) ∧
      (∀ c tk n sg own, a.reply = .scalar c tk n sg own → t.OnWay (.scalarResultArrival c tk (val n sg (patch a.pa b own)))) ∧
      (∀ c id k, a.reply = .copy c id k → t.OnWay (.copyDataReturn c id k) ∧
        ∀ m ∈ (s.core c).ports, m.id = id → ∀ r, m.rds.find? (fun r => r.1 == k) = some r → { m with buf := m.buf.writeAll (cellsAt r.2.1 b) } ∈ (t.core c).ports)
    let fails (t : State) (code d : Nat) : Prop := gone t ∧ same t ∧
      (a.core < 200 → (∀ c id k, a.reply ≠ .copy c id k) → (∀ fn off, a.reply ≠ .host fn off) → (a.reply = .none → a.wr ≠ none) →
        ∀ tk, ((∃ c n sg own k, a.reply = .scalar c k n sg own ∧ tk = some k) ∨ ((∀ c k n sg own, a.reply ≠ .scalar c k n sg own) ∧ tk = none)) →
          t.OnWay (.remoteAtomRejection a.core { tk := tk, code := code, detail := d, pc := a.pc, slot := a.slot, addr := a.va })) ∧
      (∀ id k m, a.reply = .copy a.core id k → s.accessCmd a = some m → ¬ (m.kind = .cpref ∧ code = 0x18 ∧ d = 2) →
        ∃ n ∈ (t.core a.core).ports, n.id = m.id ∧ n.stopped = true ∧ (a.id, a.va, code * 256 + d) ∈ n.failed) ∧
      (∀ fn off, a.reply = .host fn off → a.wr = none → t.msgs = s.msgs ++ [.read fn off none])
    (waits → exec (.homeSliceAccess a) s = .next (s.push (.homeSliceAccess a))) ∧
    (¬ waits → a.wr = none → a.len ≤ 64 - a.pa % 64 →
      (isSys a.pa = true → ∃ t, run t ∧ answers t (s.hostMem.readN (a.pa - sysBase) a.len) ∧ same t ∧ gone t) ∧
      (plain → s.lostData a.pa = false → ∃ t, run t ∧ answers t ((s.die a.die).view.readN a.pa a.len) ∧ same t ∧ gone t ∧
        (a.core < 200 → a.reply ≠ .none →
          (a.l1 = true → s.lineBusy a.core line s.clk.ids = false → (t.core a.core).l1.find line = some ((s.die a.die).view.readN base 64)) ∧
          (a.l1 = false → (t.core a.core).l1.find line = none))) ∧
      (∀ arr ent b l, inside → s.bindingAt a.pa = some (arr, ent, b) → b.st = .active → b.wr = false → (s.die a.die).viewL2.find line = some l →
        ∃ t, run t ∧ answers t ((l.drop (a.pa % 64)).take a.len) ∧ same t ∧ gone t) ∧
      (∀ arr ent b, inside → s.bindingAt a.pa = some (arr, ent, b) → b.st = .active → b.wr = false → (s.die a.die).viewL2.find line = none →
        ∃ t, run t ∧ t.OnWay (.kneadRecordRequest a) ∧ same t)) ∧
    (¬ waits → ∀ data, a.wr = some data →
      (isSys a.pa = true → s.hostMem.wf = true → ∃ t, run t ∧ gone t ∧ (∀ x, t.hostMem.read x = laid (data.map (fun p => (p.1 - sysBase, p.2))) x (s.hostMem.read x)) ∧
        ∀ sp x, sp ≠ .host → t.byteAt sp x = s.byteAt sp x) ∧
      (plain → s.lostData a.pa = false → (s.die a.die).view.wf = true → (∀ p ∈ data, p.1 / 64 = line) → data ≠ [] →
        (s.ownerDie base = a.die → ∀ p ∈ data, (s.die a.die).stamp.get p.1 0 ≤ s.ownerPos.get line 0) → (s.die a.die).app.length = 4 → a.die < 4 →
        ∃ t w, run t ∧ gone t ∧ (∀ x, (t.die a.die).view.read x = laid data x ((s.die a.die).view.read x)) ∧ (∀ sp x, sp ≠ .view a.die → t.byteAt sp x = s.byteAt sp x) ∧
          (t.die a.die).app = (s.die a.die).app.set a.die ((s.die a.die).app.getD a.die 0 + 1) ∧ w.src = a.die ∧ w.data = data ∧ w.clk = (t.die a.die).app ∧
          (s.ownerDie base = a.die → ∀ z, z < 4 → z ≠ a.die → t.OnWay (.exportedWriteApply z w)) ∧
          (s.ownerDie base ≠ a.die → w.pos = none ∧ t.OnWay (.exportedWriteApply (s.ownerDie base) w))) ∧
      (∀ arr ent b, inside → s.bindingAt a.pa = some (arr, ent, b) → b.st = .active → b.wr = true →
        ∃ t p, run t ∧ same t ∧ p.body = .coll { arr := arr, ent := ent, data := data, acc := a } ∧ p.dst = arr / 2 ∧ t.OnWay (.directedPacketPerform p))) ∧
    (¬ waits → isSys a.pa = false → a.core < 200 → s.gateOk (s.partOf a.core) (s.sliceNode a) (some a.pa) = false → ∃ t, run t ∧ fails t 0x0E 0) ∧
    (¬ waits → ∀ arr ent b, inside → s.bindingAt a.pa = some (arr, ent, b) →
      (b.st = .faulted → ∃ t, run t ∧ fails t 0x18 4) ∧
      (b.st = .active → b.wr = false → a.wr ≠ none → ∃ t, run t ∧ fails t 0x18 1) ∧
      (b.st = .active → b.wr = true → a.wr = none → ∃ t, run t ∧ fails t 0x18 2) ∧
      (b.st = .pending ∨ b.st = .draining → exec (.homeSliceAccess a) s = .next (s.push (.homeSliceAccess a)))) ∧
    (¬ waits → plain → s.lostData a.pa = true → let p := if 200 ≤ a.core then a.core - 200 else s.partOf a.core
      ∃ t, run t ∧ gone t ∧ same t ∧ ∃ e ∈ t.clk.pending ++ t.clk.urgent, e = .lossOfStoredState (.part p) ∨ ∃ z f, e = .partitionReset p z f)) ∧
  (∀ (s : State) (a : AtomReq),
    let n := atomBytes a.size
    let new (old : Nat) : Bytes := leBytes n (atomNew a.aop a.size old a.v.toNat a.c.toNat)
    let gone (t : State) : Prop := a.core < 200 → ∀ r ∈ (t.core a.core).sent, r.id ≠ a.id
    let same (t : State) : Prop := ∀ sp x, t.byteAt sp x = s.byteAt sp x
    let backClk (d : Nat) (t : State) : List Nat := if d = dieOf a.core then [] else (t.die d).app
    (let d := s.ownerDie a.pa
     let old := leNat ((s.die d).view.readN a.pa n)
     (s.bindingAt a.pa = none → s.lostData a.pa = false → (s.die d).view.wf = true → a.pa % n = 0 → (∀ i, i < n → (s.die d).stamp.get (a.pa + i) 0 ≤ s.ownerPos.get (a.pa / 64) 0) →
       ∃ t, exec (.homeSliceAtomic a) s = .next t ∧ (∀ x, (t.die d).view.read x = laid (cellsAt a.pa (new old)) x ((s.die d).view.read x)) ∧
         (∀ sp x, sp ≠ .view d → t.byteAt sp x = s.byteAt sp x) ∧ gone t ∧
         (∀ z, z < 4 → z ≠ d → ∃ w, w.src = d ∧ w.data = cellsAt a.pa (new old) ∧ w.clk = (t.die d).app ∧ t.OnWay (.exportedWriteApply z w)) ∧
         ∀ tk, a.tk = some tk → t.OnWay (.atomicResultArrival a.core tk (extendBy a.size old) (backClk d t))) ∧
     (s.bindingAt a.pa = none → s.lostData a.pa = true →
       ∃ t, exec (.homeSliceAtomic a) s = .next t ∧ gone t ∧ same t ∧ ∃ e ∈ t.clk.pending ++ t.clk.urgent,
         e = .lossOfStoredState (.part (s.partOf a.core)) ∨ ∃ z f, e = .partitionReset (s.partOf a.core) z f) ∧
     (∀ arr ent b, s.bindingAt a.pa = some (arr, ent, b) →
       (b.st = .pending ∨ b.st = .draining → exec (.homeSliceAtomic a) s = .next (s.push (.homeSliceAtomic a))) ∧
       (b.st = .active ∨ b.st = .faulted →
         ∃ t, exec (.homeSliceAtomic a) s = .next t ∧ gone t ∧ same t ∧
           ((∀ m ∈ (s.core a.core).ports, a.id ∉ m.wrs) →
             t.OnWay (.remoteAtomRejection a.core { tk := a.tk, code := 0x18, detail := 3, pc := a.pc, slot := a.slot, addr := a.ea })) ∧
           ∀ m, (s.core a.core).ports.find? (fun m => m.wrs.contains a.id) = some m →
             ∃ x ∈ (t.core a.core).ports, x.id = m.id ∧ x.stopped = true ∧ (a.id, a.ea, 0x18 * 256 + 3) ∈ x.failed))) ∧
    (let k := s.core a.tgt
     let old := leNat (k.spad.readN a.pa n)
     let ok := s.accepts a.tgt a.part a.pasid = true
     let no (d : Nat) : Prop := ∃ t, exec (.remoteAtomApply a) s = .next t ∧ same t ∧ gone t ∧
       t.OnWay (.remoteAtomRejection a.core { tk := a.tk, code := 0x1E, detail := d, pc := a.pc, slot := a.slot, addr := a.ea })
     (¬ ok → no 1) ∧ (ok → k.limSpad < a.ea.toNat + n → no 2) ∧ (ok → a.ea.toNat + n ≤ k.limSpad → 4193280 ≤ a.ea.toNat → no 3) ∧
     (ok → a.ea.toNat + n ≤ k.limSpad → a.ea.toNat < 4193280 → k.spad.cells.wf = true →
       ∃ t, exec (.remoteAtomApply a) s = .next t ∧ gone t ∧ (∀ x, (t.core a.tgt).spad.read x = laid (cellsAt a.pa (new old)) x (k.spad.read x)) ∧
         (∀ sp x, sp ≠ .spad a.tgt → t.byteAt sp x = s.byteAt sp x) ∧
         ∀ tk, a.tk = some tk → t.OnWay (.atomicResultArrival a.core tk (extendBy a.size old) (backClk (dieOf a.tgt) t)))))

/-- R266: a release completes when every earlier read and HBM write of its core, and every other access within its scope, has been performed, no command still sends its accesses, and at package scope every view has taken the core's writes; what it held back
leaves then. R253, R255: a walk that ends gives every requester that shares it a TLB entry and the die one, or a fault for the accesses; it waits for a walker. R256, R464: an invalidation first waits for the host's writes before it, then until every die has taken them, then until nothing it covers is on its
way. R248, R249: bank group PERIOD mod 16 is refreshed in its window; a weight-store write, in arrival order, waits for its partition's items and for that window. R250: a failed channel is noted, and lost table data reported.
R439: among the heads whose AGE has reached AGEMAX the oldest is granted; with none there the port keeps to the VC it serves while that has a head and weight left. A granted packet leaves its buffer for its next stage,
or its destination, and its port is busy for its flits. A busy port, or one whose island pauses (R444), grants nothing. -/
def Obligations.MemorySystemEvents : Prop :=
  ((∀ (s : State) (c sc : Nat),
    (s.releaseOk c sc = true ↔ (∀ r ∈ (s.core c).sent, r.kind = 2 ∧ sc < r.scope) ∧ (∀ x ∈ (s.core c).ports, x.sent = true → 3 ≤ x.phase) ∧
      (3 ≤ sc → ∀ x z, x < 4 → z < 4 → (s.core c).expMax.getD x 0 ≤ (s.die z).app.getD x 0)) ∧
    ((s.core c).relWait = some sc → (s.core c).relItem = false →
      (s.releaseOk c sc = false → exec (.releaseComplete c) s = .next (s.push (.releaseComplete c))) ∧
      (s.releaseOk c sc = true → exec (.releaseComplete c) s = .next ((s.modCore c (fun k => { k with relWait := none })).pump c)) ∧
      (s.releaseOk c sc = true → (s.core c).items = [] → ∃ t, exec (.releaseComplete c) s = .next t ∧ (t.core c).relWait = none ∧ (t.core c).regs = (s.core c).regs ∧
        ∀ sp a, t.byteAt sp a = s.byteAt sp a)) ∧
    ((s.core c).relWait = some sc → (s.core c).relItem = true → exec (.releaseComplete c) s = .next s) ∧
    ((s.core c).relWait = none → exec (.releaseComplete c) s = .next (s.pump c))) ∧
  (∀ (s : State) (w : WalkReq),
    let shares (x : WalkReq) : Prop := x = w ∨ (x ∈ s.walks ∧ dieOf x.core = dieOf w.core ∧ x.fn = w.fn ∧ x.pasid = w.pasid ∧ x.va = w.va)
    let done (t : State) : Prop := exec (.pageWalkComplete w) s = .next t ∧ t.cores = s.cores ∧ w ∉ t.walks ∧ ∀ x ∈ t.walks, x ∈ s.walks
    (s.walking w = false → exec (.pageWalkComplete w) s = .next (s.push (.pageWalkComplete w))) ∧
    (s.walking w = true →
      (∀ r, s.walk (dieOf w.core) w.fn w.pasid w.va = .ok r →
        let ent (core tlb : Nat) : TlbEnt := { core := core, tlb := tlb, fn := w.fn, pasid := w.pasid, va := w.va.toNat / min r.size 4096 * min r.size 4096, size := min r.size 4096,
                                               pa := r.pa / min r.size 4096 * min r.size 4096, p1 := r.p1, p2 := r.p2 }
        ∃ t, done t ∧ t.walkFaults = s.walkFaults ∧ ent (dieOf w.core) 3 ∈ t.tlbs ∧ (∀ x, shares x → ent x.core x.tlb ∈ t.tlbs) ∧
          ∀ e ∈ t.tlbs, e ∈ s.tlbs ∨ e = ent (dieOf w.core) 3 ∨ ∃ x, shares x ∧ e = ent x.core x.tlb) ∧
      (∀ code d, s.walk (dieOf w.core) w.fn w.pasid w.va = .error (code, d) → 2 ≤ code → ∃ t, done t ∧ t.tlbs = s.tlbs ∧
        (∀ f ∈ s.walkFaults, f ∈ t.walkFaults) ∧
        ∀ x, shares x → ({ core := x.core, tlb := x.tlb, fn := w.fn, pasid := w.pasid, page := w.va.toNat / 4096, code := code, detail := d } : WalkFault) ∈ t.walkFaults) ∧
      (∀ d, s.walk (dieOf w.core) w.fn w.pasid w.va = .error (0, d) → ∃ t, done t ∧ t.tlbs = s.tlbs ∧ t.walkFaults = s.walkFaults ∧
        ∃ e ∈ t.clk.pending ++ t.clk.urgent, e = .lossOfStoredState (.part w.fn) ∨ ∃ z f, e = .partitionReset w.fn z f) ∧
      (∀ pa, s.walk (dieOf w.core) w.fn w.pasid w.va = .error (1, pa) → ∃ t, exec (.pageWalkComplete w) s = .next t ∧ t.cores = s.cores ∧ t.walks = s.walks ∧ t.tlbs = s.tlbs ∧
        Ev.pageWalkComplete w ∈ t.clk.pending))) ∧
  (∀ (s : State) (f : Nat), (s.fn f).inv = [] → exec (.invalidationComplete f) s = .next s) ∧
  (∀ (s : State) (f : Nat) (r : InvReq) (l : List InvReq), (s.fn f).inv = r :: l →
    let again : Prop := exec (.invalidationComplete f) s = .next (s.push (.invalidationComplete f))
    let now : List (Nat × Nat) := s.cores.l.map (fun x => (x.1, x.2.seqNo))
    let next (t : State) : Prop := exec (.invalidationComplete f) s = .next t ∧ t.cores = s.cores ∧ ∀ sp a, t.byteAt sp a = s.byteAt sp a
    (r.phase = 0 → s.hostWrites r = true → again) ∧
    (r.phase = 0 → s.hostWrites r = false → ∃ t, next t ∧ (t.fn f).inv = { r with phase := 1, clk := (s.die 0).app } :: l ∧ Ev.invalidationComplete f ∈ t.clk.pending) ∧
    (r.phase = 1 → s.exported r.clk = false → again) ∧
    (r.phase = 1 → s.exported r.clk = true → ∃ t, next t ∧ (t.fn f).inv = { r with phase := 2, ids := s.clk.ids, seqs := now } :: l ∧ Ev.invalidationComplete f ∈ t.clk.pending) ∧
    (2 ≤ r.phase → s.invDone f r = false → again) ∧
    (2 ≤ r.phase → s.invDone f r = true → ∃ t, next t ∧ (t.fn f).inv = l ∧ (l ≠ [] → Ev.invalidationComplete f ∈ t.clk.pending))) ∧
  (∀ (s : State), exec .refreshWindowStart s = .next { s with clk := { s.clk with refresh := some (s.clk.cyc / 8192 % 16) } } ∧
    exec .refreshWindowEnd s = .next { s with clk := { s.clk with refresh := none } }) ∧
  (∀ (s : State) (d : Nat), (s.die d).wqueue = [] → exec (.weightStoreWritePerform d) s = .next s) ∧
  (∀ (s : State) (d p : Nat) (data : List (Nat × BitVec 8)) (who : Option (Nat × Nat)) (l0 l : List (Nat × List (Nat × BitVec 8) × Option (Nat × Nat))),
    let clash : Prop := ∃ x ∈ data, s.clk.refresh = some (x.1 / 256 % 16)
    ((s.die d).wqueue ≠ [] → (∀ w ∈ (s.die d).wqueue, s.partRuns w.1 d = true) → exec (.weightStoreWritePerform d) s = .next (s.push (.weightStoreWritePerform d))) ∧
    ((s.die d).wqueue = l0 ++ (p, data, who) :: l → (∀ w ∈ l0, s.partRuns w.1 d = true) → s.partRuns p d = false →
      (clash → exec (.weightStoreWritePerform d) s = .next (s.push (.weightStoreWritePerform d))) ∧
      (¬ clash → (s.die d).ws.wf = true →
        ∃ t, exec (.weightStoreWritePerform d) s = .next t ∧ (∀ a, (t.die d).ws.read a = laid data a ((s.die d).ws.read a)) ∧ (t.die d).wqueue = l0 ++ l ∧
          (∀ c id, who = some (c, id) → c < 200 → ∀ r ∈ (t.core c).sent, r.id ≠ id) ∧ (l0 ++ l ≠ [] → Ev.weightStoreWritePerform d ∈ t.clk.pending) ∧
          ∀ sp a, sp ≠ .ws d → t.byteAt sp a = s.byteAt sp a))) ∧
  (∀ (s : State) (st ch : Nat), ∃ t, exec (.hbmChannelFailure st ch) s = .next t ∧ (∀ x, x ∈ t.hbmFail ↔ x ∈ s.hbmFail ∨ x = (st, ch)) ∧ t.cores = s.cores ∧ t.dies = s.dies)) ∧
  ((∀ (cyc amax : Nat) (e : List (Nat × Nat × Packet)) (h : Nat × Nat × Packet), promoted cyc amax e = some h →
    h ∈ e ∧ amax ≤ h.2.2.age cyc amax ∧ ∀ g ∈ e, amax ≤ g.2.2.age cyc amax → g.2.2.age cyc amax ≤ h.2.2.age cyc amax) ∧
  (∀ (s : State) (u : Nat) (port out : OutPort) (e : List (Nat × Nat × Packet)) (h : Nat × Nat × Packet), s.arbitrate u port e = some (h, out) →
    h ∈ e ∧ (∀ g, promoted s.clk.cyc (s.nocAgeMax u) e = some g → h = g ∧ out = port) ∧
    (promoted s.clk.cyc (s.nocAgeMax u) e = none → (∃ g ∈ e, g.2.1 = port.cur) → port.cnt ≠ 0 → h.2.1 = port.cur ∧ out = { port with cnt := port.cnt - 1 })) ∧
  (∀ (s : State) (u o : Nat),
    let port := (s.router u).out.get o {}
    let stopped : Prop := s.clk.cyc < port.freeAt ∨ s.unitPaused u = true
    (stopped → exec (.packetGrant u o) s = .next (s.push (.packetGrant u o)) ∧ exec (.vcAgePromotion u o) s = .next s) ∧
    (¬ stopped → s.arbitrate u port (s.heads u o) = none → exec (.packetGrant u o) s = .next s ∨ exec (.packetGrant u o) s = .next (s.push (.packetGrant u o))) ∧
    (¬ stopped → promoted s.clk.cyc (s.nocAgeMax u) (s.heads u o) = none → exec (.vcAgePromotion u o) s = .next s)) ∧
  (∀ (s : State) (u o : Nat) (h : Nat × Nat × Packet) (out : OutPort) (r : List Packet),
    let port := (s.router u).out.get o {}
    let granted (t : State) : Prop := t.cores = s.cores ∧ t.dies = s.dies ∧
      (h.2.2.path.length = 1 → h.2.2.payload ∈ t.clk.pending ∧ ((t.router u).q h.1 h.2.1).length = r.length ∧ ((t.router u).out.get o {}).freeAt = s.clk.cyc + h.2.2.flits) ∧
      (∀ x y v i z, h.2.2.path = x :: (v, i, z) :: y → v ≠ u → ((t.router u).q h.1 h.2.1).length = r.length ∧ ((t.router u).out.get o {}).freeAt = s.clk.cyc + h.2.2.flits ∧
        ∃ p ∈ (t.router v).q i h.2.2.vc, p.payload = h.2.2.payload ∧ p.path = (v, i, z) :: y)
    (s.router u).q h.1 h.2.1 = h.2.2 :: r → port.freeAt ≤ s.clk.cyc → s.unitPaused u = false →
      (s.arbitrate u port (s.heads u o) = some (h, out) → ∃ t, exec (.packetGrant u o) s = .next t ∧ granted t) ∧
      (promoted s.clk.cyc (s.nocAgeMax u) (s.heads u o) = some h → ∃ t, exec (.vcAgePromotion u o) s = .next t ∧ granted t)))

/-! ## Channels -/

/-- R283 to R286, R194: CHOPEN of an image at an aligned address within the scratchpad gives the status of the first check of R284 that fails; with none it opens its
channel and gives status 0: the channel is open with the image's fields and empty, and both ends know its capacity. CHCLOSE gives 5 for a channel open to another
partition, 1 for one that is not open, 6 for one with entries left without FORCE; else it frees the channel and its quanta and gives status 0: a notice is on
its way to both ends, and a rejection to the reader for every position not delivered. CHSTAT asks the table once, waits for its answer, and then gives the word, or
fault 0x0E where the entry is open to another partition. A channel number beyond 4,095 raises fault 0x04.
R286, R287: a CHWR or CHRD asks the table and waits in its slot for its answer. R288: a CHWR whose checks pass and whose channel has room holds, or in handler mode appends, the entries that no replay suppresses, moves WPOS by n and counts
WPEND; without room, after an unfinished CHWR or before its release it waits. R289: a CHRD asks for the positions
its issue took, into its reserved entries. A closed channel is fault 0x11 with DETAIL 3, one of other ends 1 or 2, one of another type 0x04; on a control core both raise fault 0x07; TADDR is the channel number. -/
def Obligations.ChannelOps : Prop :=
  ((∀ (s : State) (d a : BitVec 6) (v : W64), isCtl s.cur.core = true → s.Has true a v →
    let img := leNat (s.me.spad.readN v.toNat 64)
    let e := chanOfImage img
    let p := s.partOf s.cur.core
    let st : Nat :=
      if s.partOf e.writer ≠ p ∨ s.partOf e.reader ≠ p then 5
      else if (s.chan e.chnum).open_ = true then 1
      else if imageReserved img = true ∨ 13 ≤ e.ty ∨ 8 < e.logring ∨ e.writer = e.reader ∨ chanDie e.chnum ≠ e.rdie then 2
      else if (s.die e.rdie).ringPlace (2 ^ e.logring) = none then 3
      else if (s.part p).resFree < e.spinit then 4 else 0
    let opened (c : Nat) : ChanEnd := { cap := e.cap, due := ((s.core c).chanEnd e.chnum).due, stale := ((s.core c).chanEnd e.chnum).due }
    (v.toNat % 64 ≠ 0 → exec (.chopen d a) s = .next (s.raise 0x09 0 v)) ∧
    (v.toNat % 64 = 0 → 1047552 < v.toNat + 64 → exec (.chopen d a) s = .next (s.raise 0x0A 0 v)) ∧
    (v.toNat % 64 = 0 → v.toNat + 64 ≤ 1047552 → st ≠ 0 → exec (.chopen d a) s = .next (s.later d.toNat (BitVec.ofNat 64 st))) ∧
    (v.toNat % 64 = 0 → v.toNat + 64 ≤ 1047552 → st = 0 → ∃ t, exec (.chopen d a) s = .next t ∧
      Ev.scalarResultArrival s.cur.core (s.me.feTicket s.cur.op d.toNat).1 0 ∈ t.clk.pending ∧
      (let x := t.chan e.chnum
       x.open_ = true ∧ x.part = p ∧ x.ty = e.ty ∧ x.writer = e.writer ∧ x.reader = e.reader ∧ x.logring = e.logring ∧
       (s.die e.rdie).ringPlace (2 ^ e.logring) = some (x.rslice, x.ringoff) ∧
       x.spmax = e.spinit ∧ x.tailw = 0 ∧ x.tailo = 0 ∧ x.headr = 0 ∧ x.heado = 0 ∧ x.rtail = 0) ∧
      ((t.core e.writer).chanEnd e.chnum) = opened e.writer ∧ ((t.core e.reader).chanEnd e.chnum) = opened e.reader)) ∧
  (∀ (s : State) (d a : BitVec 6) (f : Bool) (v : W64), isCtl s.cur.core = true → s.Has true a v →
    let e := s.chan v.toNat
    let p := s.partOf s.cur.core
    let st : Nat := if e.open_ = true ∧ e.part ≠ p then 5 else if e.open_ = false then 1 else if f = false ∧ e.tailw ≠ e.heado then 6 else 0
    (4096 ≤ v.toNat → exec (.chclose d a f) s = .next (s.raise 0x04 0 0)) ∧
    (v.toNat < 4096 → st ≠ 0 → exec (.chclose d a f) s = .next (s.later d.toNat (BitVec.ofNat 64 st))) ∧
    (v.toNat < 4096 → st = 0 → ∃ t, exec (.chclose d a f) s = .next t ∧ (t.chan v.toNat).open_ = false ∧
      (∀ u ∈ (t.part p).resUsed, u / 65536 ≠ v.toNat) ∧ t.OnWay (.channelCloseNotice e.writer v.toNat) ∧ t.OnWay (.channelCloseNotice e.reader v.toNat) ∧
      (∀ r ∈ e.reads, t.OnWay (.remoteAtomRejection r.core { tk := none, code := 0x11, detail := 3, pc := r.pc, slot := r.slot, addr := BitVec.ofNat 64 r.ch })) ∧
      Ev.scalarResultArrival s.cur.core (s.me.feTicket s.cur.op d.toNat).1 0 ∈ t.clk.pending)) ∧
  (∀ (s : State) (d a : BitVec 6) (n : BitVec 3) (v : W64), s.Has true a v →
    let c := s.cur.core
    let i := Instr.chstat d a n
    (4096 ≤ v.toNat → exec i s = .next (s.raise 0x04 0 0)) ∧
    (v.toNat < 4096 → s.cur.op.answer = none → ∃ t, exec i s = .next t ∧ t.OnWay (.channelTableAnswer c s.cur.slot) ∧
      (t.core c).slots.get s.cur.slot [] = { s.cur.op with op := i, waits := true, answer := some none } :: s.me.slots.get s.cur.slot []) ∧
    (v.toNat < 4096 → s.cur.op.answer = some none → exec i s = .next (s.requeue i)) ∧
    (∀ w, v.toNat < 4096 → s.cur.op.answer = some (some w) →
      (w.open_ = true ∧ w.part ≠ s.partOf c → exec i s = .next (s.raise 0x0E 0 v)) ∧
      (w.open_ = false ∨ w.part = s.partOf c → exec i s = .next (s.later d.toNat w.word))))) ∧
  (∀ (s : State) (l q : BitVec 3) (sr : BitVec 6) (x : Bool) (sg : BitVec 4) (v : W64),
    let c := s.cur.core
    let p := s.cur.op
    let n := l.toNat + 1
    let chwr := Instr.chwr l q sr x sg
    let chrd := Instr.chrd l q sr x sg
    let ch := v.toNat
    let e := s.me.chanEnd ch
    let same (t : State) : Prop := ∀ sp a, t.byteAt sp a = s.byteAt sp a
    (s.me.stageGuard p sg = false → exec chwr s = .next s ∧ exec chrd s = .next s) ∧
    (s.me.stageGuard p sg = true → isCtl c = true → exec chwr s = .next (s.raise 0x07 3 0) ∧ exec chrd s = .next (s.raise 0x07 3 0)) ∧
    (s.me.stageGuard p sg = true → isCtl c = false → s.me.qOn q = false → exec chwr s = .next (s.raise 0x04 0 0) ∧ exec chrd s = .next (s.raise 0x04 0 0)) ∧
    (s.me.stageGuard p sg = true → isCtl c = false → s.me.qOn q = true → s.Awaits true sr → exec chwr s = .next (s.requeue chwr) ∧ exec chrd s = .next (s.requeue chrd)) ∧
    (s.me.stageGuard p sg = true → isCtl c = false → s.me.qOn q = true → s.Has true sr v → 4096 ≤ ch → ∀ i ∈ [chwr, chrd],
      exec i s = .next (s.raise 0x04 0 (BitVec.ofNat 64 (ch % 4096)))) ∧
    (s.me.stageGuard p sg = true → isCtl c = false → s.me.qOn q = true → s.Has true sr v → ch < 4096 →
      (p.answer = none → ∀ i ∈ [chwr, chrd], ∃ t, exec i s = .next t ∧ t.OnWay (.channelTableAnswer c s.cur.slot) ∧ (t.core c).regs = s.me.regs ∧ t.dies = s.dies ∧
        (t.core c).slots.get s.cur.slot [] = { p with op := i, waits := true, answer := some none } :: s.me.slots.get s.cur.slot []) ∧
      (p.answer = some none → exec chwr s = .next (s.requeue chwr) ∧ exec chrd s = .next (s.requeue chrd)) ∧
      (∀ w : TableAnswer, p.answer = some (some w) →
        let mine (core : Nat) : Prop := core = c ∧ w.part = s.partOf c
        (w.open_ = false → exec chwr s = .next (s.raise 0x11 3 v) ∧ exec chrd s = .next (s.raise 0x11 3 v)) ∧
        (w.open_ = true → ¬ mine w.writer → exec chwr s = .next (s.raise 0x11 1 v)) ∧
        (w.open_ = true → ¬ mine w.reader → exec chrd s = .next (s.raise 0x11 2 v)) ∧
        (w.open_ = true → mine w.writer → bitsAt w.word.toNat 4 4 ≠ s.me.qTy q → exec chwr s = .next (s.raise 0x04 0 v)) ∧
        (w.open_ = true → mine w.reader → bitsAt w.word.toNat 4 4 ≠ s.me.qTy q → exec chrd s = .next (s.raise 0x04 0 v)) ∧
        (w.open_ = true → mine w.writer → bitsAt w.word.toNat 4 4 = s.me.qTy q →
          let m := n - Min.min n (e.tailw - e.wpos)
          let late : Prop := (∃ y ∈ s.me.slots.l, ∃ o ∈ y.2, isChwr o.op = true ∧ o.seq < p.place s.me) ∨ e.cap + e.heado < e.tailw + e.wpend + m ∨ s.relBlocked x = true
          let src := s.me.readEnts p { b := true, q := q, k := 0 } n
          let moved (t : State) : Prop := ((t.core c).chanEnd ch).wpos = e.wpos + n ∧ ((t.core c).chanEnd ch).wpend = e.wpend + m ∧ (t.core c).regs = s.me.regs ∧ same t
          (late → exec chwr s = .next (s.requeue chwr)) ∧
          (¬ late → src = .wait → exec chwr s = .next (s.requeue chwr)) ∧
          (∀ code d, ¬ late → src = .fault code d → exec chwr s = .next (s.raise code d 0)) ∧
          (∀ es, ¬ late → src = .val es → s.Holding →
            (64 < s.me.captured p.ival + m → exec chwr s = .next (s.raise 0x08 0x05 0)) ∧
            (s.me.captured p.ival + m ≤ 64 → ∃ t it, exec chwr s = .next t ∧ moved t ∧ it ∈ (t.core c).items ∧ it.kind = .chwr ch m (es.drop (n - m)) ∧ it.rel = x)) ∧
          (∀ es, ¬ late → src = .val es → ¬ s.Holding →
            ∃ t, exec chwr s = .next t ∧ moved t ∧
              (e.closed = true → ∃ f ∈ (t.core c).async, f.code = 0x11 ∧ f.detail = 3 ∧ f.addr = v) ∧
              (e.closed = false → ∀ b ∈ es.drop (n - m), ∃ z a, z.body = .append a ∧ a.core = c ∧ a.ch = ch ∧ a.ents = [b] ∧ t.OnWay (.directedPacketPerform z)))) ∧
        (w.open_ = true → mine w.reader → bitsAt w.word.toNat 4 4 = s.me.qTy q →
          let ask (pos : Nat) : ChRead := { core := c, ch := ch, pos := pos, q := q.toNat, idx := s.me.resvIdx p q.toNat, acq := if x then some p.scope else none,
                                            seq := p.place s.me, pc := p.pc, slot := s.cur.slot, ask := n }
          (∀ pos, Tab.findL p.caps 65 = some (.val pos) → ∃ t, exec chrd s = .next t ∧ t.cores = s.cores ∧ t.dies = s.dies ∧ t.OnWay (.channelDelivery (ask pos.toNat))) ∧
          (Tab.findL p.caps 65 = none → ∃ t, exec chrd s = .next t ∧ t.dies = s.dies ∧ (t.core c).chanEnd ch = { e with rpos := e.rpos + n } ∧ (t.core c).regs = s.me.regs ∧
            t.OnWay (.channelDelivery (ask e.rpos)))))))

/-- R291, R292: an append takes the positions from TAILW on, to the ring where nothing is spilled and it has room, else to the spill, and the data of a position that a reader waits for is on its way; an entry that is not open to the writer rejects it. R289, R292,
R293: the request of a CHRD has its positions wait at the table, or is rejected where the entry is not open to its reader; a
delivered position fills its reserved entry, after the acquire of a CHRD with ACQ. R291: a refill moves the oldest spilled entry into the ring. R288, R285: reports and notices reach the end cores, but for those of a channel closed and opened again since. R287: the
table answers with its word, its owner and whether it is open.
R295, R292: in a partition where no core is blocked for the window the Proofer does nothing; of two blocked cores that wait for each other, a full channel grows, and where it cannot, or none is full, their control core takes fault 0x12 with DETAIL 2 or 1
and the cycle is noted. The growth of a channel adds 4,096 entries to its capacity and takes one quantum, and its writer learns of it; one that has become
impossible is fault 0x12 with DETAIL 2 at the control core, one of a closed channel is dropped. -/
def Obligations.ChannelController : Prop :=
  ((∀ (s : State) (a : ChAppend),
    let e := s.chan a.ch
    let gone (t : State) : Prop := a.core < 200 → ∀ r ∈ (t.core a.core).sent, r.id ≠ a.id
    ((e.open_ = false ∨ e.writer ≠ a.core) → ∃ t, exec (.channelAppend a) s = .next t ∧ t.dies = s.dies ∧ gone t ∧
      t.OnWay (.remoteAtomRejection a.core { tk := none, code := 0x11, detail := 3, pc := a.pc, slot := a.slot, addr := BitVec.ofNat 64 a.ch })) ∧
    (e.open_ = true → e.writer = a.core → ∃ t, exec (.channelAppend a) s = .next t ∧ gone t ∧ (t.chan a.ch).tailw = e.tailw + a.ents.length ∧ (t.chan a.ch).reads = e.reads ∧
      t.OnWay (.channelReportArrival e.writer a.ch (.tailw (e.tailw + a.ents.length) a.ents.length)) ∧
      (∀ r ∈ e.reads, r.ch = a.ch → e.tailw ≤ r.pos → r.pos < e.tailw + a.ents.length → t.OnWay (.channelDelivery r)) ∧
      (e.headrWant = [] → ∀ j b, a.ents[j]? = some b → (t.chan a.ch).data.get (e.tailw + j) [] = b)) ∧
    (∀ b, e.open_ = true → e.writer = a.core → a.ents = [b] → e.headrWant = [] →
      let ring := e.spill = false ∧ e.tailw - e.heado < e.re
      ∃ t, exec (.channelAppend a) s = .next t ∧
        (ring → (t.chan a.ch).rtail = e.tailw + 1 ∧ (t.chan a.ch).spill = false) ∧ (¬ ring → (t.chan a.ch).rtail = e.rtail) ∧
        (¬ ring → e.rtail ≤ e.tailw → (t.chan a.ch).spill = true ∧ (t.chan a.ch).spq = (e.tailw + 1 - e.rtail + 4095) / 4096))) ∧
  (∀ (s : State) (d : ChRead), d.ask ≠ 0 →
    let e := s.chan d.ch
    ((e.open_ = false ∨ e.reader ≠ d.core) → ∃ t, exec (.channelDelivery d) s = .next t ∧ t.dies = s.dies ∧ t.cores = s.cores ∧
      t.OnWay (.remoteAtomRejection d.core { tk := none, code := 0x11, detail := 3, pc := d.pc, slot := d.slot, addr := BitVec.ofNat 64 d.ch })) ∧
    (e.open_ = true → e.reader = d.core → ∃ t rs, exec (.channelDelivery d) s = .next t ∧ t.cores = s.cores ∧ (t.chan d.ch).reads = e.reads ++ rs ∧ rs.length = d.ask ∧
      ∀ j r, rs[j]? = some r → r = { d with pos := d.pos + j, idx := (d.idx + j) % 65536, ask := 0 } ∧ (r.pos < e.tailw → t.OnWay (.channelDelivery r)))) ∧
  (∀ (s : State) (d : ChRead), d.ask = 0 →
    let e := s.chan d.ch
    let k := s.core d.core
    let u := k.queue d.q
    let en := u.ent d.idx
    let waits := ∃ sc, d.acq = some sc ∧ s.acquireReady d.core sc (some d.seq) = false
    let done (t : State) : Prop := exec (.channelDelivery d) s = .next t ∧ (d.acq.isSome = true → (t.core d.core).l1 = ⟨[]⟩) ∧
      (∀ sc, d.acq = some sc → sc ≠ 0 → (t.core d.core).rcv = [0, 0, 0, 0]) ∧ (t.chan d.ch).reads = e.reads.erase d ∧ (e.headrWant = [] → d.pos ∈ (t.chan d.ch).delivered)
    ((d ∉ e.reads ∨ e.tailw ≤ d.pos) → exec (.channelDelivery d) s = .next s) ∧
    (d ∈ e.reads → d.pos < e.tailw → waits → exec (.channelDelivery d) s = .next (s.push (.channelDelivery d))) ∧
    (d ∈ e.reads → d.pos < e.tailw → ¬ waits → en.seq = d.seq →
      (en.st = .reserved ∨ (en.st = .draining ∧ en.readers ≠ 0) → ∃ t, done t ∧
        ((t.core d.core).queue d.q).ent d.idx = (if en.st = .reserved then { en with st := .present, pres := true } else { en with pres := true }) ∧
        (k.spad.cells.wf = true → ∀ x, (t.core d.core).spad.read x = laid (cellsAt (u.addr d.idx) (e.data.get d.pos (List.replicate 256 0))) x (k.spad.read x))) ∧
      (en.st = .draining → en.readers = 0 → ∃ t, done t ∧ (((t.core d.core).queue d.q).ent d.idx).st = .free ∧ (t.core d.core).spad = k.spad))) ∧
  (∀ (s : State) (ch : Nat),
    let e := s.chan ch
    (e.canRefill = true ↔ e.open_ = true ∧ e.spill = true ∧ e.rtail - e.heado < e.re) ∧
    (e.canRefill = false → exec (.spillRefill ch) s = .next s) ∧
    (e.canRefill = true → ∃ t, exec (.spillRefill ch) s = .next t ∧ (t.chan ch).rtail = e.rtail + 1 ∧ (t.chan ch).tailw = e.tailw ∧
      ((t.chan ch).spill = true ↔ e.rtail + 1 < e.tailw) ∧ (e.headrWant = [] → (t.chan ch).data = e.data))) ∧
  (∀ (s : State) (c ch v m : Nat),
    let e := (s.core c).chanEnd ch
    let after (i : Instr) (e' : ChanEnd) : Prop := ∃ t, exec i s = .next t ∧ (t.core c).chanEnd ch = e' ∧ (t.core c).regs = (s.core c).regs ∧ t.dies = s.dies ∧ ∀ x, x ≠ c → t.core x = s.core x
    (e.stale = 0 → after (.channelReportArrival c ch (.tailw v m)) { e with tailw := Max.max e.tailw v, wpend := e.wpend - m } ∧
      after (.channelReportArrival c ch (.heado v)) { e with heado := Max.max e.heado v } ∧ after (.channelReportArrival c ch (.cap v)) { e with cap := v } ∧
      after (.channelCloseNotice c ch) { e with closed := true, due := e.due - 1 }) ∧
    (e.stale ≠ 0 → (∀ r, after (.channelReportArrival c ch r) e) ∧ after (.channelCloseNotice c ch) { e with stale := e.stale - 1, due := e.due - 1 })) ∧
  (∀ (s : State) (c sl : Nat) (p : SlipOp) (r : List SlipOp) (reg n : Nat) (v : W64), (s.core c).slots.get sl [] = p :: r → p.answer = some none → chanArg p.op = some (reg, n) →
    (s.core c).readReg p true reg = .val v →
    let e := s.chan (v.toNat % 4096)
    ∃ t, exec (.channelTableAnswer c sl) s = .next t ∧ t.dies = s.dies ∧ (t.core c).regs = (s.core c).regs ∧
      (t.core c).slots.get sl [] = { p with answer := some (some { word := e.word n, open_ := e.open_, part := e.part, writer := e.writer, reader := e.reader }) } :: r) ∧
  (∀ (s : State) (c sl : Nat), (∀ p ∈ ((s.core c).slots.get sl []).head?, p.answer ≠ some none) → exec (.channelTableAnswer c sl) s = .next s)) ∧
  ((∀ (s : State) (p : Nat), (∀ c, c < 128 → s.partOf c = p → s.blockedFor c (Max.max 4096 (s.part p).prfcfg) = false) → exec (.prooferDetection p) s = .next s) ∧
  (∀ (s : State) (p a b ch n : Nat) (full : Bool),
    let w := Max.max 4096 (s.part p).prfcfg
    let fault (d : Nat) : Prop := ∃ t f e, exec (.prooferDetection p) s = .next t ∧ f ∈ (t.core (128 + e)).async ∧ f.code = 0x12 ∧ f.detail = d ∧ f.addr = BitVec.ofNat 64 (Min.min ch n) ∧
      (∀ m ∈ [s.cycleMark a, s.cycleMark b], m ∈ (t.part p).reported) ∧ t.dies = s.dies
    a < b → b < 128 → s.partOf a = p → s.partOf b = p → (∀ c, c < a → s.partOf c = p → s.blockedFor c w = false) → s.blockedFor a w = true → s.blockedFor b w = true →
    s.waitEdges a = [(full, ch, b)] → s.waitEdges b = [(false, n, a)] → (s.part p).reported = [] →
    (full = true → s.canGrow ch = true →
      ∃ t, exec (.prooferDetection p) s = .next t ∧ Ev.channelGrowth p ch (Min.min ch n) ∈ t.clk.pending ∧ (t.core a).lastAct = s.clk.cyc ∧ (t.core b).lastAct = s.clk.cyc) ∧
    (full = true → s.canGrow ch = false → fault 2) ∧ (full = false → fault 1)) ∧
  (∀ (s : State) (p ch lo : Nat),
    let e := s.chan ch
    (e.open_ = false → ∃ t, exec (.channelGrowth p ch lo) s = .next t ∧ t.cores = s.cores ∧ t.dies = s.dies ∧ t.clk = s.clk) ∧
    (e.open_ = true → s.canGrow ch = true → ∃ t, exec (.channelGrowth p ch lo) s = .next t ∧ (t.chan ch).spmax = e.spmax + 1 ∧ (t.chan ch).cap = e.cap + 4096 ∧
      ((s.part e.part).freeQuanta ≠ [] → (t.part e.part).resUsed.length = (s.part e.part).resUsed.length + 1) ∧ t.OnWay (.channelReportArrival e.writer ch (.cap (e.cap + 4096)))) ∧
    (e.open_ = true → s.canGrow ch = false → ∃ t f d, exec (.channelGrowth p ch lo) s = .next t ∧ f ∈ (t.core (128 + d)).async ∧ f.code = 0x12 ∧ f.detail = 2 ∧
      f.addr = BitVec.ofNat 64 lo ∧ t.dies = s.dies)))

/-! ## The Peel -/

/-- R413, R414, R416, R426: a post is decided once the items of its partition have started; one that names the core of its partition's one work item has its group run to its boundary if that comes before the conversion point, else it is checkpointed if its drain does and its
frames are free, else it discards; its position is latched, and the Peel's request is on its way. A group that is not vacant at its conversion point discards, parked items too. R412, R425: a partition eviction has the partition's contexts saved. R410: an unknown or decided post changes nothing.
R418, R419 step 1, R432: a drain request ends the loop at the core and notes its count; a discard request abandons the ops since the latched position that have not started. R417, R418, R419: an item of a group whose boundary has come, whose drain point has come or whose discard is complete waits until nothing of it is under
way; then its position or context goes to its frame, 64 bytes at a time (R442), and after the last it leaves its core, which is vacant, and parks. One that completes its HALT meanwhile ends.
R420, R421, R422, R404: a parked item is placed on a core of its die in the start state of its graph position, or with its saved context, its loop going on at START with the count its drain noted or past END; after the
last piece of its restore its group's members restart in one step; a discarded item suppresses what it had released, and of the suppressed items only a copy command or an atomic leaves anything to do: its entries read, or a
free value to give (log 8). R425: a control core that is evicted saves its context at an op boundary; a saved context whose partition is no longer held goes on where a control core is free. -/
def Obligations.PeelEvictsAndResumes : Prop :=
  ((∀ (s : State) (x : PeelPostRec) (c : Nat) (w : WorkItem),
    let k := s.core c
    let d := if x.d < s.clk.cyc + 3200 then s.clk.cyc + 3200 else x.d
    let meets (t : Option Nat) : Prop := ∃ n, t = some n ∧ s.clk.cyc + n ≤ d - 3200
    let path := (s.pathOf [c] x.part (d - 3200)).1
    s.peelPosts = [x] → x.decided = false → x.whole = false → x.cores = [c] → s.groups = [] → k.item = some w → w.part = x.part → w.group = none → w.started = true →
    (s.cores.l.filter (fun y => y.2.item.isSome)).map (·.1) = [c] → (∀ y ∈ s.cores.l, y.1 = c → y.2 = k) →
    (path = .run ↔ meets (s.tRun c)) ∧ (path = .ckpt ↔ ¬ meets (s.tRun c) ∧ meets (s.tCkpt c) ∧ k.nf ≤ (s.part x.part).frames.length) ∧
    ∃ t g, exec (.peelDecision x.id) s = .next t ∧ t.groups = [g] ∧ g.path = path ∧ g.conv = d - 3200 ∧ g.posts = [x.id] ∧ g.n = 1 ∧
      (path = .run → g.st = .runb) ∧ (path = .ckpt → g.st = .drain ∧ g.frames = (s.part x.part).frames.take k.nf ∧ t.OnWay (.drainPoint c)) ∧
      (path = .disc → g.st = .discarding ∧ t.OnWay (.discardComplete c)) ∧
      (∃ w', (t.core c).item = some w' ∧ w'.group = some g.id ∧ w'.latched = some w.bpos ∧ w'.bpos = w.bpos) ∧ (∀ sp a, t.byteAt sp a = s.byteAt sp a) ∧
      ∃ y, t.peelPosts = [y] ∧ y.decided = true ∧ y.d = d ∧ (y.late = true ↔ x.d < s.clk.cyc + 3200)) ∧
  (∀ (s : State) (id : Nat), ((∀ x ∈ s.peelPosts, x.id ≠ id) → exec (.peelDecision id) s = .next s) ∧
    ∀ x, s.peelPosts.find? (fun y => y.id == id) = some x →
      let early := ∃ y ∈ s.cores.l, ∃ w, y.2.item = some w ∧ w.part = x.part ∧ w.started = false
      (x.decided = true → exec (.peelDecision id) s = .next s) ∧
      (x.decided = false → early → exec (.peelDecision id) s = .next (s.push (.peelDecision id))) ∧
      (x.decided = false → ¬ early → x.whole = true → ∃ t, exec (.peelDecision id) s = .next t ∧
        ∀ e, e < 4 → s.ctlRuns x.part e = true → (t.core (128 + e)).ctl.saving = true ∧ Ev.schedulerContextSaved e ∈ t.clk.pending)) ∧
  (∀ (s : State) (g : Group) (c : Nat) (w : WorkItem), s.groups = [g] → (g.st = .runb ∨ g.st = .drain) → g.conv ≤ s.clk.cyc → (∀ p ∈ g.parked, p.ends = ⟨[]⟩) → (c, s.core c) ∈ s.cores.l →
    (s.core c).item = some w → w.group = some g.id → s.peelPosts = [] →
    ∃ t, exec (.peelConversion g.id) s = .next t ∧
      t.groups = [{ g with st := .discarding, path := .disc, frames := [], parked := g.parked.map (fun p => { p with save := none }) }] ∧ t.OnWay (.discardComplete c) ∧
      (t.part g.part).frames = (s.part g.part).frames ++ g.frames ∧ ∀ sp a, t.byteAt sp a = s.byteAt sp a) ∧
  (∀ (s : State) (g : Group), s.groups = [g] → (s.clk.cyc < g.conv ∨ (g.st ≠ .runb ∧ g.st ≠ .drain)) → exec (.peelConversion g.id) s = .next s)) ∧
  (∀ (s : State) (c : Nat) (g : Group) (w : WorkItem),
    let k := s.core c
    let same (t : State) : Prop := ∀ sp a, t.byteAt sp a = s.byteAt sp a
    let again (i : Instr) (e : Ev) : Prop := exec i s = .next (s.push e)
    let parks (i : Instr) : Prop := ∃ t, exec i s = .next t ∧ (t.core c).item = none ∧ Ev.coreFree c ∈ t.clk.pending ∧ same t ∧
      ∃ g' ∈ t.groups, ∃ p ∈ g'.parked, p.core = c ∧ p.item = w ∧ (p.save.isSome = decide (i = .ckptSaveComplete c))
    let piece (i : Instr) (e : Ev) (m : Nat) : Prop := ∃ t, exec i s = .next t ∧ same t ∧ t.OnWay e ∧ (t.core c).item = some { w with left := some m, sentAt := s.clk.cyc }
    let saves (i : Instr) (e : Ev) (n : Nat) : Prop :=
      (w.left = none → n ≠ 0 → piece i e (n - 1)) ∧ (w.left = none → n = 0 → parks i) ∧ (w.left = some 0 → parks i) ∧
      ∀ m, w.left = some (m + 1) → (w.sentAt = s.clk.cyc → again i e) ∧ (w.sentAt ≠ s.clk.cyc → piece i e m)
    let v := s.fabDone c
    let quiet : Prop := v.rollbackReady c = true ∧ k.trap = none ∧ (v.core c).sent = [] ∧ k.outs = [] ∧ k.relWait = none
    k.items = [] → k.item = some w → w.group = some g.id → s.groups = [g] → s.peelPosts = [] → (∀ y ∈ s.cores.l, y.1 ≠ c → y.2.item = none) →
    (g.st = .runb → w.parked = true → k.halting = false → s.settled c = true → saves (.peelRunPark c) (.peelRunPark c) 2) ∧
    (g.st = .runb → w.parked = true → k.halting = false → s.settled c = false → again (.peelRunPark c) (.peelRunPark c)) ∧
    (g.st = .drain → w.drain = none → ∃ t, exec (.drainPoint c) s = .next t ∧ same t ∧ (t.core c).loop = { k.loop with lc := 0 } ∧
      (t.core c).item = some { w with drain := some k.loop.lc } ∧ (t.core c).regs = k.regs) ∧
    (g.st = .drain → w.drain ≠ none → s.settled c = true → s.splicesMove c = false → again (.drainPoint c) (.ckptSaveComplete c)) ∧
    (g.st = .drain → w.drain ≠ none → (s.settled c = false ∨ s.splicesMove c = true) → again (.drainPoint c) (.drainPoint c)) ∧
    (g.st ≠ .drain → exec (.drainPoint c) s = .next s ∧ exec (.ckptSaveComplete c) s = .next s) ∧
    (g.st = .drain → saves (.ckptSaveComplete c) (.ckptSaveComplete c) ((k.dsz.toNat + 63) / 64)) ∧
    (g.st = .discarding → w.disc = false → ∃ t, exec (.discardComplete c) s = .next t ∧ same t ∧ Ev.discardComplete c ∈ t.clk.pending ∧
      (t.core c).item = some { w with parked := true, drain := none, disc := true, left := none } ∧
      (∀ p ∈ (t.core c).slots.l, ∀ o ∈ p.2, o ∉ k.abandons w.latIval) ∧ (t.core c).regs = k.regs) ∧
    (g.st = .discarding → w.disc = true → k.halting = false → k.chans = ⟨[]⟩ → quiet → saves (.discardComplete c) (.discardComplete c) 3) ∧
    (g.st = .discarding → w.disc = true → k.halting = true → s.haltDone c = true → exec (.discardComplete c) s = .next (s.endItem c)) ∧
    (g.st = .discarding → w.disc = true → k.halting = false → ¬ quiet → again (.discardComplete c) (.discardComplete c)) ∧
    (g.st ≠ .discarding → exec (.discardComplete c) s = .next s)) ∧
  ((∀ (s : State) (g : Group) (p : Parked) (c : Nat), s.groups = [g] → g.st = .parked → g.parked = [p] → p.ends = ⟨[]⟩ → s.groupFits g = true → s.pickCores g.part g.die 1 = some [c] →
    let at_ := if g.path = .disc then p.item.latched.getD p.item.bpos else p.item.bpos
    ∃ t w, exec (.groupResumePlacement g.id) s = .next t ∧ (t.core c).item = some w ∧ w.started = false ∧ w.wid = p.item.wid ∧ w.frame = p.item.frame ∧ w.entry = p.item.entry ∧
      (w.suppress = if g.path = .disc then p.item.rsent + p.item.suppress else p.item.suppress) ∧ (t.core c).async = p.async ∧ t.OnWay (.restoreComplete g.id) ∧
      t.groups = [{ g with st := .resuming, newCores := [c] }] ∧
      (p.save = none → (t.core c).pc = at_.1 ∧ (∀ i, i < 15 → (t.core c).base (.reg (i + 1)) = at_.2.getD i 0) ∧ ∀ r, 15 < r → (t.core c).base (.reg r) = 0) ∧
      (∀ k, p.save = some k → (t.core c).regs = k.regs ∧ (t.core c).ctrs = k.ctrs ∧ (t.core c).lays = k.lays ∧ (t.core c).rts = k.rts ∧ (t.core c).empty = [] ∧
        (∀ n ∈ k.dirty, (t.core c).tile n = k.tile n) ∧
        (∀ m, p.item.drain = some (m + 1) → (t.core c).pc = k.loop.start ∧ (t.core c).loop = { k.loop with act := true, lc := m }) ∧
        (p.item.drain.getD 0 = 0 → (t.core c).pc = p.item.after ∧ (t.core c).loop.act = false ∧ (t.core c).preds = k.preds))) ∧
  (∀ (s : State) (g : Group) (c : Nat) (w : WorkItem), s.groups = [g] → g.st = .resuming → g.newCores = [c] → (s.core c).item = some w →
    (w.left.getD 0 = 0 → (s.core c).async = [] →
      ∃ t, exec (.restoreComplete g.id) s = .next t ∧ t.groups = [] ∧ (t.core c).item = some { w with started := true, group := none, left := none } ∧ (t.core c).regs = (s.core c).regs ∧
        (t.core c).pc = (s.core c).pc ∧ (t.core c).l1 = ⟨[]⟩ ∧ (t.part g.part).frames = (s.part g.part).frames ++ g.frames) ∧
    (∀ n, w.left = some (n + 1) → ∃ t, exec (.restoreComplete g.id) s = .next t ∧ t.OnWay (.restoreComplete g.id) ∧ t.groups = s.groups ∧ (t.core c).regs = (s.core c).regs)) ∧
  (∀ (s : State) (i : Nat), (∀ g ∈ s.groups, g.id ≠ i) →
    exec (.groupResumePlacement i) s = .next s ∧ exec (.restoreComplete i) s = .next s ∧ exec (.peelConversion i) s = .next s) ∧
  (∀ (s : State) (c : Nat) (i : Item), (∀ id, i.kind ≠ .copy id) → (∀ gl a, i.kind ≠ .atom gl a) → s.suppressItem c i = s) ∧
  (∀ (s : State) (c id : Nat) (i : Item) (m : CopyCmd), i.kind = .copy id → (s.core c).ports.find? (fun x => x.id == id) = some m →
    (∀ x ∈ ((s.suppressItem c i).core c).ports, x.id ≠ id) ∧ ∀ sp a, (s.suppressItem c i).byteAt sp a = s.byteAt sp a) ∧
  (∀ (s : State) (d : Nat),
    let c := 128 + d
    let k := s.core c
    let p := k.ctl.part
    ((k.ctl.running = false ∨ k.ctl.saving = false) → exec (.schedulerContextSaved d) s = .next s.wakeContexts) ∧
    (k.ctl.running = true → k.ctl.saving = true →
      (s.ctlQuiet c = false → exec (.schedulerContextSaved d) s = .next (s.push (.schedulerContextSaved d))) ∧
      (s.ctlQuiet c = true → p < 16 → d < 4 → (∀ x, (s.fn x).toStart = 0) → (∀ x, (s.die x).ctx = ⟨[]⟩) → s.partHeld p = true →
        ∃ t, exec (.schedulerContextSaved d) s = .next t ∧ (t.core c).ctl.running = false ∧ (t.die d).ctx.find p = some { k with ctl := { k.ctl with saving := false } } ∧
          (t.fn p).dies.testBit d = false ∧ ∀ sp a, sp ≠ .spad c → t.byteAt sp a = s.byteAt sp a)) ∧
    (∀ q j, k.ctl.running = false → (s.die d).ctx.find q = some j → s.partHeld q = false →
      (s.wakeOne q d).core c = j ∧ ((s.wakeOne q d).die d).ctx.find q = none ∧ ((s.wakeOne q d).fn q).dies = (s.fn q).dies ||| 2 ^ d)))

/-! ## Faults that wait, watchdogs, hardware errors, resets -/

/-- R243, R388, R390, R393: a fault that waits is taken at a bundle boundary in normal mode and outside a rollback, one with slot 7 for the next bundle: on a tile core it begins a rollback, on a control core TRST takes the address after the bundle it names and the
handler is entered, or with TVEC = 0 the core stops and its partition is reset; fault 0x1B takes its ABNST. R243: a rejection gives the destination the value that it held before and the fault, one of 0x18 once for its op (R357). R390: a report reaches the die's control core, or another of the
partition's, or waits for one. R392: an operator of a started item past its bound faults once.
R391, R390: a core is hung when it has issued nothing for its partition's window, or has had two fault rollbacks within one without a checkpoint between; its item is abandoned with CAUSE 1: the report is on its way and the item ends as at HALT; one that hangs in its HALT is
reported and ends at once, one that hangs in its abandonment ends. R397 to R400, R369: a corrected error is counted; a retried op leaves nothing; a transient error on a tile
core in normal mode rolls it back, which restarts the item at TRST with no handler, and the third without a checkpoint between resets the partition, as does lost stored state: the partition's whose it is, or every one with a binding on the array. -/
def Obligations.WatchdogsAndErrors : Prop :=
  ((∀ (s : State) (c : Nat) (f : FaultRec) (r : List FaultRec),
    let k := s.core c
    let f1 : FaultRec := if f.slot = 7 then { f with pc := k.pc, single := s.singleAt c k.pc } else f
    k.async = f :: r →
    (k.handler = true ∨ k.trap ≠ none ∨ k.goSync = true ∨ k.atBoundary = false → exec (.asyncFaultTaken c) s = .next s) ∧
    (k.handler = false → k.trap = none → k.goSync = false → k.atBoundary = true →
      (isCtl c = false → ∃ t, exec (.asyncFaultTaken c) s = .next t ∧ (t.core c).trap = some (.fault f1) ∧ (t.core c).async = r ∧ Ev.rollbackComplete c ∈ t.clk.pending ∧
        (t.core c).regs = k.regs ∧ ∀ sp a, t.byteAt sp a = s.byteAt sp a) ∧
      (isCtl c = true → k.sys.tvec ≠ 0 →
        (f.code ≠ 0x1B → exec (.asyncFaultTaken c) s = .next (s.setCore c (Core.enterHandler { k with async := r, sys := { k.sys with trst := s.afterFault c f1.pc } } f1))) ∧
        (∀ x q, f.code = 0x1B → k.ctl.abn = x :: q → exec (.asyncFaultTaken c) s = .next (s.setCore c (Core.enterHandler
          { k with async := r, sys := { k.sys with trst := s.afterFault c f1.pc }, ctl := { k.ctl with abn := q, abnst := x.2 } } f1)))) ∧
      (isCtl c = true → k.sys.tvec = 0 → ∃ t l, exec (.asyncFaultTaken c) s = .next t ∧ (t.core c).trap = some (.fault f1) ∧ Ev.partitionReset k.ctl.part 259 l ∈ t.clk.pending))) ∧
  (∀ (s : State) (c : Nat), (s.core c).async = [] → exec (.asyncFaultTaken c) s = .next s) ∧
  (∀ (s : State) (c : Nat) (r : Reject),
    let k := s.core c
    let f : FaultRec := { code := r.code, detail := r.detail, addr := r.addr, pc := r.pc, slot := r.slot, single := false }
    (r.tk = none → r.code ≠ 0x18 → (isCtl c = true ∨ k.item ≠ none) → exec (.remoteAtomRejection c r) s = .next (s.asyncFault c f)) ∧
    (r.tk = none → isCtl c = false → k.item = none → exec (.remoteAtomRejection c r) s = .next s) ∧
    (r.tk = none → r.code = 0x18 → f ∈ k.async → exec (.remoteAtomRejection c r) s = .next s) ∧
    (r.tk = none → r.code = 0x18 → (isCtl c = true ∨ k.item ≠ none) → (∀ g ∈ k.async, g.code = 0x18 → g.pc = r.pc → g.slot ≠ r.slot) →
      exec (.remoteAtomRejection c r) s = .next (s.asyncFault c f)) ∧
    (∀ t n p, r.tk = some t → (isCtl c = true ∨ k.item ≠ none) → k.pend = [p] → p.tk = t → p.dst = .reg n → n ≠ 0 → p.vis ≤ k.bundleNo → p.dead = false →
      ∃ t', exec (.remoteAtomRejection c r) s = .next t' ∧ (t'.core c).base (.reg n) = p.old ∧ (∀ m, m ≠ n → (t'.core c).base (.reg m) = k.base (.reg m)) ∧
        (t'.core c).async = k.async ++ [f] ∧ Ev.asyncFaultTaken c ∈ t'.clk.pending ∧ ∀ sp a, t'.byteAt sp a = s.byteAt sp a)) ∧
  (∀ (s : State) (p d : Nat) (x : Part) (f : FaultRec) (v : W64), s.parts = ⟨[(p, x)]⟩ → x.reports = [(d, f, v)] →
    (∀ e, (if s.ctlRuns p d = true then e = d else s.ctlRuns p e = true ∧ e < 4 ∧ ∀ y, y < e → s.ctlRuns p y = false) →
      ∃ t, exec (.abandonmentReport d) s = .next t ∧ (t.part p).reports = [] ∧ (t.core (128 + e)).ctl.abn = (s.core (128 + e)).ctl.abn ++ [(f, v)] ∧
        (t.core (128 + e)).async = (s.core (128 + e)).async ++ [f] ∧ Ev.asyncFaultTaken (128 + e) ∈ t.clk.pending ∧ ∀ sp a, t.byteAt sp a = s.byteAt sp a) ∧
    ((∀ y, s.ctlRuns p y = false) → exec (.abandonmentReport d) s = .next (s.push (.abandonmentReport d)))) ∧
  (∀ (s : State) (c : Nat), exec (.operatorBoundExceeded c) s =
    .next (if s.overBound c then (s.modCore c (fun k => { k with opbHit := true })).asyncFault c { code := 0x1F, detail := 0, addr := 0, pc := 0, slot := 7, single := false } else s)) ∧
  (∀ (s : State) (c : Nat), s.overBound c = true ↔
    (∃ w, (s.core c).item = some w ∧ w.started = true) ∧ (s.core c).sys.opbmax ≠ 0 ∧ (s.core c).opbHit = false ∧ (s.core c).sys.opbmax.toNat < s.opbcy c)) ∧
  ((∀ (s : State) (c : Nat) (w : WorkItem),
    let k := s.core c
    let told (t : State) : Prop := (t.part w.part).reports = (s.part w.part).reports ++ [(dieOf c, abnFault 1 w.wid, abnst 0 (coreNo c) 1)] ∧ Ev.abandonmentReport (dieOf c) ∈ t.clk.pending
    k.item = some w →
    (s.hung c = false → exec (.hangWatchdog c) s = .next s) ∧
    (s.hung c = true → k.abandoned = false → k.halting = false → ∃ t, exec (.hangWatchdog c) s = .next t ∧ (t.core c).halting = true ∧ (t.core c).trap = none ∧ told t ∧
      Ev.workItemEnd c ∈ t.clk.pending) ∧
    (s.hung c = true → k.abandoned = false → k.halting = true → ∃ t, exec (.hangWatchdog c) s = .next t ∧ (t.core c).item = none ∧ told t ∧ Ev.coreFree c ∈ t.clk.pending) ∧
    (s.hung c = true → k.abandoned = true → ∃ t, exec (.hangWatchdog c) s = .next t ∧ (t.core c).item = none ∧ Ev.coreFree c ∈ t.clk.pending)) ∧
  (∀ (s : State) (c : Nat), (s.core c).item = none → exec (.hangWatchdog c) s = .next s) ∧
  (∀ (s : State) (c : Nat) (w : WorkItem), (s.core c).item = some w →
    let n := 8192 * (s.part w.part).wdcfg
    (s.hung c = true ↔ w.started = true ∧ w.parked = false ∧ (s.part w.part).wdcfg ≠ 0 ∧
      ((s.core c).lastAct + n ≤ s.clk.cyc ∨ ((s.core c).rbBase + n ≤ s.clk.cyc ∧ ∃ x, (s.core c).rbFaults[1]? = some x ∧ s.clk.cyc ≤ x + n)))) ∧
  (∀ (s : State) (n : Nat), exec (.correctableError n) s = .next { s with mgpLog := s.mgpLog + 1 }) ∧
  (∀ (s : State) (c : Nat), exec (.singleOpErrorRetry c) s = .next s) ∧
  (∀ (s : State) (x : Loss), (∃ t, exec (.lossOfStoredState x) s = .next t ∧ t.cores = s.cores ∧ t.dies = s.dies ∧ ∀ p ∈ s.losers x, ∃ l, Ev.partitionReset p 1 l ∈ t.clk.pending) ∧
    (∀ p, x = .part p → s.losers x = [p]) ∧ ∀ a p, x = .array a → (p ∈ s.losers x ↔ ∃ b ∈ (s.arr a).binds.l, b.2.st ≠ .free ∧ b.2.part = p)) ∧
  (∀ (s : State) (c : Nat),
    let k := s.core c
    (isCtl c = true ∨ k.handler = true ∨ k.trap ≠ none ∨ k.halting = true ∨ k.item = none → exec (.machineRollback c) s = .next s) ∧
    (isCtl c = false → k.handler = false → k.trap = none → k.halting = false → k.item ≠ none → k.goSync = true → exec (.machineRollback c) s = .next (s.push (.machineRollback c))) ∧
    (∀ w, isCtl c = false → k.handler = false → k.trap = none → k.halting = false → k.goSync = false → k.item = some w →
      (k.rbMach < 2 → ∃ t, exec (.machineRollback c) s = .next t ∧ (t.core c).trap = some .machine ∧ (t.core c).rbMach = k.rbMach + 1 ∧ Ev.rollbackComplete c ∈ t.clk.pending ∧
        (t.core c).regs = k.regs ∧ (∀ p ∈ (t.core c).slots.l, ∀ o ∈ p.2, o.ival < k.ival) ∧ ∀ sp a, t.byteAt sp a = s.byteAt sp a) ∧
      (2 ≤ k.rbMach → ∃ t l, exec (.machineRollback c) s = .next t ∧ Ev.partitionReset w.part 2 l ∈ t.clk.pending ∧ ∀ sp a, t.byteAt sp a = s.byteAt sp a)) ∧
    (k.trap = none → exec (.rollbackComplete c) s = .next s) ∧
    (k.trap = some .machine → s.rollbackReady c = true → ∃ t, exec (.rollbackComplete c) s = .next t ∧ (t.core c).trap = none ∧ (t.core c).handler = k.handler ∧ (t.core c).pc = k.sys.trst ∧
      (t.core c).sys.fflags = k.dup.fflags ∧ (t.core c).items = [] ∧ ∀ n, 1 ≤ n → n < 64 → (t.core c).base (.reg n) = k.dup.regs.get n 0)))

/-- R401, R402, R196, R429, R468: a partition reset: every core of the partition has stopped, its groups and posts are gone, RCAUSE, RGEN and FERR are set, its queues go back, a failed core is replaced or disabled, SCQUANT and SCAGE
are at reset, and the contexts start again, one on each die of the partition, where SCHED holds an address. HBM and host memory stay. A function level reset besides zeroes the pending bitmap and clears the function's registers but those that it keeps, its interrupt state (R455), its queues,
its frames and its channel reserve.
R487, R488, R492, R469: without power everything but the host's own is lost; at 115 °C the power goes; a cold start leaves every register at its reset value, and the endpoint ready only with valid signatures. -/
def Obligations.ResetsAndPower : Prop :=
  ((∀ (s : State) (p cause : Nat) (failed : List Nat), p < 16 →
    ∃ t, exec (.partitionReset p cause failed) s = .next t ∧ (t.fn p).rcause = cause % 256 ∧ (t.fn p).rgen = ((s.fn p).rgen + 1) % 65536 ∧ (t.fn p).ferr.getLsbD 0 = true ∧
      (∀ c, c < 128 → s.partOf c = p → (t.core c).item = none ∧ (t.core c).regs = ⟨[]⟩ ∧ (t.core c).queues = ⟨[]⟩ ∧ (t.core c).slots = ⟨[]⟩ ∧ (t.core c).items = [] ∧
        (t.core c).ports = [] ∧ (t.core c).handler = false ∧ (t.core c).freeAt = true) ∧
      (∀ d, ((t.die d).sel.get p {}).scquant = 0x04081020#32 ∧ ((t.die d).sel.get p {}).scage = 65536) ∧ (∀ g ∈ t.groups, g.part ≠ p) ∧ (∀ x ∈ t.peelPosts, x.part ≠ p) ∧
      ((s.fn p).fence.getLsbD 0 = false → ∀ q ∈ s.boundQueues p, (t.wq q).rpos = 0 ∧ (t.wq q).wpos = (s.wq q).wpos) ∧
      (bitsAt (s.fn p).sched.toNat 2 46 = 0 ∨ cause = 259 → (t.fn p).dies = 0 ∧ (t.fn p).toStart = 0) ∧
      (bitsAt (s.fn p).sched.toNat 2 46 ≠ 0 → cause ≠ 259 → (t.fn p).dies ||| (t.fn p).toStart = s.dieMask p) ∧
      (∀ a, t.byteAt .host a = s.byteAt .host a) ∧ (∀ d a, t.byteAt (.view d) a = s.byteAt (.view d) a) ∧ (∀ d a, t.byteAt (.ws d) a = s.byteAt (.ws d) a) ∧
      (∀ c, failed = [c] → c < 128 → s.partOf c = p → coreNo c ∉ (s.die (dieOf c)).disabled →
        ((s.die (dieOf c)).spares = 0 → coreNo c ∈ (t.die (dieOf c)).disabled) ∧
        ((s.die (dieOf c)).spares ≠ 0 → (t.die (dieOf c)).spares = (s.die (dieOf c)).spares - 1 ∧ ∀ a, t.byteAt (.spad c) a = 0))) ∧
  (∀ (s : State) (n : Nat), n < 16 →
    let f := s.fn n
    ∃ t, exec (.functionLevelReset n) s = .next t ∧
      t.fn n = { rgen := (f.rgen + 1) % 65536, nidrop := f.nidrop, fgtag := f.fgtag, rcause := 5, ferr := 1 } ∧
      (∀ q, q < 1024 → s.layout.now.wqOwner.getD q 0 = n → t.wq q = {}) ∧ (∀ q, q < 1024 → s.layout.now.wqOwner.getD q 0 ≠ n → t.wq q = s.wq q) ∧
      (t.part n).frames = [] ∧ (t.part n).frmTotal = 0 ∧ (t.part n).resTotal = 0 ∧
      (let a := bitsAt f.pendReg.toNat 12 40 * 4096
       isSys a = true → s.hostMem.wf = true → ∀ i, i < 256 → t.byteAt .host (a - sysBase + i) = 0) ∧ (∀ c, c < 128 → s.partOf c = n → (t.core c).item = none ∧ (t.core c).regs = ⟨[]⟩))) ∧
  (∀ (s : State),
    let dark (i : Instr) : Prop := ∃ t, exec i s = .next t ∧ t.powered = false ∧ t.booted = false ∧ t.clk.cyc = 0 ∧ t.clk.pending = [] ∧ t.clk.urgent = [] ∧
      (∀ c, t.core c = State.reset.core c) ∧ (∀ d, t.die d = {}) ∧ (∀ n, t.fn n = {}) ∧ (∀ q, t.wq q = {}) ∧ (∀ sp a, t.byteAt sp a = if sp = .host then s.byteAt .host a else 0)
    dark .powerLoss ∧ (∀ n, 115 ≤ n → dark (.thermalShutdown n)) ∧ (∀ n, n < 115 → exec (.thermalShutdown n) s = .next s) ∧
    (∀ b, s.powered = true → exec (.coldStart b) s = .next s) ∧
    (∀ b, s.powered = false → exec (.coldStart b) s =
      .next { State.reset with clk := { tape := s.clk.tape, fresh := s.clk.fresh }, hostMem := s.hostMem, msgs := s.msgs, booted := b }))

/-! ## The Knead Arrays: switches, records, slots, bindings and views -/

/-- R338, R339: the head of an ingress buffer goes to every egress port that its route-table entry names, in one cycle, once all of them have room; until then nothing moves. A control flit moves POS.
R344, R345, R346, R355, R356, R364, R365: the store bytes of a queued read request are read ahead of its run; a record starts on its columns with its input's flits; a column set that is quiescent ends its record, whose output is a read binding's line delivery, or a write binding's writes at the array's die; one that is not
goes on, up to 4,096 cycles. A record that fails makes an ACTIVE binding FAULTED, drops its open records and its queue, and raises fault 0x18 at the partition's context. -/
def Obligations.RecordsRun : Prop :=
  (∀ (s : State) (arr col row port : Nat) (f : KFlit) (r : List KFlit), col < 4 → row < 8 →
    let x : CellLoc := { arr := arr, col := col, row := row }
    let c := s.cell x
    let m := (c.rt.getD ((c.pos + f.tag) % 16) 0).toNat
    let out (e : Nat) : Prop := e < 5 ∧ m.testBit e = true
    c.ing.get port [] = f :: r →
    ((∃ e, out e ∧ s.kRoom x e = false) → exec (.flitRoute arr col row port) s = .next s) ∧
    ((∀ e, out e → s.kRoom x e = true) → ∃ t, exec (.flitRoute arr col row port) s = .next t ∧ (t.cell x).ing.get port [] = r ∧
      (∀ e y p, out e → cellNext x e = some (y, p) → (t.cell y).ing.get p [] = (s.cell y).ing.get p [] ++ [f]) ∧ (out 4 → (t.cell x).inp = some f) ∧
      (¬ out 4 → (t.cell x).inp = c.inp) ∧ ((t.cell x).pos = if f.ctl then (c.pos + f.data.toNat % 16) % 16 else c.pos) ∧
      (row = 7 → out 1 → ∀ q ∈ (s.arr arr).runs, q.cols.contains col = true → q.egress col f ∈ (t.arr arr).runs) ∧ (t.cell x).k = c.k)) ∧
  (∀ (s : State) (arr ent : Nat),
    let x := s.arr arr
    let b := x.binds.get ent {}
    let same (t : State) : Prop := ∀ sp a, t.byteAt sp a = s.byteAt sp a
    let gone (r : KRun) : List KRun := x.runs.filter (fun q => q.cols != r.cols)
    let raw : Option KRec := x.queue.find? (fun q => q.ent == ent && q.inp.isNone)
    (∀ r i, raw = some r → s.memRead (arr / 2) (b.store + r.r * b.rin) b.rin = .bytes i → ∃ t, exec (.recordStart arr ent) s = .next t ∧ same t ∧
      (t.arr arr).queue = x.queue.map (fun q => if q = r then { q with inp := some i } else q) ∧ (t.arr arr).runs = x.runs) ∧
    (∀ r, raw = some r → s.memRead (arr / 2) (b.store + r.r * b.rin) b.rin = .lost → exec (.recordStart arr ent) s = .next (s.reportLoss b.part)) ∧
    (∀ r, raw = none → x.startable.find? (fun q => q.ent == ent) = some r →
      let inp := r.inp.getD []
      ∃ t run, exec (.recordStart arr ent) s = .next t ∧ (t.arr arr).runs = x.runs ++ [run] ∧ (t.arr arr).queue = x.queue.erase r ∧ run.rcd = r ∧ run.cols = b.colsOf r.r ∧ run.t = 0 ∧
        (b.slot = 4 → run.stock = some (stockOut inp) ∧ run.feed = []) ∧ (b.slot ≠ 4 → run.stock = none ∧ run.feed = feedRows inp run.cols.length (if b.ctlen then some b.adv else none)) ∧
        same t) ∧
    (raw = none → x.startable.find? (fun q => q.ent == ent) = none → exec (.recordStart arr ent) s = .next s) ∧
    (∀ col, x.runs.find? (fun q => q.rcd.ent == ent && q.cols.contains col) = none →
      exec (.recordQuiescence arr ent col) s = .next s ∧ exec (.recordTimeLimit arr ent col) s = .next s) ∧
    (∀ (col : Nat) (r : KRun), x.runs.find? (fun q => q.rcd.ent == ent && q.cols.contains col) = some r →
      let fails (i : Instr) : Prop := ∃ t, exec i s = .next t ∧ (t.arr arr).runs = gone r ∧ (b.st ≠ .active → (t.arr arr).binds = x.binds) ∧
        (b.st = .active → ((t.arr arr).binds.get ent {}).st = .faulted ∧ ((t.arr arr).binds.get ent {}).opened = [] ∧ (∀ q ∈ (t.arr arr).queue, q.ent ≠ ent) ∧
          (s.ctlRuns b.part (arr / 2) = true →
            ({ code := 0x18, detail := 5, addr := w64 (arr * 8 + ent), pc := 0, slot := 7, single := true } : FaultRec) ∈ (t.core (128 + arr / 2)).async))
      (s.quiescent arr r = false → r.t + 1 < 4096 → ∃ t, exec (.recordQuiescence arr ent col) s = .next t ∧
        (t.arr arr).runs = x.runs.map (fun q => if q.cols == r.cols then { q with t := q.t + 1, moved := false } else q) ∧ (t.arr arr).binds = x.binds) ∧
      (s.quiescent arr r = false → 4096 ≤ r.t + 1 → exec (.recordQuiescence arr ent col) s = .next (s.pushUrgent (.recordTimeLimit arr ent col))) ∧
      fails (.recordTimeLimit arr ent col) ∧
      (s.quiescent arr r = true → r.output b.rout = none → fails (.recordQuiescence arr ent col)) ∧
      (∀ o, s.quiescent arr r = true → r.output b.rout = some o →
        let cells := cellsAt (b.store + r.rcd.r * b.rout) o
        (b.wr = false → ∃ t, exec (.recordQuiescence arr ent col) s = .next t ∧ (t.arr arr).runs = gone r ∧ ((t.arr arr).binds.get ent {}).deliv = b.deliv ++ [r.rcd] ∧
          t.OnWay (.kneadViewLineDelivery arr ent r.rcd.r o) ∧ same t) ∧
        (b.wr = true → ∃ t, exec (.recordQuiescence arr ent col) s = .next t ∧ (t.arr arr).runs = gone r ∧
          (∀ l, t.ownerPos.get l 0 ≠ s.ownerPos.get l 0 → l ∈ linesOf cells) ∧
          ((∀ l ∈ linesOf cells, s.ownerDie (64 * l) = arr / 2 → ∀ a, a / 64 = l → (s.die (arr / 2)).stamp.get a 0 ≤ s.ownerPos.get l 0) → (s.die (arr / 2)).view.wf = true →
            ∀ a, t.byteAt (.view (arr / 2)) a = laid cells a (s.byteAt (.view (arr / 2)) a)) ∧
          ∀ sp a, sp ≠ .view (arr / 2) → t.byteAt sp a = s.byteAt sp a))))

/-- R355, R365: a read request joins a queued record of its number, takes a place, or waits; the record's lines go to every die that asked, and the answers of its accesses are on their way. R356: bytes are collected in an open record; one that is full is closed and queued; a write waits for room. R357: a
faulted binding serves nothing: fault 0x18 with DETAIL 4. R358: what reaches a view that is no longer ACTIVE is an access at its home slice again. -/
def Obligations.ViewsAreServed : Prop :=
  (∀ (s : State) (a : Access), (s.bindingAt a.pa = none → exec (.kneadRecordRequest a) s = .next (s.push (.homeSliceAccess a))) ∧
    ∀ arr ent b, s.bindingAt a.pa = some (arr, ent, b) →
      let r := (a.pa - b.view) / max b.rout 1
      let q := (s.arr arr).queue
      (b.st = .faulted → exec (.kneadRecordRequest a) s = .next (s.accessFault a 0x18 4)) ∧
      (b.st ≠ .faulted → (b.st ≠ .active ∨ b.wr = true) → exec (.kneadRecordRequest a) s = .next (s.push (.homeSliceAccess a))) ∧
      (b.st = .active → b.wr = false →
        ((∃ x ∈ q, x.ent = ent ∧ x.r = r) → ∃ t, exec (.kneadRecordRequest a) s = .next t ∧ (t.arr arr).queue = q.map (fun x => if x.ent == ent && x.r == r then { x with acc := x.acc ++ [a] } else x)) ∧
        ((∀ x ∈ q, x.ent = ent → x.r ≠ r) → q.length < 16 → ∃ t, exec (.kneadRecordRequest a) s = .next t ∧ (t.arr arr).queue = q ++ [{ ent := ent, r := r, inp := none, acc := [a] }]) ∧
        ((∀ x ∈ q, x.ent = ent → x.r ≠ r) → 16 ≤ q.length → exec (.kneadRecordRequest a) s = .next (s.push (.kneadRecordRequest a))))) ∧
  (∀ (s : State) (arr ent n : Nat) (data : Bytes),
    let b := (s.arr arr).binds.get ent {}
    let base := (b.view + n * b.rout) / 64
    (b.deliv.find? (fun q => q.r == n) = none → exec (.kneadViewLineDelivery arr ent n data) s = .next s) ∧
    ∀ r : KRec, b.deliv.find? (fun q => q.r == n) = some r →
    ∃ t, exec (.kneadViewLineDelivery arr ent n data) s = .next t ∧ ((t.arr arr).binds.get ent {}).deliv = b.deliv.erase r ∧
      (∀ a ∈ r.acc, ∀ i, i < data.length / 64 → (t.die a.die).viewL2.find (base + i) = some ((data.drop (64 * i)).take 64)) ∧
      (∀ a c tk w sg own, a ∈ r.acc → a.reply = .scalar c tk w sg own →
        let v := leNat (patch a.pa ((((data.drop (64 * (a.pa / 64 - base))).take 64).drop (a.pa % 64)).take a.len) own)
        t.OnWay (.scalarResultArrival c tk (if sg then BitVec.ofInt 64 (sInt (8 * w) v) else BitVec.ofNat 64 v))) ∧
      (∀ a c id k, a ∈ r.acc → a.reply = .copy c id k → t.OnWay (.copyDataReturn c id k)) ∧
      ∀ sp a, t.byteAt sp a = s.byteAt sp a) ∧
  (∀ (s : State) (w : CollWrite),
    let x := s.arr w.arr
    let b := x.binds.get w.ent {}
    let pa := (w.data.headD (0, 0)).1
    let r := (pa - b.view) / max b.rin 1
    let old := ((b.opened.find? (fun o => o.1 == r)).map (·.2)).getD []
    let new := w.data.foldl (fun (m : List (Nat × BitVec 8)) p => (p.1 - (b.view + r * b.rin), p.2) :: m.filter (fun q => q.1 != p.1 - (b.view + r * b.rin))) old
    let queued : Prop := ∃ v ∈ b.wait, ((v.data.headD (0, 0)).1 - b.view) / max b.rin 1 = r
    let crowded : Prop := (∀ o ∈ b.opened, o.1 ≠ r) ∧ 16 ≤ (x.binds.l.map (fun e => e.2.opened.length)).foldl (· + ·) 0
    (b.covers pa = true → b.st = .faulted → exec (.collectionWrite w) s = .next (s.accessFault w.acc 0x18 4)) ∧
    ((b.covers pa = false ∨ (b.st ≠ .faulted ∧ b.st ≠ .active)) → exec (.collectionWrite w) s = .next (s.push (.homeSliceAccess w.acc))) ∧
    (b.covers pa = true → b.st = .active →
      (queued ∨ crowded ∨ (new.length = b.rin ∧ 16 ≤ x.queue.length) → ∃ t, exec (.collectionWrite w) s = .next t ∧ ((t.arr w.arr).binds.get w.ent {}).wait = b.wait ++ [w] ∧ (t.arr w.arr).queue = x.queue) ∧
      (¬ queued → ¬ crowded → new.length ≠ b.rin → ∃ t, exec (.collectionWrite w) s = .next t ∧
        ((t.arr w.arr).binds.get w.ent {}).opened = b.opened.filter (fun o => o.1 != r) ++ [(r, new)] ∧ (t.arr w.arr).queue = x.queue ∧ ∀ sp a, t.byteAt sp a = s.byteAt sp a) ∧
      (¬ queued → ¬ crowded → new.length = b.rin → x.queue.length < 16 → ∃ t, exec (.collectionWrite w) s = .next t ∧
        ((t.arr w.arr).binds.get w.ent {}).opened = b.opened.filter (fun o => o.1 != r) ∧
        (t.arr w.arr).queue = x.queue ++ [{ ent := w.ent, r := r, inp := some (closedInput b (r, new)), acc := [] }] ∧ ∀ sp a, t.byteAt sp a = s.byteAt sp a)))

/-- R359 to R363, R194, R350: on a control core, with the op's array, an address that is no multiple of 64 raises fault 0x09, one beyond the scratchpad fault 0x0A. KNDICT
loads the dictionary for the partition, or gives 1 while an image is being decoded. KNLOAD gives 1 where the array decodes or a binding names the slot, 10
where another partition loaded the dictionary; a bad header makes the slot EMPTY and gives 7 with fault 0x17, DETAIL 1; otherwise the slot is LOADING and the decoder starts.
KNBIND gives the first of 2, 5, 1, 3, 4, 6 that holds, else the lowest free entry is PENDING with the PAs of its ranges. KNUNBIND gives 8 for an entry that is FREE and
9 for another partition's, and drains one that is ACTIVE or FAULTED; a number beyond 7 raises fault 0x04.
R349, R350, R351, R352: inside a reconfiguration window an image that is being loaded is decoded: its slot is LOADED, or EMPTY with sd 7 and fault 0x17. R358, R362, R363: a pending entry becomes ACTIVE, its columns
configured by the first binding on them, or DRAINING where it is to be unbound; a draining entry closes or drops its open records, and is FREE once all its work is done, and the view's lines are invalid. The results and the fault go to the partition's context where it runs. -/
def Obligations.KneadControl : Prop :=
  (∀ (s : State) (d a : BitVec 6) (h : Bool) (v : W64), isCtl s.cur.core = true → s.Has true a v →
    let c := s.cur.core
    let arr := 2 * dieOf c + (if h then 1 else 0)
    let x := s.arr arr
    let p := s.partOf c
    let tk := (s.me.feTicket s.cur.op d.toNat).1
    let placed (i : Instr) (n : Nat) : Prop :=
      (v.toNat % 64 ≠ 0 → exec i s = .next (s.raise 0x09 0 v)) ∧ (v.toNat % 64 = 0 → 1047552 < v.toNat + n → exec i s = .next (s.raise 0x0A 0 v))
    placed (.kndict d a h) 2048 ∧ placed (.knbind d a h) 64 ∧ (∀ n, placed (.knload d a n h) 64) ∧
    (v.toNat % 64 = 0 → v.toNat + 2048 ≤ 1047552 →
      (x.loading = true → exec (.kndict d a h) s = .next (s.later d.toNat 1)) ∧
      (x.loading = false → ∃ t, exec (.kndict d a h) s = .next t ∧ (t.arr arr).dictPart = some p ∧ Ev.scalarResultArrival c tk 0 ∈ t.clk.pending ∧
        ∀ i, i < 256 → (t.arr arr).dict.get i 0 = BitVec.ofNat 64 (leNat (((s.me.spadRead s.cur.op v.toNat 2048).drop (8 * i)).take 8)))) ∧
    (∀ (n : BitVec 2), v.toNat % 64 = 0 → v.toNat + 64 ≤ 1047552 →
      let busy : Prop := x.loading = true ∨ ∃ e ∈ x.binds.l, e.2.st ≠ .free ∧ e.2.slot = n.toNat
      let foreign : Prop := ∃ y, x.dictPart = some y ∧ y ≠ p
      let hd := s.me.spadRead s.cur.op v.toNat 64
      let total := leNat ((hd.drop 40).take 4)
      (busy → exec (.knload d a n h) s = .next (s.later d.toNat 1)) ∧
      (¬ busy → foreign → exec (.knload d a n h) s = .next (s.later d.toNat 10)) ∧
      (¬ busy → ¬ foreign → kHeader hd = none → 1047552 < v.toNat + total → exec (.knload d a n h) s = .next (s.raise 0x0A 0 v)) ∧
      (∀ o, ¬ busy → ¬ foreign → kHeader hd = some o → s.me.ctl.running = true →
        ∃ t, exec (.knload d a n h) s = .next t ∧ ((t.arr arr).slots.get n.toNat {}).st = .empty ∧ Ev.scalarResultArrival c tk 7 ∈ t.clk.pending ∧
          (∃ f ∈ (t.core c).async, f.code = 0x17 ∧ f.detail = 1 ∧ f.pc = s.cur.op.pc) ∧ Ev.asyncFaultTaken c ∈ t.clk.pending) ∧
      (¬ busy → ¬ foreign → kHeader hd = none → v.toNat + total ≤ 1047552 →
        ∃ t, exec (.knload d a n h) s = .next t ∧ ((t.arr arr).slots.get n.toNat {}).st = .loading ∧ ((t.arr arr).slots.get n.toNat {}).owner = p ∧
          ((t.arr arr).slots.get n.toNat {}).tk = tk ∧ Ev.slotLoadComplete arr n.toNat ∈ t.clk.pending)) ∧
    (v.toNat % 64 = 0 → v.toNat + 64 ≤ 1047552 →
      let rec_ := bindRecord (s.me.spadRead s.cur.op v.toNat 64) x.slots
      (rec_ = none → exec (.knbind d a h) s = .next (s.later d.toNat 2)) ∧
      (∀ b, rec_ = some b →
        let sl := x.slots.get b.slot {}
        let joins (y : Nat × Binding) : Prop := y.2.slot = b.slot ∧ y.2.ganged = b.ganged ∧ y.2.part = p ∧ y.2.first = b.first ∧ y.2.n = b.n
        let st : Nat :=
          if b.slot < 4 ∧ (sl.st = .empty ∨ sl.owner ≠ p) then 5
          else if b.slot < 4 ∧ sl.st = .loading then 1
          else if ∃ y ∈ x.binds.l, y.2.st ≠ .free ∧ overlaps b.first b.n y.2.first y.2.n = true ∧ ¬ joins y then 3
          else if s.bindRanges (dieOf c) p b = none then 4
          else if ∀ e ∈ List.range 8, (x.binds.get e {}).st ≠ .free then 6 else 0
        (st ≠ 0 → exec (.knbind d a h) s = .next (s.later d.toNat (BitVec.ofNat 64 st))) ∧
        (st = 0 → ∃ t e, exec (.knbind d a h) s = .next t ∧ e < 8 ∧ (x.binds.get e {}).st = .free ∧ (∀ f, f < e → (x.binds.get f {}).st ≠ .free) ∧
          ∃ vpa spa, s.bindRanges (dieOf c) p b = some (vpa, spa) ∧ (t.arr arr).binds.get e {} = { b with st := .pending, part := p, view := vpa, store := spa, tkBind := tk }))) ∧
    (∀ disc,
      let b := x.binds.get v.toNat {}
      let new (t : State) : Binding := (t.arr arr).binds.get v.toNat {}
      (8 ≤ v.toNat → exec (.knunbind d a disc h) s = .next (s.raise 0x04 0 v)) ∧
      (v.toNat < 8 → b.st = .free → exec (.knunbind d a disc h) s = .next (s.later d.toNat 8)) ∧
      (v.toNat < 8 → b.st ≠ .free → b.part ≠ p → exec (.knunbind d a disc h) s = .next (s.later d.toNat 9)) ∧
      (v.toNat < 8 → b.st ≠ .free → b.part = p → ∃ t, exec (.knunbind d a disc h) s = .next t ∧ tk ∈ (new t).tkUnbind ∧
        (b.st = .active ∨ b.st = .faulted → (new t).st = .draining ∧ (new t).discard = disc ∧ Ev.bindingDrainComplete arr v.toNat ∈ t.clk.pending) ∧
        (b.st = .pending → (new t).st = .pending ∧ (new t).discard = disc) ∧ (b.st = .draining → (new t).st = .draining ∧ (new t).discard = b.discard)))) ∧
  ((∀ (s : State), exec .kneadWindowStart s = .next { s with clk := { s.clk with kwin := true } } ∧ exec .kneadWindowEnd s = .next { s with clk := { s.clk with kwin := false } }) ∧
  (∀ (s : State) (arr n : Nat),
    let x := (s.arr arr).slots.get n {}
    let img := kDecode (fun i => (s.arr arr).dict.get i 0) x.image
    let ctl := 128 + arr / 2
    let here : Prop := s.ctlRuns x.owner (arr / 2) = true
    (x.st ≠ .loading → exec (.slotLoadComplete arr n) s = .next s) ∧
    (x.st = .loading → s.clk.kwin = false → exec (.slotLoadComplete arr n) s = .next (s.push (.slotLoadComplete arr n))) ∧
    (x.st = .loading → s.clk.kwin = true →
      (∀ ws, img = .ok ws → ∃ t, exec (.slotLoadComplete arr n) s = .next t ∧ (t.arr arr).slots.get n {} = { st := .loaded, owner := x.owner, ncol := ws.length, words := ws } ∧
        (here → Ev.scalarResultArrival ctl x.tk 0 ∈ t.clk.pending) ∧ (t.arr arr).binds = (s.arr arr).binds) ∧
      (∀ d a, img = .error (d, a) → ∃ t, exec (.slotLoadComplete arr n) s = .next t ∧ (t.arr arr).slots.get n {} = {} ∧ (here → Ev.scalarResultArrival ctl x.tk 7 ∈ t.clk.pending ∧
        (t.core ctl).async = (s.core ctl).async ++ [{ code := 0x17, detail := d, addr := w64 a, pc := x.pc, slot := 0, single := true }] ∧ Ev.asyncFaultTaken ctl ∈ t.clk.pending)))) ∧
  (∀ (s : State) (arr ent : Nat),
    let x := s.arr arr
    let b := x.binds.get ent {}
    let ctl := 128 + arr / 2
    let here : Prop := s.ctlRuns b.part (arr / 2) = true
    let dropped (t : State) : Prop := ∀ c l, b.covers (64 * l) = true → (t.core c).l1.find l = none ∧ (t.die c).viewL2.find l = none
    let done : Prop := (∀ r ∈ x.queue, r.ent ≠ ent) ∧ (∀ r ∈ x.runs, r.rcd.ent ≠ ent) ∧ b.deliv = [] ∧ ∀ z, z < 4 → b.outClk ≤ (s.die z).app.getD (arr / 2) 0
    (b.st ≠ .pending → exec (.bindingActivate arr ent) s = .next s) ∧
    (b.st = .pending → ∃ t, exec (.bindingActivate arr ent) s = .next t ∧ dropped t ∧
      ((t.arr arr).binds.get ent {}).st = (if b.tkUnbind = [] then .active else .draining) ∧ (b.tkUnbind ≠ [] → Ev.bindingDrainComplete arr ent ∈ t.clk.pending) ∧
      (here → Ev.scalarResultArrival ctl b.tkBind (w64 (ent * 256)) ∈ t.clk.pending) ∧
      ((∀ e ∈ x.binds.l, e.1 ≠ ent → e.2.st = .free ∨ e.2.st = .pending ∨ e.2.first ≠ b.first ∨ e.2.n ≠ b.n) → ∀ j y, j < b.n → y < 8 →
        (t.arr arr).cells.get (8 * (b.first + j) + y) {} = if b.slot = 4 then {} else (cellsOf 8 ((x.slots.get b.slot {}).words.getD (if b.ganged then j else 0) [])).getD y {})) ∧
    (b.st ≠ .draining → exec (.bindingDrainComplete arr ent) s = .next s) ∧
    (b.st = .draining → b.opened = [] → done →
      ∃ t, exec (.bindingDrainComplete arr ent) s = .next t ∧ (t.arr arr).binds.find ent = none ∧ (here → ∀ k ∈ b.tkUnbind, Ev.scalarResultArrival ctl k 0 ∈ t.clk.pending) ∧
        dropped t ∧ ∀ sp a, t.byteAt sp a = s.byteAt sp a) ∧
    (b.st = .draining → b.opened = [] → ¬ done → exec (.bindingDrainComplete arr ent) s = .next (s.push (.bindingDrainComplete arr ent))) ∧
    (b.st = .draining → b.opened ≠ [] →
      let n := if b.discard then b.opened.length else 16 - x.queue.length
      ∃ t, exec (.bindingDrainComplete arr ent) s = .next t ∧ ((t.arr arr).binds.get ent {}).opened = b.opened.drop n ∧ Ev.bindingDrainComplete arr ent ∈ t.clk.pending ∧
        (t.arr arr).queue = if b.discard then x.queue else x.queue ++ (b.opened.take n).map (fun o => { ent := ent, r := o.1, inp := some (closedInput b o), acc := [] }))))

/-! ## Ports, layout commit, islands -/

/-- R442, R443: retransmission cycles of a die-to-die port are counted; over its budget of 256 at a period boundary it loses a lane group (which of them is the worst is a free value, log 8), and with one group left the partitions
that use it are reset. R473: so a Tuinil port with its lanes.
R472, R473, R476: a flit with a bad check sum, or out of order, is discarded and answered by a NAK; a good one in order is counted, and a whole packet for this package goes to its consumer. A NAK sends everything after the acknowledged flit again, counted against the budget. -/
def Obligations.LinksDegrade : Prop :=
  ((∀ (s : State) (d p n : Nat), exec (.dieToDieLinkError d p n) s = .next (s.setDie d { s.die d with retry := (s.die d).retry.set p ((s.die d).retry.getD p 0 + n) })) ∧
  (∀ (s : State) (d p : Nat),
    let x := s.die d
    let m := x.lanes.getD p 0xF
    let up := (List.range 4).filter (fun i => m.testBit i)
    (x.retry.getD p 0 ≤ 256 → exec (.laneGroupDrop d p) s = .next (s.setDie d { x with retry := x.retry.set p 0 })) ∧
    (256 < x.retry.getD p 0 → 2 ≤ up.length → ∃ t g, exec (.laneGroupDrop d p) s = .next t ∧ g < 4 ∧ m.testBit g = true ∧
      t.die d = { x with retry := x.retry.set p 0, lanes := x.lanes.set p (m ^^^ 2 ^ g) } ∧ t.clk.pending = s.clk.pending) ∧
    (256 < x.retry.getD p 0 → up.length ≤ 1 → ∃ t, exec (.laneGroupDrop d p) s = .next t ∧ (t.die d).retry = x.retry.set p 0 ∧ (t.die d).lanes = x.lanes ∧
      ∀ n ∈ s.portParts d ((otherDies d).getD p d), ∃ l, Ev.partitionReset n 4 l ∈ t.clk.pending)) ∧
  (∀ (s : State) (p : Nat),
    let x := s.tport p
    ∃ t, exec (.tuinilLaneDrop p) s = .next t ∧ (t.tport p = if 256 < x.retry then { x with lanes := x.lanes - 1, retry := 0 } else { x with retry := 0 }) ∧
      ∀ q, q ≠ p → t.tport q = s.tport q)) ∧
  ((∀ (s : State) (port : Nat) (f : Flit),
    let p := s.tport port
    let p1 := (p.ackTo f.ack).emit 1024
    let good : Prop := crc32 (flitBytes f) = f.fcrc
    let run (t : State) : Prop := exec (.tuinilFlitReceive port f) s = .next t
    (p.lanes = 0 → exec (.tuinilFlitReceive port f) s = .next s) ∧
    (p.lanes ≠ 0 → ¬ good ∨ 3 ≤ f.kind → ∃ t, run t ∧ t.tport port = { p with wire := p.wire ++ [mkFlit 0 2 ((p.rxSeq + 4095) % 4096) []] } ∧ t.clk = s.clk) ∧
    (p.lanes ≠ 0 → good → f.kind = 0 → ∃ t, run t ∧ t.tport port = p1 ∧ t.clk = s.clk) ∧
    (p.lanes ≠ 0 → good → f.kind = 2 → ∃ t, run t ∧ t.tport port = p1 ∧ Ev.tuinilNakReceive port f.ack ∈ t.clk.pending) ∧
    (p.lanes ≠ 0 → good → f.kind = 1 → f.seq ≠ p1.rxSeq → ∃ t, run t ∧ t.tport port = { p1 with wire := p1.wire ++ [mkFlit 0 2 ((p1.rxSeq + 4095) % 4096) []] } ∧ t.clk = s.clk) ∧
    (p.lanes ≠ 0 → good → f.kind = 1 → f.seq = p1.rxSeq → ∃ t, run t ∧ (t.tport port).rxSeq = (p1.rxSeq + 1) % 4096 ∧ (t.tport port).wire = p1.wire ∧
      ∀ q n, p1.rx ++ f.stream = pktBytes q ++ List.replicate n 0 → (q.kind = 2 ∧ q.data ≠ [] ∧ q.data.length % 256 = 0 ∧ q.data.length ≤ 2048 ∨ q.kind = 3 ∧ q.data = []) →
        q.swgrp < 65536 → q.src < 65536 → q.dst = Config.fabid.toNat → q.epoch < 256 → q.chunk < 256 → q.rank < 256 → q.nm < 256 → q.op < 2 → q.dtype < 256 → q.token.toNat < 2 ^ 37 →
        t.clk.pending = s.clk.pending ++ [if q.kind = 2 then .fabricResultDelivery q else .fabricDoneArrival q] ∧ (t.tport port).rx = [] ∧ (t.tport port).badPkts = p1.badPkts)) ∧
  (∀ (s : State) (port a : Nat),
    let q := (s.tport port).ackTo a
    ∃ t more, exec (.tuinilNakReceive port a) s = .next t ∧ (t.tport port).wire = q.wire ++ q.replay ++ more ∧ (t.tport port).retry = q.retry + q.replay.length * (16 / max q.lanes 1) ∧
      (q.tx = [] → more = [] ∧ (t.tport port).replay = q.replay) ∧ t.clk = s.clk))

/-- R445, R450, R451, R452, R247: the shadow layout is written, in the shapes that a partition may have, until an LGEN write with the next generation; the flip, at a period boundary once the moving quadrants are quiet, makes everything of it live in one step and zeroes the weight-store windows that
change; a watchdog reset discards a shadow. R488, R489, R490: a step of an island's level is announced in cycle 0 of a period and taken two periods later with a pause. -/
def Obligations.LayoutAndIslands : Prop :=
  (∀ (s : State) (l : LayoutRec),
    (s.layout.st ≠ .quiescing → layoutOk l = true → exec (.layoutShadowWrite l) s = .next { s with layout := { s.layout with shadow := some l, st := .shadowed } }) ∧
    ((s.layout.st = .quiescing ∨ layoutOk l = false) → exec (.layoutShadowWrite l) s = .next s)) ∧
  (∀ (s : State) (v : Nat),
    (s.layout.st = .shadowed → v = (s.layout.gen + 1) % 65536 → exec (.lgenWrite v) s = .next { s with layout := { s.layout with st := .quiescing } }) ∧
    (s.layout.st ≠ .shadowed ∨ v ≠ (s.layout.gen + 1) % 65536 → exec (.lgenWrite v) s = .next s)) ∧
  (∀ (s : State), exec .mgpWatchdogReset s = .next { s with layout := { s.layout with st := .live, shadow := none } }) ∧
  (∀ (s : State),
    (s.flipDue = true ↔ s.layout.st = .quiescing ∧ s.clk.cyc % 8192 = 0 ∧ ∃ l, s.layout.shadow = some l ∧ s.quiescedFor l = true) ∧
    (s.flipDue = false → exec .layoutFlip s = .next s) ∧
    (∀ l, s.flipDue = true → s.layout.shadow = some l → ∃ t, exec .layoutFlip s = .next t ∧ t.layout = { now := l, gen := (s.layout.gen + 1) % 65536, st := .live, shadow := none } ∧
      (∀ i a, i < 64 → l.ws.getD i (0, 0) ≠ s.layout.now.ws.getD i (0, 0) → (l.ws.getD i (0, 0)).1 * 65536 ≤ a → a < ((l.ws.getD i (0, 0)).1 + (l.ws.getD i (0, 0)).2) * 65536 →
        t.byteAt (.ws (i % 4)) a = 0) ∧
      (∀ d a, d < 4 → (s.die d).ws.wf = true → (∀ i, i < 64 → i % 4 = d → l.ws.getD i (0, 0) ≠ s.layout.now.ws.getD i (0, 0) →
        a < (l.ws.getD i (0, 0)).1 * 65536 ∨ ((l.ws.getD i (0, 0)).1 + (l.ws.getD i (0, 0)).2) * 65536 ≤ a) → t.byteAt (.ws d) a = s.byteAt (.ws d) a) ∧
      (∀ p, p < 16 → l.res.getD p (0, 0) ≠ s.layout.now.res.getD p (0, 0) → ((t.part p).resBase, (t.part p).resTotal) = l.res.getD p (0, 0)) ∧
      (∀ a, t.byteAt .host a = s.byteAt .host a) ∧ (∀ d a, t.byteAt (.view d) a = s.byteAt (.view d) a) ∧ ∀ c a, c < 128 → t.byteAt (.spad c) a = s.byteAt (.spad c) a)) ∧
  (∀ (s : State) (i l : Nat),
    let x := s.island i
    let becomes (j : Instr) (y : Island) : Prop := exec j s = .next { s with islands := s.islands.set i y }
    (1 ≤ l → l ≤ 8 → i < 16 →
      (s.clk.cyc % 8192 = 0 → x.apend = false → becomes (.freqAnnounce i l) { x with alevel := l, apend := true, aperiod := s.clk.cyc / 8192 + 2, want := none }) ∧
      (s.clk.cyc % 8192 ≠ 0 ∨ x.apend = true → becomes (.freqAnnounce i l) { x with want := some l })) ∧
    ((l = 0 ∨ 8 < l ∨ 16 ≤ i) → exec (.freqAnnounce i l) s = .next s) ∧
    (x.apend = true → x.aperiod ≤ s.clk.cyc / 8192 → becomes (.freqStep i) { x with level := x.alevel, apend := false, paused := true }) ∧
    (x.apend = false ∨ s.clk.cyc / 8192 < x.aperiod → exec (.freqStep i) s = .next s) ∧
    becomes (.freqPauseEnd i) { x with paused := false } ∧
    (∀ n, 100 ≤ n → i < 16 → becomes (.thermalLimit i n) { x with want := some (min 4 x.level) }) ∧ (∀ n, (n < 100 ∨ 16 ≤ i) → exec (.thermalLimit i n) s = .next s))

/-! ## The host's side -/

/-- R458, R457, R462, R467: a packet written to a notify page is stored in the queue's ring with its PASID and position where the queue is enabled, has room and is not paused; otherwise a plain write is dropped, counted, and told in the queue's completion record, and a Deferrable one is to be retried. R457: WQCFG: setting EN with a
legal LOGR and die empties the queue; while EN = 1 only PASID, RVEC and RIE change. -/
def Obligations.WorkQueues : Prop :=
  (∀ (s : State) (q off : Nat) (data : Bytes), s.booted = true → q < 1024 →
    let x := s.wq q
    let fn := s.layout.now.wqOwner.getD q 0
    let ok : Prop := data.length = 64 ∧ off = 0 ∧ x.en = true ∧ s.qmask fn ≠ 0
    let busy : Prop := bitsAt (s.fn fn).fctl.toNat 0 2 = 2 ∨ 2 ^ x.logr ≤ (x.wpos + 2 ^ 32 - x.rpos) % 2 ^ 32
    let pkt : Bytes := data ++ leBytes 4 (bitsAt x.w0.toNat 44 20) ++ leBytes 4 x.wpos ++ List.replicate 56 0
    let stored (i : Instr) (m : List HostMsg) : Prop := ∃ t, exec i s = .next t ∧ (t.wq q).wpos = (x.wpos + 1) % 2 ^ 32 ∧ (t.wq q).rpos = x.rpos ∧ t.msgs = s.msgs ++ m ∧
      (isSys (x.slot x.wpos) = true → s.hostMem.wf = true → ∀ a, t.hostMem.read a = laid (cellsAt (x.slot x.wpos - sysBase) pkt) a (s.hostMem.read a)) ∧
      (isSys (x.slot x.wpos) = false → (s.die 0).view.wf = true → (∀ i, i < 128 → s.ownerDie ((x.slot x.wpos + i) / 64 * 64) ≠ 0) → ∀ a, t.byteAt (.view 0) a = laid (cellsAt (x.slot x.wpos) pkt) a (s.byteAt (.view 0) a)) ∧
      ∀ sp a, sp ≠ .host → sp ≠ .view 0 → t.byteAt sp a = s.byteAt sp a
    let cr := bitsAt x.crec.toNat 6 46 * 64
    let told : Bytes := leBytes 4 x.nref ++ leBytes 4 ((x.ndrop + 1) % 2 ^ 32) ++ leBytes 4 x.lseq ++ leBytes 4 x.lpas ++ leBytes 4 0 ++ leBytes 4 (s.fn fn).rgen ++ List.replicate 40 0
    let dropped (i : Instr) : Prop := ∃ t, exec i s = .next t ∧ (t.wq q).ndrop = (x.ndrop + 1) % 2 ^ 32 ∧ (t.wq q).wpos = x.wpos ∧ (t.fn fn).ferr.getLsbD 2 = true ∧ t.msgs = s.msgs ∧
      (isSys cr = true → s.hostMem.wf = true → ∀ a, t.hostMem.read a = laid (cellsAt (cr - sysBase) told) a (s.hostMem.read a)) ∧
      (isSys cr = false → (s.die 0).view.wf = true → s.ownerDie cr ≠ 0 → ∀ a, t.byteAt (.view 0) a = laid (cellsAt cr told) a (s.byteAt (.view 0) a))
    (ok → ¬ busy → stored (.notifyWrite q off data) [] ∧ stored (.notifyDeferrableWrite q off data) [.dmw q true]) ∧
    (¬ ok ∨ busy → dropped (.notifyWrite q off data)) ∧
    (ok → busy → exec (.notifyDeferrableWrite q off data) s = .next { s with msgs := s.msgs ++ [.dmw q false] }) ∧
    (¬ ok → dropped (.notifyDeferrableWrite q off data))) ∧
  (∀ (s : State) (fn q : Nat) (v : W64), s.booted = true → q < 1024 →
    let x := s.wq q
    let after (w : Nat) (y : WQ) : Prop := exec (.wqcfgWrite fn q w v) s = .next { s with wqs := s.wqs.set q y }
    let lg := bitsAt v.toNat 32 4
    let legal : Prop := 1 ≤ lg ∧ lg ≤ 12 ∧ s.partOnDie fn (bitsAt v.toNat 1 2) = true
    (s.layout.now.wqOwner.getD q 0 ≠ fn → ∀ w, exec (.wqcfgWrite fn q w v) s = .next s) ∧
    (s.layout.now.wqOwner.getD q 0 = fn →
      (x.en = false → v.getLsbD 0 = true → legal → after 0 { x with w0 := (v &&& wq0Mask) ||| 1, rpos := 0, wpos := 0, nref := 0, clks := [] }) ∧
      (x.en = false → v.getLsbD 0 = true → ¬ legal → exec (.wqcfgWrite fn q 0 v) s = .next s) ∧
      (x.en = false → v.getLsbD 0 = false → after 0 { x with w0 := v &&& wq0Mask }) ∧
      (x.en = true → v.getLsbD 0 = true → after 0 { x with w0 := (x.w0 &&& ~~~wq0Live) ||| (v &&& wq0Live) }) ∧
      (x.en = true → v.getLsbD 0 = false → after 0 { x with w0 := ((x.w0 &&& ~~~wq0Live) ||| (v &&& wq0Live)) &&& ~~~(1#64), rpos := x.wpos, clks := [] }) ∧
      (x.en = false → after 1 { x with ring := v &&& 0x000FFFFFFFFFFF80#64 } ∧ after 2 { x with crec := v &&& 0x000FFFFFFFFFFFC0#64 }) ∧
      (x.en = true → exec (.wqcfgWrite fn q 1 v) s = .next s ∧ exec (.wqcfgWrite fn q 2 v) s = .next s)))

/-- R256: an invalidation at once drops the TLB entries that it covers, faults that walks of covered pages left and what the page-walk caches keep, and is then pending (its end is stated in MemorySystemEvents). R408: FRMADD. R410, R411, R412: a posted deadline record is refused with its result, releases held cores, or is queued for its decision. R470: attestation: a request is refused while one runs or where its record is bad; the report is written and BUSY clears. R456: FCTL takes its
RW bits, and STATE 3 leaves STATE; R466: a write of RUN clears a pending vector's bit and signals its entry (said for one pending vector). What the device must read and cannot read yet (log 49) is asked for, and the command is pending. -/
def Obligations.FunctionCommands : Prop :=
  (∀ (s : State) (fn : Nat) (v : W64), s.booted = true →
    let pasid := bitsAt v.toNat 32 20
    let a := (s.fn fn).invaddr.toNat
    let va := a / 4096 * 4096
    let size := 4096 * 2 ^ (min (a % 64) 36)
    let drops (i : Instr) (hit : Nat → Nat → Nat → Prop) : Prop := ∃ t r, exec i s = .next t ∧ (∀ e, e ∈ t.tlbs ↔ e ∈ s.tlbs ∧ ¬ (e.fn = fn ∧ hit e.pasid e.va e.size)) ∧
      (∀ f, f ∈ t.walkFaults ↔ f ∈ s.walkFaults ∧ ¬ (f.fn = fn ∧ hit f.pasid (f.page * 4096) 4096)) ∧ (∀ d, (t.die d).pwc = ⟨[]⟩) ∧
      (t.fn fn).inv = (s.fn fn).inv ++ [r] ∧ r.phase = 0 ∧ r.ids = s.clk.ids ∧ Ev.invalidationComplete fn ∈ t.clk.pending ∧ t.cores = s.cores ∧ ∀ sp x, t.byteAt sp x = s.byteAt sp x
    drops (.invalidatePasid fn v) (fun p _ _ => p = pasid) ∧ drops (.invalidateFunction fn v) (fun _ _ _ => True) ∧
    drops (.invalidateRange fn v) (fun p b n => p = pasid ∧ va < b + n ∧ b < va + size)) ∧
  (∀ (s : State) (fn : Nat) (v : W64), s.booted = true → ∃ t, exec (.frmadd fn v) s = .next t ∧ (t.part fn).frames = (s.part fn).frames ++ [bitsAt v.toNat 12 40] ∧
    (t.part fn).frmTotal = (s.part fn).frmTotal + 1 ∧ t.cores = s.cores) ∧
  (∀ (s : State) (fn : Nat) (v : W64), s.booted = true →
    let at_ := bitsAt v.toNat 6 46 * 64
    let r := (s.newFresh).2.devRead at_ 64
    let cs := recCores r
    let post (i : Instr) (e : Ev) (whole : Bool) : Prop :=
      (s.ReadsNow at_ 64 = false → ∃ t, exec i s = .next t ∧ e ∈ t.clk.pending ∧ t.fns = s.fns ∧ t.peelPosts = s.peelPosts ∧ t.cores = s.cores) ∧
      (s.ReadsNow at_ 64 = true → recPostBad r = false → (∀ c ∈ cs, s.partOf c = fn) → fieldAt r 0x18 1 = 2 → ∃ t, exec i s = .next t ∧ (t.fn fn).peelRes = 0 ∧ t.peelPosts = s.peelPosts ∧
        ∀ c ∈ cs, c ∉ (t.die (dieOf c)).hold) ∧
      (s.ReadsNow at_ 64 = true → recPostBad r = true → ∃ t, exec i s = .next t ∧ (t.fn fn).peelRes = 1 ∧ t.peelPosts = s.peelPosts) ∧
      (s.ReadsNow at_ 64 = true → recPostBad r = false → (∃ c ∈ cs, s.partOf c ≠ fn) → ∃ t, exec i s = .next t ∧ (t.fn fn).peelRes = 2 ∧ t.peelPosts = s.peelPosts) ∧
      (s.ReadsNow at_ 64 = true → recPostBad r = false → (∀ c ∈ cs, s.partOf c = fn) → fieldAt r 0x18 1 < 2 → ∃ t x, exec i s = .next t ∧ t.peelPosts = s.peelPosts ++ [x] ∧ x.cores = cs ∧ x.d = fieldAt r 0 8 ∧ x.part = fn ∧
        x.fn = some fn ∧ x.whole = (whole && (s.partCores fn).all cs.contains) ∧ x.decided = false ∧ Ev.peelDecision x.id ∈ t.clk.pending ∧ (t.fn fn).peelBusy = (s.fn fn).peelBusy + 1 ∧
        (fieldAt r 0x18 1 = 1 → ∀ c ∈ cs, c ∈ (t.die (dieOf c)).hold) ∧ t.cores = s.cores)
    post (.peelrecPost fn v) (.peelrecPost fn v) false ∧ post (.peelrecPartitionEviction fn v) (.peelrecPartitionEviction fn v) true) ∧
  (∀ (s : State) (fn : Nat) (v : W64), s.booted = true →
    let at_ := bitsAt v.toNat 6 46 * 64
    let s1 := (s.newFresh).2
    let r := s1.devRead at_ 64
    let pa := fieldAt r 0x20 8
    let bad : Prop := pa % 64 ≠ 0 ∨ ∃ b ∈ r.drop 0x28, b ≠ 0
    ((s.fn fn).attBusy ≠ none → exec (.attreq fn v) s = .next (s.modFn fn (fun f => { f with attStatus := 2 }))) ∧
    ((s.fn fn).attBusy = none → s.ReadsNow at_ 64 = false → ∃ t, exec (.attreq fn v) s = .next t ∧ Ev.attreq fn v ∈ t.clk.pending ∧ t.fns = s.fns ∧ t.cores = s.cores) ∧
    ((s.fn fn).attBusy = none → s.ReadsNow at_ 64 = true → bad → exec (.attreq fn v) s = .next (s1.modFn fn (fun f => { f with attStatus := 1 }))) ∧
    ((s.fn fn).attBusy = none → s.ReadsNow at_ 64 = true → ¬ bad → exec (.attreq fn v) s = .next ((s1.modFn fn (fun f => { f with attBusy := some (pa, r.take 32) })).push (.attestationComplete fn)))) ∧
  (∀ (s : State) (fn pa : Nat) (nonce : Bytes), (s.fn fn).attBusy = some (pa, nonce) → s.hostMem.wf = true →
    let b := s.reportBody fn nonce
    ∃ t, exec (.attestationComplete fn) s = .next t ∧ (t.fn fn).attBusy = none ∧ (t.fn fn).attStatus = 0 ∧
      (isSys pa = true → ∀ a, t.hostMem.read a = laid (cellsAt (pa - sysBase) (b ++ (List.range 3373).map (Config.sign b))) a (s.hostMem.read a))) ∧
  (∀ (s : State) (fn : Nat) (v : W64), s.booted = true →
    let st := bitsAt v.toNat 0 2
    let map : Prop := st = 0
    let ready : Prop := s.ReadsNow (s.pendByte fn 0) 256 = true ∧ ∀ n ∈ s.pendingVecs fn, s.ReadsNow (s.irtAddr fn n) 8 = true
    (¬ map ∨ ready → ∃ t, exec (.fctlWrite fn v) s = .next t ∧ bitsAt (t.fn fn).fctl.toNat 0 2 = (if st = 3 then bitsAt (s.fn fn).fctl.toNat 0 2 else st) ∧
      bitsAt (t.fn fn).fctl.toNat 7 12 = bitsAt v.toNat 7 12 ∧ (¬ map ∨ s.pendingVecs fn = [] → t.msgs = s.msgs ∧ t.hostMem = s.hostMem ∧ t.dies = s.dies) ∧
      ∀ n m, map → s.pendingVecs fn = [n] → n < 2048 → isSys (s.pendByte fn n) = true → s.hostMem.wf = true →
        let w := s.devWrite (s.pendByte fn n) (leBytes 1 (leNat (s.devRead (s.pendByte fn n) 1) ^^^ 2 ^ (n % 8)))
        let d := ((s.fn fn).msixWord (2 * m + 1)).toNat
        w.irtEntry fn n = some m → isSys (w.irtAddr fn n) = true →
          (∀ a, t.hostMem.read a = if a = s.pendByte fn n - sysBase then s.hostMem.read a ^^^ BitVec.ofNat 8 (2 ^ (n % 8)) else s.hostMem.read a) ∧
          (d.testBit 32 = false → t.msgs = s.msgs ++ [.msi fn ((s.fn fn).msixWord (2 * m)).toNat (d % 2 ^ 32)]) ∧ (d.testBit 32 = true → m < 64 → (t.fn fn).pba.getLsbD m = true ∧ t.msgs = s.msgs)) ∧
    (map → ¬ ready → ∃ t, exec (.fctlWrite fn v) s = .next t ∧ Ev.fctlWrite fn v ∈ t.clk.pending ∧ t.fns = s.fns ∧ t.msgs = s.msgs ∧ t.cores = s.cores))

/-- R466: an interrupt event of an older generation, or of a vector whose remapping entry names none, is dropped and counted; one of a function that does not run is made pending; otherwise its MSI-X entry is signalled, which sends its message or while it is masked sets
its PBA bit; unmasking sends what was held. R454: the aperture reaches the function's HBM window; a read beyond it is an Unsupported Request. What the device must read for an event and cannot read yet (log 49) is asked for, and the event is pending. R6, R456: a register's RW fields take the value and nothing else of it (TOTAL of the channel reserve only while no channel of the partition is open); a command register's write is its command; the MSI-X table takes its words, and clearing an entry's mask sends what was held; FERR's bits are cleared by writing 1; read-only registers stay. -/
def Obligations.InterruptsAndRegisters : Prop :=
  (∀ (s : State) (fn vec rgen : Nat),
    let f := s.fn fn
    let s1 := (s.newFresh).2
    let st := bitsAt f.fctl.toNat 0 2
    let ready : Prop := s.ReadsNow (s.irtAddr fn vec) 8 = true ∧ (st ≠ 0 → s.ReadsNow (s.pendByte fn vec) 1 = true)
    (rgen = f.rgen → ¬ ready → ∃ t, exec (.interruptEvent fn vec rgen) s = .next t ∧ Ev.interruptEvent fn vec rgen ∈ t.clk.pending ∧ t.fns = s.fns ∧ t.msgs = s.msgs ∧ t.cores = s.cores) ∧
    (rgen ≠ f.rgen ∨ (ready ∧ s1.irtEntry fn vec = none) → ∃ t, exec (.interruptEvent fn vec rgen) s = .next t ∧ (t.fn fn).nidrop = min (f.nidrop + 1) 65535 ∧ (t.fn fn).ferr.getLsbD 3 = true ∧ t.msgs = s.msgs ∧
      t.cores = s.cores) ∧
    (∀ m, rgen = f.rgen → ready → s1.irtEntry fn vec = some m → st = 0 →
      let d := (f.msixWord (2 * m + 1)).toNat
      (d.testBit 32 = false → exec (.interruptEvent fn vec rgen) s = .next { s1 with msgs := s.msgs ++ [.msi fn (f.msixWord (2 * m)).toNat (d % 2 ^ 32)] }) ∧
      (d.testBit 32 = true → m < 64 → ∃ t, exec (.interruptEvent fn vec rgen) s = .next t ∧ (t.fn fn).pba.getLsbD m = true ∧ t.msgs = s.msgs)) ∧
    (∀ m, rgen = f.rgen → ready → s1.irtEntry fn vec = some m → st ≠ 0 → isSys (s.pendByte fn vec) = true → s.hostMem.wf = true →
      ∃ t, exec (.interruptEvent fn vec rgen) s = .next t ∧ t.msgs = s.msgs ∧
        (t.hostMem.read (s.pendByte fn vec - sysBase)) = (s.hostMem.read (s.pendByte fn vec - sysBase)) ||| BitVec.ofNat 8 (2 ^ (vec % 8)) ∧
        ∀ a, a ≠ s.pendByte fn vec - sysBase → t.hostMem.read a = s.hostMem.read a)) ∧
  (∀ (s : State) (fn e : Nat), s.booted = true → e < 64 →
    let f := s.fn fn
    ∃ t, exec (.msixVectorUnmask fn e) s = .next t ∧ ((t.fn fn).msixWord (2 * e + 1)).toNat = (f.msixWord (2 * e + 1)).toNat % 2 ^ 32 ∧ (t.fn fn).pba.getLsbD e = false ∧
      t.msgs = s.msgs ++ (if f.pba.getLsbD e then [.msi fn (f.msixWord (2 * e)).toNat ((f.msixWord (2 * e + 1)).toNat % 2 ^ 32)] else [])) ∧
  (∀ (s : State) (fn off len : Nat) (wr : Option Bytes), s.booted = true →
    let w := if s.qmask fn = 0 then (0, 0) else s.layout.now.hbm.getD fn (0, 0)
    let n := (wr.map (·.length)).getD len
    (w.2 < off + n ∨ s.inReserve (w.1 + off) n = true →
      (wr = none → exec (.apertureAccess fn off len wr) s = .next { s with msgs := s.msgs ++ [.read fn off none] }) ∧ (wr ≠ none → exec (.apertureAccess fn off len wr) s = .next s)) ∧
    (off + n ≤ w.2 → s.inReserve (w.1 + off) n = false → ∃ t, exec (.apertureAccess fn off len wr) s = .next t ∧ t.msgs = s.msgs ∧ t.cores = s.cores ∧ t.dies = s.dies ∧
      ∀ p ∈ linePieces (w.1 + off) n, ∃ a, Ev.homeSliceAccess a ∈ t.clk.pending ∧ a.die = 0 ∧ a.pa = w.1 + off + p.1 ∧ a.len = p.2 ∧ a.reply = .host fn (off + p.1) ∧
        a.wr = wr.map (fun b => cellsAt (w.1 + off + p.1) ((b.drop p.1).take p.2)))) ∧
  (∀ (s : State) (fn : Nat) (v : W64), s.booted = true → fn < 16 →
    let writes (off : Nat) (m : W64) : Prop := ∃ t, exec (.registerWrite fn off v) s = .next t ∧ t.fnRead fn off = v &&& m ∧
      (∀ o, o < 0x400 → o ≠ off → t.fnRead fn o = s.fnRead fn o) ∧ (∀ n, n ≠ fn → t.fn n = s.fn n) ∧ t.cores = s.cores ∧ t.dies = s.dies
    writes 0x010 0x000FFFFFFFFFF001#64 ∧ writes 0x018 0x000FFFFFFFFFF01F#64 ∧ writes 0x028 0xFFFFFFFFFFFFF03F#64 ∧ writes 0x048 0x000FFFFFFFFF8001#64 ∧ writes 0x060 0x000FFFFFFFFFF00F#64 ∧
    writes 0x068 0x000FFFFFFFFFF000#64 ∧ (∀ i, i < 64 → writes (0x1000 + 16 * i) 0xFFFF0F0FF0E30003#64 ∧ writes (0x1008 + 16 * i) 0xFFF#64) ∧
    (∃ t, exec (.registerWrite fn 0x070 v) s = .next t ∧ t.fnRead fn 0x070 = s.fnRead fn 0x070 &&& ~~~v) ∧
    (∃ t, exec (.registerWrite fn 0x038 v) s = .next t ∧ (s.chanOpenFor fn = false → t.fnRead fn 0x038 = v &&& 0xFFFFFFFFFFFF0000#64) ∧
      (s.chanOpenFor fn = true → (s.part fn).resTotal < 65536 → t.fnRead fn 0x038 = (v &&& 0xFFFFFFFF00000000#64) ||| (s.fnRead fn 0x038 &&& 0xFFFF0000#64))) ∧
    (v.getLsbD 0 = false → ∃ t, exec (.registerWrite fn 0x098 v) s = .next t ∧ t.fnRead fn 0x098 = (v &&& 0x0000FFFFFFFFFFFC#64) ||| (s.fnRead fn 0x098 &&& 1)) ∧
    exec (.registerWrite fn 0x008 v) s = exec (.fctlWrite fn v) s ∧ exec (.registerWrite fn 0x040 v) s = exec (.frmadd fn v) s ∧ exec (.registerWrite fn 0x080 v) s = exec (.attreq fn v) s ∧
    exec (.registerWrite fn 0x050 v) s = exec (if v.getLsbD 0 then .peelrecPartitionEviction fn v else .peelrecPost fn v) s ∧
    (v.getLsbD 0 = true → exec (.registerWrite fn 0x098 v) s = exec (.schedulerGo fn v) s) ∧
    exec (.registerWrite fn 0x020 v) s = (match bitsAt v.toNat 0 2 with
      | 0 => exec (.invalidatePasid fn v) s
      | 1 => exec (.invalidateFunction fn v) s
      | 2 => exec (.invalidateRange fn v) s
      | _ => .next s) ∧
    (∀ q w, q < 1024 → w < 4 → exec (.registerWrite fn (0x8000 + 32 * q + 8 * w) v) s = exec (.wqcfgWrite fn q w v) s) ∧
    (∀ e, e < 64 → let f := s.fn fn
      (∃ t, exec (.registerWrite fn (0x10000 + 16 * e) v) s = .next t ∧ (t.fn fn).msixWord (2 * e) = v &&& 0xFFFFFFFFFFFFFFFC#64 ∧ t.msgs = s.msgs) ∧
      (∃ t, exec (.registerWrite fn (0x10008 + 16 * e) v) s = .next t ∧ (t.fn fn).msixWord (2 * e + 1) = v &&& 0x1FFFFFFFF#64 ∧
        (t.fn fn).pba.getLsbD e = (f.pba.getLsbD e && v.getLsbD 32) ∧
        t.msgs = s.msgs ++ (if f.pba.getLsbD e && !v.getLsbD 32 then [.msi fn (f.msixWord (2 * e)).toNat (v.toNat % 2 ^ 32)] else []))) ∧
    (∀ off, off = 0x000 ∨ off = 0x030 ∨ off = 0x058 ∨ off = 0x078 ∨ off = 0x088 ∨ off = 0x090 ∨ off = 0x0A0 ∨ (off < 0x10000 ∧ off % 8 ≠ 0) ∨ (0x10000 ≤ off ∧ off % 4 ≠ 0) → exec (.registerWrite fn off v) s = .next s) ∧
    (∀ i, i < 128 → s.fnRead fn (0x10000 + 8 * i) = (s.fn fn).msixWord i ∧ s.fnRead fn (0x10004 + 8 * i) = (s.fn fn).msixWord i >>> 32) ∧
    s.fnRead fn 0x10800 = (s.fn fn).pba ∧ s.fnRead fn 0x10804 = (s.fn fn).pba >>> 32 ∧
    (∀ q, q < 1024 → (s.wq q).wpos < 2 ^ 32 → (s.wq q).rpos < 2 ^ 32 → ((s.notifyRead q 0).toNat % 2 ^ 32 = (s.wq q).wpos ∧ (s.notifyRead q 0).toNat / 2 ^ 32 = (s.wq q).rpos ∧
      ∀ off, off ≠ 0 → s.notifyRead q off = 0)))

/-! ## Reset, decoding, steps, whole-machine rules -/

/-- R490, R247, R443, R449, R474, R438, R296, R391, R196, R194, R492: after reset the registers read what their tables give: FREQST level 8, LNKST all lane groups, TLNKST four lanes, PLAYOUT partition 0 with every quadrant, NOCCFG, PRFCFG, WDCFG, SCQUANT and SCAGE, the limits of a control core, CYC 0, WSWIN 0 (R247), and the
weight stores are zero; no work item and no context runs. -/
def Obligations.ResetState : Prop :=
  let s := State.reset
  (∀ d, d < 4 → s.sysRead (128 + d) 0x12 = 0x88#64 ∧ s.sysRead (128 + d) 0x3C = 0xFFF#64 ∧ s.sysRead (128 + d) 0x3E = 0x124#64 ∧ s.sysRead (128 + d) 0x3B = 0xFFFF00000000#64 ∧ s.sysRead (128 + d) 0x3A = 0x02002424#64 ∧
    s.sysRead (128 + d) 0x34 = 65536#64 ∧ s.sysRead (128 + d) 0x36 = 4096#64 ∧ s.sysRead (128 + d) 0x30 = 0x04081020#64 ∧ s.sysRead (128 + d) 0x31 = 65536#64 ∧
    s.sysRead (128 + d) 0x06 = 0 ∧ s.sysRead (128 + d) 0x08 = 0 ∧ s.sysRead (128 + d) 0x09 = w64 (1047552 * 2 ^ 32 + 24 * 2 ^ 8 + 64) ∧ s.sysRead (128 + d) 0x0A = 0 ∧ s.sysRead (128 + d) 0x0B = w64 (8 + 64 * 2 ^ 16)) ∧
  (∀ c, s.sysRead c 0x01 = 0 ∧ (s.core c).item = none ∧ (s.core c).ctl.running = false ∧ (s.core c).handler = false ∧ ∀ n, (s.core c).base (.reg n) = 0 ∧ (s.core c).base (.pred n) = 0) ∧
  (∀ d a, s.byteAt (.ws d) a = 0) ∧ (∀ ch, (s.chan ch).spfirst = 0xFFFF ∧ (s.chan ch).open_ = false) ∧ ∀ fn off, off < 0x8000 → off ≠ 0 → off ≠ 0x90 → s.fnRead fn off = 0

/-- R80, R86, R118, R233, R236: op words written out from their formats decode to the instructions they stand for: ADD, LDS, LOOP, TRAP, ERET, FENCE, LDF, SYNC, CTRINIT, ATOMG and LAUNCH. -/
def Obligations.DecodeWords : Prop :=
  decodeTableWord 32 0x04B172A2 = some (.add { d := 11#6, ba := false, a := 11#6, bb := true, b := 10#6, g := 17#5, w := false }) ∧
  decodeTableWord 32 0xC8A0B000 = some (.lds { d := 10#6, ba := false, a := 5#6, size := 4#3, off := 0#10 }) ∧
  decodeTableWord 64 0x03200000F4008007 = some (.loop { ba := false, a := 4#6, imm := 7#13, ii := 3#8, sm1 := 1#3 }) ∧
  decodeTableWord 32 0x00000203 = some (.trap 3#8) ∧ decodeTableWord 32 0x00000301 = some (.eret true) ∧ decodeTableWord 32 0x00000602 = some (.fence true false) ∧
  decodeTableWord 32 0xD0709802 = some (.ldf { d := 7#6, ba := false, a := 4#6, off := 2#10 }) ∧ decodeTableWord 32 0x00000700 = some .sync ∧
  decodeTableWord 32 0x00014900 = some (.ctrinit 5#6 false 0#6) ∧
  decodeTableWord 64 0x20012000E0709800 = some (.atomg { d := 7#6, ba := false, a := 4#6, size := 6#3, off := 0#10, aop := 2#4, rem := false, die := 0#2, core := 0#5, bv := false, v := 9#6, bc := false, c := 0#6 }) ∧
  decodeTableWord 32 0xF840C03E = some (.launch 4#6 false 6#6 31#5)

/-- R79, R80, R86, R341, R343: ADD and SUB words whose guard field is 24 are refused; every vector and matrix word is refused on a control core with decode error 0x02; a cell word with a bit of its reserved field set, or with an opcode beyond 0x19, is no cell op.
R84, R340, R341: decoding an encoded instruction gives it back: every op that is well formed on its kind of core, with every operand at every value its encoding admits, and every cell op. -/
def Obligations.DecodeEncode : Prop :=
  ((∀ (ctl : Bool) (w : W32) (x : Option W32), w.extractLsb' 26 6 = 0x02#6 ∨ w.extractLsb' 26 6 = 0x01#6 → w.extractLsb' 1 5 = 24#5 → ∃ n, decodeOp ctl 0 w x = .error n) ∧
  (∀ (w : W32) (x : Option W32) (cls : Nat), cls = 1 ∨ cls = 2 → decodeOp true cls w x = .error 0x02) ∧
  (∀ (at_ : CellLoc) (w : W64), w.extractLsb' 16 13 ≠ 0#13 → decodeCell at_ w = none) ∧
  (∀ (at_ : CellLoc) (w : W64), 0x19 < (w.extractLsb' 58 6).toNat → decodeCell at_ w = none)) ∧
  ((∀ (ctl : Bool) (i : Instr) (cls : Nat) (w : W32) (x : Option W32), i.wf ctl = true → encode i = some (cls, w, x) → decodeOp ctl cls w x = .ok i) ∧
  (∀ (at_ : CellLoc) (op : Nat) (f : CellWord) (i : Instr) (w : W64), cellInstr at_ op f = some i → i.wf false = true → encodeCell i = some w → decodeCell at_ w = some i))

/-- R28, R33, R65, R67, R76, R77: a step runs the decoded instruction. Where the words at the PC of a core at a bundle boundary are a single-op bundle whose op word decodes to i, and the bundle's checks pass (of a SYNC also: its line has let it go, R213), the step is exec of i, its op holding its bundle's address, the PC moved past the bundle's words (or to the target that follows),
then the clock's tick. A slot's head is executed as it stands, an event is run by the meaning of its instruction, and a cell fires what its flit's word decodes to. -/
def Obligations.StepRunsDecodedInstruction : Prop :=
  (∀ (s : State) (c : Nat) (h w x : W32) (i : Instr) (rest : List Move),
    let k := s.core c
    let n := (hdrWords h).getD 1
    let ctl := isCtl c
    let cls := bitsAt h.toNat 26 3
    let b : Bundle := { pc := k.pc, next := k.pc + w64 (4 * n), single := true, scope := bitsAt h.toNat 22 3, pops := hdrPops h, words := [(singleSlot cls, .ok i)] }
    s.clk.fires = [] → s.clk.urgent = [] → s.clk.tape = .run c :: rest → (∀ sl, s.startable c sl = false) → s.mayIssue c = true → k.async = [] → k.pend = [] →
    k.loop.act = false → k.quiet = true →
    s.fetch c k.pc = .word h → s.fetch c (k.pc + 4) = .word w → (h.getLsbD 25 = true → s.fetch c (k.pc + 4 + 4) = .word x) →
    hdrKind h = 6 → singleHdrBad h = false → (isSync i = true → k.goSync = true) → decodeOp ctl cls w (if h.getLsbD 25 then some x else none) = .ok i → i.wf ctl = true →
    (let k0 : Core := { k with serial := false, rot := k.rot + 1 }
     let s0 : State := { s with clk := { s.clk with tape := rest } }.setCore c k0
     s0.bundleWaits c b (b.ops k0) = false ∧ k0.bundleFault ctl b (b.ops k0) = none ∧ k0.canReserve (resvList (b.ops k0)) = true ∧ (b.ops k0).findSome? (k0.nowCheck b) = none ∧
       ∀ o ∈ b.ops k0, o.en = true) →
    ∃ s1, step s = stepEnd s1 (exec i s1) ∧ s1.cur.core = c ∧ s1.cur.slot = singleSlot cls ∧ s1.cur.op.pc = k.pc ∧ s1.cur.op.next = b.next ∧ s1.cur.op.single = true ∧ s1.cur.op.scope = b.scope ∧
      (s1.core c).pc = k.target.getD b.next ∧ (s1.core c).regs = k.regs ∧ (s1.core c).preds = k.preds ∧ (s1.core c).bundleNo = k.bundleNo + 1 ∧ ∀ sp a, s1.byteAt sp a = s.byteAt sp a) ∧
  (∀ (s : State) (c slot : Nat) (o : SlipOp) (r : List SlipOp) (rest : List Move), s.clk.fires = [] → s.clk.urgent = [] → s.clk.tape = .start c slot :: rest → s.startable c slot = true →
    (s.core c).slots.get slot [] = o :: r →
    let s1 : State := { s.modCore c (fun k => { k with slots := k.slots.set slot r }) with clk := { s.clk with tape := rest }, cur := { core := c, slot := slot, op := o } }
    step s = stepEnd s1 (exec o.op s1)) ∧
  (∀ (s : State) (e : Ev) (i : Instr) (r : List Ev), isInstr e i → s.clk.fires = [] → s.clk.urgent = e :: r → step s = exec i { s with clk := { s.clk with urgent := r } }) ∧
  (∀ (s : State) (n : Nat) (e : Ev) (i : Instr) (rest : List Move), isInstr e i → s.clk.fires = [] → s.clk.urgent = [] → s.clk.tape = .fire n :: rest → s.clk.pending[n]? = some e →
    step s = stepTick (exec i { s with clk := { s.clk with tape := rest, pending := s.clk.pending.eraseIdx n } })) ∧
  (∀ (s : State) (x : CellLoc) (r : List CellLoc) (f : KFlit), s.clk.fires = x :: r → (s.cell x).inp = some f →
    let s1 : State := { s with clk := { s.clk with fires := r } }
    (∀ i, decodeCell x (if f.ctl then (s.cell x).cword else (s.cell x).dword) = some i → step s = exec i s1) ∧
    (decodeCell x (if f.ctl then (s.cell x).cword else (s.cell x).dword) = none → step s = .next s1)) ∧
  (∀ (before t : State) (c slot : Nat), before.cur.core = c → before.cur.slot = slot →
    (((t.core c).slots.get slot []).length ≤ ((before.core c).slots.get slot []).length → stepEnd before (.next t) = .next (t.modCore c (fun k => { k with lastAct := t.clk.cyc })).tick) ∧
    (((before.core c).slots.get slot []).length < ((t.core c).slots.get slot []).length → stepEnd before (.next t) = .next t.tick))

/-- The machine never stops: a program's faults are traps, which the machine goes on from (R30, R383); so every instruction, every step and every run of the machine goes on, from every state. -/
def Obligations.EveryStepGoesOn : Prop :=
  (∀ (i : Instr) (s : State), ∃ t, exec i s = .next t) ∧ (∀ s : State, ∃ t, step s = .next t) ∧ Safe State.reset

/-- Every memory of the package keeps its canonical form: host memory, each die's view and weight store, each scratchpad, of a core and of a saved context. -/
def Obligations.EveryStepKeepsMemory : Prop :=
  ∀ (s t : State), s.memOk → step s = .next t → t.memOk

/-- The canonical form holds at reset. -/
def Obligations.ResetMemory : Prop :=
  State.reset.memOk
end

