-- ==== Sys2Proof/Laws/Memory.lean ====
section
/-! SUPPORT. Memories: every operation keeps the canonical form, and a read after a write gives what was written there and what stood elsewhere. -/
namespace Sys2Proof.Machine

/-! ## The canonical form -/

theorem Memory.wfFrom_mono (m : Memory) (a b : Nat) (h : b ≤ a) (w : m.wfFrom a = true) : m.wfFrom b = true := by
  cases m with
  | nil => rfl
  | cons c r =>
    obtain ⟨x, v⟩ := c
    simp only [Memory.wfFrom, Bool.and_eq_true, decide_eq_true_eq] at w ⊢
    exact ⟨⟨Nat.le_trans h w.1.1, w.1.2⟩, w.2⟩

theorem Memory.wfFrom_write (m : Memory) (lo a : Nat) (x : BitVec 8) (h : lo ≤ a) (w : m.wfFrom lo = true) : (m.write a x).wfFrom lo = true := by
  induction m generalizing lo with
  | nil =>
    by_cases hx : x = Memory.unlisted <;> simp [Memory.write, Memory.wfFrom, hx, h]
  | cons c r ih =>
    obtain ⟨b, v⟩ := c
    simp only [Memory.wfFrom, Bool.and_eq_true, decide_eq_true_eq, bne_iff_ne, ne_eq] at w
    obtain ⟨⟨hb, hv⟩, wr⟩ := w
    unfold Memory.write
    split
    · rename_i hab
      split
      · simp [Memory.wfFrom, hb, hv, wr]
      · rename_i hx
        simp only [beq_iff_eq] at hx
        simp [Memory.wfFrom, h, hx, hv, wr]
        omega
    · split
      · rename_i hab hae
        simp only [beq_iff_eq] at hae
        subst hae
        split
        · exact Memory.wfFrom_mono r (a + 1) lo (by omega) wr
        · rename_i hx
          simp only [beq_iff_eq] at hx
          simp [Memory.wfFrom, h, hx, wr]
      · rename_i hab hae
        simp only [beq_iff_eq] at hae
        simp only [Memory.wfFrom, Bool.and_eq_true, decide_eq_true_eq, bne_iff_ne, ne_eq]
        exact ⟨⟨hb, hv⟩, ih (b + 1) (by omega) wr⟩

theorem Memory.wf_nil : Memory.wf [] = true := rfl
/-- Writing one byte keeps the canonical form. -/
theorem Memory.wf_write (m : Memory) (a : Nat) (x : BitVec 8) (w : m.wf = true) : (m.write a x).wf = true := Memory.wfFrom_write m 0 a x (Nat.zero_le a) w
/-- Writing a run of bytes keeps the canonical form. -/
theorem Memory.wf_writeN (m : Memory) (a : Nat) (b : Bytes) (w : m.wf = true) : (m.writeN a b).wf = true := by
  induction b generalizing m a with
  | nil => exact w
  | cons x r ih => exact ih _ _ (Memory.wf_write m a x w)
/-- Writing bytes at their addresses keeps the canonical form. -/
theorem Memory.wf_writeAll (m : Memory) (l : List (Nat × BitVec 8)) (w : m.wf = true) : (m.writeAll l).wf = true := by
  induction l generalizing m with
  | nil => exact w
  | cons c r ih => obtain ⟨a, x⟩ := c; exact ih _ (Memory.wf_write m a x w)

/-! ## Reading -/

theorem Memory.read_below (m : Memory) (a lo : Nat) (h : a < lo) (w : m.wfFrom lo = true) : m.read a = Memory.unlisted := by
  cases m with
  | nil => rfl
  | cons c r =>
    obtain ⟨b, v⟩ := c
    simp only [Memory.wfFrom, Bool.and_eq_true, decide_eq_true_eq] at w
    simp [Memory.read, show a < b by omega]

theorem Memory.readFrom_write (m : Memory) (lo a b : Nat) (x : BitVec 8) (w : m.wfFrom lo = true) :
    (m.write a x).read b = if b = a then x else m.read b := by
  induction m generalizing lo with
  | nil =>
    by_cases hx : x = Memory.unlisted
    · by_cases hb : b = a <;> simp [Memory.write, Memory.read, hx]
    · by_cases hb : b = a
      · simp [Memory.write, Memory.read, hx, hb]
      · simp [Memory.write, Memory.read, hx, hb]
  | cons c r ih =>
    obtain ⟨d, v⟩ := c
    simp only [Memory.wfFrom, Bool.and_eq_true, decide_eq_true_eq] at w
    obtain ⟨⟨hd, hv⟩, wr⟩ := w
    unfold Memory.write
    by_cases h1 : a < d
    · simp only [h1, if_true]
      by_cases hx : x = Memory.unlisted
      · simp only [hx, beq_self_eq_true, if_true]
        by_cases hb : b = a
        · subst hb; simp [Memory.read, h1]
        · simp [hb]
      · simp only [beq_iff_eq, hx, if_false]
        by_cases hb : b = a
        · subst hb; simp [Memory.read]
        · by_cases hlt : b < a
          · simp [Memory.read, hlt, hb, show b < d by omega]
          · simp [Memory.read, hlt, hb]
    · by_cases h2 : a = d
      · subst h2
        simp only [Nat.lt_irrefl, if_false, beq_self_eq_true, if_true]
        by_cases hx : x = Memory.unlisted
        · simp only [hx, beq_self_eq_true, if_true]
          by_cases hb : b = a
          · subst hb; simpa using Memory.read_below r b (b + 1) (Nat.lt_succ_self b) wr
          · by_cases hlt : b < a
            · simp [Memory.read, hlt, hb, Memory.read_below r b (a + 1) (by omega) wr]
            · simp [Memory.read, hlt, hb]
        · simp only [beq_iff_eq, hx, if_false]
          by_cases hb : b = a
          · subst hb; simp [Memory.read]
          · simp [Memory.read, hb]
      · simp only [h1, if_false, beq_iff_eq, h2]
        by_cases hlt : b < d
        · simp [Memory.read, hlt, show b ≠ a by omega]
        · by_cases hbd : b = d
          · subst hbd; simp [Memory.read, show b ≠ a by omega]
          · simp [Memory.read, hlt, hbd, ih (d + 1) wr]

/-- A read after a write of one byte. -/
theorem Memory.read_write (m : Memory) (a b : Nat) (x : BitVec 8) (w : m.wf = true) : (m.write a x).read b = if b = a then x else m.read b :=
  Memory.readFrom_write m 0 a b x w

/-- A read after bytes were written at their addresses. -/
theorem Memory.read_writeAll (m : Memory) (l : List (Nat × BitVec 8)) (b : Nat) (w : m.wf = true) : (m.writeAll l).read b = laid l b (m.read b) := by
  induction l generalizing m with
  | nil => rfl
  | cons c r ih =>
    obtain ⟨a, x⟩ := c
    rw [Memory.writeAll, ih _ (Memory.wf_write m a x w), Memory.read_write m a b x w]
    by_cases h : a = b
    · subst h; simp [laid]
    · simp [laid, h, Ne.symm h]

theorem Memory.writeN_eq (m : Memory) (a : Nat) (b : Bytes) : m.writeN a b = m.writeAll (cellsAt a b) := by
  induction b generalizing m a with
  | nil => rfl
  | cons x r ih => exact ih _ _

/-- A read after a run of bytes was written. -/
theorem Memory.read_writeN (m : Memory) (a b : Nat) (x : Bytes) (w : m.wf = true) : (m.writeN a x).read b = laid (cellsAt a x) b (m.read b) := by
  rw [Memory.writeN_eq, Memory.read_writeAll m _ b w]

/-! ## Scratchpads -/

@[simp] theorem Spad.write_free (m : Spad) (a : Nat) (x : BitVec 8) : (m.write a x).free = m.free := rfl
@[simp] theorem Spad.write_base (m : Spad) (a b : Nat) (x : BitVec 8) : (m.write a x).base b = m.base b := rfl

theorem Spad.wf_write (m : Spad) (a : Nat) (x : BitVec 8) (w : m.cells.wf = true) : (m.write a x).cells.wf = true := Memory.wf_write _ _ _ w
theorem Spad.wf_writeAll (m : Spad) (l : List (Nat × BitVec 8)) (w : m.cells.wf = true) : (m.writeAll l).cells.wf = true := by
  induction l generalizing m with
  | nil => exact w
  | cons c r ih => obtain ⟨a, x⟩ := c; exact ih _ (Spad.wf_write m a x w)
theorem Spad.wf_writeN (m : Spad) (a : Nat) (b : Bytes) (w : m.cells.wf = true) : (m.writeN a b).cells.wf = true := Spad.wf_writeAll m _ w

theorem Spad.read_write (m : Spad) (a b : Nat) (x : BitVec 8) (w : m.cells.wf = true) : (m.write a x).read b = if b = a then x else m.read b := by
  have h : (m.write a x).read b = (m.cells.write a (x ^^^ m.base a)).read b ^^^ m.base b := rfl
  rw [h, Memory.read_write _ _ _ _ w]
  by_cases e : b = a
  · subst e
    simp only [if_true]
    rw [BitVec.xor_assoc, BitVec.xor_self, BitVec.xor_zero]
  · simp [e, Spad.read]

theorem Spad.read_writeAll (m : Spad) (l : List (Nat × BitVec 8)) (b : Nat) (w : m.cells.wf = true) : (m.writeAll l).read b = laid l b (m.read b) := by
  induction l generalizing m with
  | nil => rfl
  | cons c r ih =>
    obtain ⟨a, x⟩ := c
    rw [Spad.writeAll, ih _ (Spad.wf_write m a x w), Spad.read_write m a b x w]
    by_cases h : a = b
    · subst h; simp [laid]
    · simp [laid, h, Ne.symm h]

theorem Spad.read_writeN (m : Spad) (a b : Nat) (x : Bytes) (w : m.cells.wf = true) : (m.writeN a x).read b = laid (cellsAt a x) b (m.read b) :=
  Spad.read_writeAll m _ b w

/-- What stands outside the bytes laid down is as before. -/
theorem laid_outside (l : List (Nat × BitVec 8)) (a : Nat) (old : BitVec 8) (h : ∀ c ∈ l, c.1 ≠ a) : laid l a old = old := by
  induction l generalizing old with
  | nil => rfl
  | cons c r ih =>
    have h1 : c.1 ≠ a := h c (by simp)
    have h2 : laid (c :: r) a old = laid r a old := by simp [laid, h1]
    rw [h2]
    exact ih old (fun d hd => h d (by simp [hd]))

theorem cellsAt_addr (a : Nat) (b : Bytes) : ∀ c ∈ cellsAt a b, a ≤ c.1 ∧ c.1 < a + b.length := by
  induction b generalizing a with
  | nil => intro c h; simp [cellsAt] at h
  | cons x r ih =>
    intro c h
    simp only [cellsAt, List.mem_cons] at h
    rcases h with rfl | h
    · simp
    · have := ih (a + 1) c h
      simp only [List.length_cons]
      omega

end Sys2Proof.Machine
end

