-- ==== Sys2Proof/Laws/State.lean ====
section
/-! SUPPORT. What each update of the state leaves alone: one lemma per field, and reading back what was written. -/
namespace Sys2Proof.Machine

/-! ## Tables -/

theorem Tab.findL_setL_same {α : Type} (l : List (Nat × α)) (k : Nat) (v : α) : Tab.findL (Tab.setL l k v) k = some v := by
  induction l with
  | nil => simp [Tab.setL, Tab.findL]
  | cons p r ih =>
    obtain ⟨j, u⟩ := p
    by_cases h : j = k <;> simp [Tab.setL, Tab.findL, h, ih]

theorem Tab.findL_setL_ne {α : Type} (l : List (Nat × α)) (k j : Nat) (v : α) (h : j ≠ k) : Tab.findL (Tab.setL l k v) j = Tab.findL l j := by
  induction l with
  | nil => simp [Tab.setL, Tab.findL, Ne.symm h]
  | cons p r ih =>
    obtain ⟨i, u⟩ := p
    by_cases h1 : i = k
    · subst h1; simp [Tab.setL, Tab.findL, Ne.symm h]
    · have h2 : Tab.setL ((i, u) :: r) k v = (i, u) :: Tab.setL r k v := by simp [Tab.setL, h1]
      simp [h2, Tab.findL, ih]

@[simp] theorem Tab.get_set_same {α : Type} (t : Tab α) (k : Nat) (v d : α) : (t.set k v).get k d = v := by
  simp [Tab.get, Tab.set, Tab.find, Tab.findL_setL_same]
theorem Tab.get_set_ne {α : Type} (t : Tab α) (k j : Nat) (v d : α) (h : j ≠ k) : (t.set k v).get j d = t.get j d := by
  simp [Tab.get, Tab.set, Tab.find, Tab.findL_setL_ne _ _ _ _ h]

/-! ## The state -/

@[simp] theorem State.setCore_clk (s : State) (c : Nat) (k : Core) : (s.setCore c k).clk = s.clk := rfl
@[simp] theorem State.setCore_cur (s : State) (c : Nat) (k : Core) : (s.setCore c k).cur = s.cur := rfl
@[simp] theorem State.setCore_dies (s : State) (c : Nat) (k : Core) : (s.setCore c k).dies = s.dies := rfl
@[simp] theorem State.setCore_ownerPos (s : State) (c : Nat) (k : Core) : (s.setCore c k).ownerPos = s.ownerPos := rfl
@[simp] theorem State.setCore_dpSent (s : State) (c : Nat) (k : Core) : (s.setCore c k).dpSent = s.dpSent := rfl
@[simp] theorem State.setCore_dpDone (s : State) (c : Nat) (k : Core) : (s.setCore c k).dpDone = s.dpDone := rfl
@[simp] theorem State.setCore_tlbs (s : State) (c : Nat) (k : Core) : (s.setCore c k).tlbs = s.tlbs := rfl
@[simp] theorem State.setCore_walks (s : State) (c : Nat) (k : Core) : (s.setCore c k).walks = s.walks := rfl
@[simp] theorem State.setCore_walkFaults (s : State) (c : Nat) (k : Core) : (s.setCore c k).walkFaults = s.walkFaults := rfl
@[simp] theorem State.setCore_routers (s : State) (c : Nat) (k : Core) : (s.setCore c k).routers = s.routers := rfl
@[simp] theorem State.setCore_arrays (s : State) (c : Nat) (k : Core) : (s.setCore c k).arrays = s.arrays := rfl
@[simp] theorem State.setCore_layout (s : State) (c : Nat) (k : Core) : (s.setCore c k).layout = s.layout := rfl
@[simp] theorem State.setCore_parts (s : State) (c : Nat) (k : Core) : (s.setCore c k).parts = s.parts := rfl
@[simp] theorem State.setCore_fns (s : State) (c : Nat) (k : Core) : (s.setCore c k).fns = s.fns := rfl
@[simp] theorem State.setCore_wqs (s : State) (c : Nat) (k : Core) : (s.setCore c k).wqs = s.wqs := rfl
@[simp] theorem State.setCore_hostMem (s : State) (c : Nat) (k : Core) : (s.setCore c k).hostMem = s.hostMem := rfl
@[simp] theorem State.setCore_msgs (s : State) (c : Nat) (k : Core) : (s.setCore c k).msgs = s.msgs := rfl
@[simp] theorem State.setCore_peelPosts (s : State) (c : Nat) (k : Core) : (s.setCore c k).peelPosts = s.peelPosts := rfl
@[simp] theorem State.setCore_groups (s : State) (c : Nat) (k : Core) : (s.setCore c k).groups = s.groups := rfl
@[simp] theorem State.setCore_tports (s : State) (c : Nat) (k : Core) : (s.setCore c k).tports = s.tports := rfl
@[simp] theorem State.setCore_islands (s : State) (c : Nat) (k : Core) : (s.setCore c k).islands = s.islands := rfl
@[simp] theorem State.setCore_hbmFail (s : State) (c : Nat) (k : Core) : (s.setCore c k).hbmFail = s.hbmFail := rfl
@[simp] theorem State.setCore_mgpLog (s : State) (c : Nat) (k : Core) : (s.setCore c k).mgpLog = s.mgpLog := rfl
@[simp] theorem State.setCore_powered (s : State) (c : Nat) (k : Core) : (s.setCore c k).powered = s.powered := rfl
@[simp] theorem State.setCore_booted (s : State) (c : Nat) (k : Core) : (s.setCore c k).booted = s.booted := rfl

@[simp] theorem State.modCore_clk (s : State) (c : Nat) (f : Core → Core) : (s.modCore c f).clk = s.clk := rfl
@[simp] theorem State.modCore_cur (s : State) (c : Nat) (f : Core → Core) : (s.modCore c f).cur = s.cur := rfl
@[simp] theorem State.modCore_dies (s : State) (c : Nat) (f : Core → Core) : (s.modCore c f).dies = s.dies := rfl
@[simp] theorem State.modCore_ownerPos (s : State) (c : Nat) (f : Core → Core) : (s.modCore c f).ownerPos = s.ownerPos := rfl
@[simp] theorem State.modCore_dpSent (s : State) (c : Nat) (f : Core → Core) : (s.modCore c f).dpSent = s.dpSent := rfl
@[simp] theorem State.modCore_dpDone (s : State) (c : Nat) (f : Core → Core) : (s.modCore c f).dpDone = s.dpDone := rfl
@[simp] theorem State.modCore_tlbs (s : State) (c : Nat) (f : Core → Core) : (s.modCore c f).tlbs = s.tlbs := rfl
@[simp] theorem State.modCore_walks (s : State) (c : Nat) (f : Core → Core) : (s.modCore c f).walks = s.walks := rfl
@[simp] theorem State.modCore_walkFaults (s : State) (c : Nat) (f : Core → Core) : (s.modCore c f).walkFaults = s.walkFaults := rfl
@[simp] theorem State.modCore_routers (s : State) (c : Nat) (f : Core → Core) : (s.modCore c f).routers = s.routers := rfl
@[simp] theorem State.modCore_arrays (s : State) (c : Nat) (f : Core → Core) : (s.modCore c f).arrays = s.arrays := rfl
@[simp] theorem State.modCore_layout (s : State) (c : Nat) (f : Core → Core) : (s.modCore c f).layout = s.layout := rfl
@[simp] theorem State.modCore_parts (s : State) (c : Nat) (f : Core → Core) : (s.modCore c f).parts = s.parts := rfl
@[simp] theorem State.modCore_fns (s : State) (c : Nat) (f : Core → Core) : (s.modCore c f).fns = s.fns := rfl
@[simp] theorem State.modCore_wqs (s : State) (c : Nat) (f : Core → Core) : (s.modCore c f).wqs = s.wqs := rfl
@[simp] theorem State.modCore_hostMem (s : State) (c : Nat) (f : Core → Core) : (s.modCore c f).hostMem = s.hostMem := rfl
@[simp] theorem State.modCore_msgs (s : State) (c : Nat) (f : Core → Core) : (s.modCore c f).msgs = s.msgs := rfl
@[simp] theorem State.modCore_peelPosts (s : State) (c : Nat) (f : Core → Core) : (s.modCore c f).peelPosts = s.peelPosts := rfl
@[simp] theorem State.modCore_groups (s : State) (c : Nat) (f : Core → Core) : (s.modCore c f).groups = s.groups := rfl
@[simp] theorem State.modCore_tports (s : State) (c : Nat) (f : Core → Core) : (s.modCore c f).tports = s.tports := rfl
@[simp] theorem State.modCore_islands (s : State) (c : Nat) (f : Core → Core) : (s.modCore c f).islands = s.islands := rfl
@[simp] theorem State.modCore_hbmFail (s : State) (c : Nat) (f : Core → Core) : (s.modCore c f).hbmFail = s.hbmFail := rfl
@[simp] theorem State.modCore_mgpLog (s : State) (c : Nat) (f : Core → Core) : (s.modCore c f).mgpLog = s.mgpLog := rfl
@[simp] theorem State.modCore_powered (s : State) (c : Nat) (f : Core → Core) : (s.modCore c f).powered = s.powered := rfl
@[simp] theorem State.modCore_booted (s : State) (c : Nat) (f : Core → Core) : (s.modCore c f).booted = s.booted := rfl

@[simp] theorem State.setDie_clk (s : State) (d : Nat) (k : Die) : (s.setDie d k).clk = s.clk := rfl
@[simp] theorem State.setDie_cur (s : State) (d : Nat) (k : Die) : (s.setDie d k).cur = s.cur := rfl
@[simp] theorem State.setDie_cores (s : State) (d : Nat) (k : Die) : (s.setDie d k).cores = s.cores := rfl
@[simp] theorem State.setDie_ownerPos (s : State) (d : Nat) (k : Die) : (s.setDie d k).ownerPos = s.ownerPos := rfl
@[simp] theorem State.setDie_dpSent (s : State) (d : Nat) (k : Die) : (s.setDie d k).dpSent = s.dpSent := rfl
@[simp] theorem State.setDie_dpDone (s : State) (d : Nat) (k : Die) : (s.setDie d k).dpDone = s.dpDone := rfl
@[simp] theorem State.setDie_tlbs (s : State) (d : Nat) (k : Die) : (s.setDie d k).tlbs = s.tlbs := rfl
@[simp] theorem State.setDie_walks (s : State) (d : Nat) (k : Die) : (s.setDie d k).walks = s.walks := rfl
@[simp] theorem State.setDie_walkFaults (s : State) (d : Nat) (k : Die) : (s.setDie d k).walkFaults = s.walkFaults := rfl
@[simp] theorem State.setDie_routers (s : State) (d : Nat) (k : Die) : (s.setDie d k).routers = s.routers := rfl
@[simp] theorem State.setDie_arrays (s : State) (d : Nat) (k : Die) : (s.setDie d k).arrays = s.arrays := rfl
@[simp] theorem State.setDie_layout (s : State) (d : Nat) (k : Die) : (s.setDie d k).layout = s.layout := rfl
@[simp] theorem State.setDie_parts (s : State) (d : Nat) (k : Die) : (s.setDie d k).parts = s.parts := rfl
@[simp] theorem State.setDie_fns (s : State) (d : Nat) (k : Die) : (s.setDie d k).fns = s.fns := rfl
@[simp] theorem State.setDie_wqs (s : State) (d : Nat) (k : Die) : (s.setDie d k).wqs = s.wqs := rfl
@[simp] theorem State.setDie_hostMem (s : State) (d : Nat) (k : Die) : (s.setDie d k).hostMem = s.hostMem := rfl
@[simp] theorem State.setDie_msgs (s : State) (d : Nat) (k : Die) : (s.setDie d k).msgs = s.msgs := rfl
@[simp] theorem State.setDie_peelPosts (s : State) (d : Nat) (k : Die) : (s.setDie d k).peelPosts = s.peelPosts := rfl
@[simp] theorem State.setDie_groups (s : State) (d : Nat) (k : Die) : (s.setDie d k).groups = s.groups := rfl
@[simp] theorem State.setDie_tports (s : State) (d : Nat) (k : Die) : (s.setDie d k).tports = s.tports := rfl
@[simp] theorem State.setDie_islands (s : State) (d : Nat) (k : Die) : (s.setDie d k).islands = s.islands := rfl
@[simp] theorem State.setDie_hbmFail (s : State) (d : Nat) (k : Die) : (s.setDie d k).hbmFail = s.hbmFail := rfl
@[simp] theorem State.setDie_mgpLog (s : State) (d : Nat) (k : Die) : (s.setDie d k).mgpLog = s.mgpLog := rfl
@[simp] theorem State.setDie_powered (s : State) (d : Nat) (k : Die) : (s.setDie d k).powered = s.powered := rfl
@[simp] theorem State.setDie_booted (s : State) (d : Nat) (k : Die) : (s.setDie d k).booted = s.booted := rfl

@[simp] theorem State.modDie_clk (s : State) (d : Nat) (f : Die → Die) : (s.modDie d f).clk = s.clk := rfl
@[simp] theorem State.modDie_cur (s : State) (d : Nat) (f : Die → Die) : (s.modDie d f).cur = s.cur := rfl
@[simp] theorem State.modDie_cores (s : State) (d : Nat) (f : Die → Die) : (s.modDie d f).cores = s.cores := rfl
@[simp] theorem State.modDie_ownerPos (s : State) (d : Nat) (f : Die → Die) : (s.modDie d f).ownerPos = s.ownerPos := rfl
@[simp] theorem State.modDie_dpSent (s : State) (d : Nat) (f : Die → Die) : (s.modDie d f).dpSent = s.dpSent := rfl
@[simp] theorem State.modDie_dpDone (s : State) (d : Nat) (f : Die → Die) : (s.modDie d f).dpDone = s.dpDone := rfl
@[simp] theorem State.modDie_tlbs (s : State) (d : Nat) (f : Die → Die) : (s.modDie d f).tlbs = s.tlbs := rfl
@[simp] theorem State.modDie_walks (s : State) (d : Nat) (f : Die → Die) : (s.modDie d f).walks = s.walks := rfl
@[simp] theorem State.modDie_walkFaults (s : State) (d : Nat) (f : Die → Die) : (s.modDie d f).walkFaults = s.walkFaults := rfl
@[simp] theorem State.modDie_routers (s : State) (d : Nat) (f : Die → Die) : (s.modDie d f).routers = s.routers := rfl
@[simp] theorem State.modDie_arrays (s : State) (d : Nat) (f : Die → Die) : (s.modDie d f).arrays = s.arrays := rfl
@[simp] theorem State.modDie_layout (s : State) (d : Nat) (f : Die → Die) : (s.modDie d f).layout = s.layout := rfl
@[simp] theorem State.modDie_parts (s : State) (d : Nat) (f : Die → Die) : (s.modDie d f).parts = s.parts := rfl
@[simp] theorem State.modDie_fns (s : State) (d : Nat) (f : Die → Die) : (s.modDie d f).fns = s.fns := rfl
@[simp] theorem State.modDie_wqs (s : State) (d : Nat) (f : Die → Die) : (s.modDie d f).wqs = s.wqs := rfl
@[simp] theorem State.modDie_hostMem (s : State) (d : Nat) (f : Die → Die) : (s.modDie d f).hostMem = s.hostMem := rfl
@[simp] theorem State.modDie_msgs (s : State) (d : Nat) (f : Die → Die) : (s.modDie d f).msgs = s.msgs := rfl
@[simp] theorem State.modDie_peelPosts (s : State) (d : Nat) (f : Die → Die) : (s.modDie d f).peelPosts = s.peelPosts := rfl
@[simp] theorem State.modDie_groups (s : State) (d : Nat) (f : Die → Die) : (s.modDie d f).groups = s.groups := rfl
@[simp] theorem State.modDie_tports (s : State) (d : Nat) (f : Die → Die) : (s.modDie d f).tports = s.tports := rfl
@[simp] theorem State.modDie_islands (s : State) (d : Nat) (f : Die → Die) : (s.modDie d f).islands = s.islands := rfl
@[simp] theorem State.modDie_hbmFail (s : State) (d : Nat) (f : Die → Die) : (s.modDie d f).hbmFail = s.hbmFail := rfl
@[simp] theorem State.modDie_mgpLog (s : State) (d : Nat) (f : Die → Die) : (s.modDie d f).mgpLog = s.mgpLog := rfl
@[simp] theorem State.modDie_powered (s : State) (d : Nat) (f : Die → Die) : (s.modDie d f).powered = s.powered := rfl
@[simp] theorem State.modDie_booted (s : State) (d : Nat) (f : Die → Die) : (s.modDie d f).booted = s.booted := rfl

@[simp] theorem State.modArr_clk (s : State) (a : Nat) (f : Array8 → Array8) : (s.modArr a f).clk = s.clk := rfl
@[simp] theorem State.modArr_cur (s : State) (a : Nat) (f : Array8 → Array8) : (s.modArr a f).cur = s.cur := rfl
@[simp] theorem State.modArr_cores (s : State) (a : Nat) (f : Array8 → Array8) : (s.modArr a f).cores = s.cores := rfl
@[simp] theorem State.modArr_dies (s : State) (a : Nat) (f : Array8 → Array8) : (s.modArr a f).dies = s.dies := rfl
@[simp] theorem State.modArr_ownerPos (s : State) (a : Nat) (f : Array8 → Array8) : (s.modArr a f).ownerPos = s.ownerPos := rfl
@[simp] theorem State.modArr_dpSent (s : State) (a : Nat) (f : Array8 → Array8) : (s.modArr a f).dpSent = s.dpSent := rfl
@[simp] theorem State.modArr_dpDone (s : State) (a : Nat) (f : Array8 → Array8) : (s.modArr a f).dpDone = s.dpDone := rfl
@[simp] theorem State.modArr_tlbs (s : State) (a : Nat) (f : Array8 → Array8) : (s.modArr a f).tlbs = s.tlbs := rfl
@[simp] theorem State.modArr_walks (s : State) (a : Nat) (f : Array8 → Array8) : (s.modArr a f).walks = s.walks := rfl
@[simp] theorem State.modArr_walkFaults (s : State) (a : Nat) (f : Array8 → Array8) : (s.modArr a f).walkFaults = s.walkFaults := rfl
@[simp] theorem State.modArr_routers (s : State) (a : Nat) (f : Array8 → Array8) : (s.modArr a f).routers = s.routers := rfl
@[simp] theorem State.modArr_layout (s : State) (a : Nat) (f : Array8 → Array8) : (s.modArr a f).layout = s.layout := rfl
@[simp] theorem State.modArr_parts (s : State) (a : Nat) (f : Array8 → Array8) : (s.modArr a f).parts = s.parts := rfl
@[simp] theorem State.modArr_fns (s : State) (a : Nat) (f : Array8 → Array8) : (s.modArr a f).fns = s.fns := rfl
@[simp] theorem State.modArr_wqs (s : State) (a : Nat) (f : Array8 → Array8) : (s.modArr a f).wqs = s.wqs := rfl
@[simp] theorem State.modArr_hostMem (s : State) (a : Nat) (f : Array8 → Array8) : (s.modArr a f).hostMem = s.hostMem := rfl
@[simp] theorem State.modArr_msgs (s : State) (a : Nat) (f : Array8 → Array8) : (s.modArr a f).msgs = s.msgs := rfl
@[simp] theorem State.modArr_peelPosts (s : State) (a : Nat) (f : Array8 → Array8) : (s.modArr a f).peelPosts = s.peelPosts := rfl
@[simp] theorem State.modArr_groups (s : State) (a : Nat) (f : Array8 → Array8) : (s.modArr a f).groups = s.groups := rfl
@[simp] theorem State.modArr_tports (s : State) (a : Nat) (f : Array8 → Array8) : (s.modArr a f).tports = s.tports := rfl
@[simp] theorem State.modArr_islands (s : State) (a : Nat) (f : Array8 → Array8) : (s.modArr a f).islands = s.islands := rfl
@[simp] theorem State.modArr_hbmFail (s : State) (a : Nat) (f : Array8 → Array8) : (s.modArr a f).hbmFail = s.hbmFail := rfl
@[simp] theorem State.modArr_mgpLog (s : State) (a : Nat) (f : Array8 → Array8) : (s.modArr a f).mgpLog = s.mgpLog := rfl
@[simp] theorem State.modArr_powered (s : State) (a : Nat) (f : Array8 → Array8) : (s.modArr a f).powered = s.powered := rfl
@[simp] theorem State.modArr_booted (s : State) (a : Nat) (f : Array8 → Array8) : (s.modArr a f).booted = s.booted := rfl

@[simp] theorem State.modFn_clk (s : State) (n : Nat) (f : Fn → Fn) : (s.modFn n f).clk = s.clk := rfl
@[simp] theorem State.modFn_cur (s : State) (n : Nat) (f : Fn → Fn) : (s.modFn n f).cur = s.cur := rfl
@[simp] theorem State.modFn_cores (s : State) (n : Nat) (f : Fn → Fn) : (s.modFn n f).cores = s.cores := rfl
@[simp] theorem State.modFn_dies (s : State) (n : Nat) (f : Fn → Fn) : (s.modFn n f).dies = s.dies := rfl
@[simp] theorem State.modFn_ownerPos (s : State) (n : Nat) (f : Fn → Fn) : (s.modFn n f).ownerPos = s.ownerPos := rfl
@[simp] theorem State.modFn_dpSent (s : State) (n : Nat) (f : Fn → Fn) : (s.modFn n f).dpSent = s.dpSent := rfl
@[simp] theorem State.modFn_dpDone (s : State) (n : Nat) (f : Fn → Fn) : (s.modFn n f).dpDone = s.dpDone := rfl
@[simp] theorem State.modFn_tlbs (s : State) (n : Nat) (f : Fn → Fn) : (s.modFn n f).tlbs = s.tlbs := rfl
@[simp] theorem State.modFn_walks (s : State) (n : Nat) (f : Fn → Fn) : (s.modFn n f).walks = s.walks := rfl
@[simp] theorem State.modFn_walkFaults (s : State) (n : Nat) (f : Fn → Fn) : (s.modFn n f).walkFaults = s.walkFaults := rfl
@[simp] theorem State.modFn_routers (s : State) (n : Nat) (f : Fn → Fn) : (s.modFn n f).routers = s.routers := rfl
@[simp] theorem State.modFn_arrays (s : State) (n : Nat) (f : Fn → Fn) : (s.modFn n f).arrays = s.arrays := rfl
@[simp] theorem State.modFn_layout (s : State) (n : Nat) (f : Fn → Fn) : (s.modFn n f).layout = s.layout := rfl
@[simp] theorem State.modFn_parts (s : State) (n : Nat) (f : Fn → Fn) : (s.modFn n f).parts = s.parts := rfl
@[simp] theorem State.modFn_wqs (s : State) (n : Nat) (f : Fn → Fn) : (s.modFn n f).wqs = s.wqs := rfl
@[simp] theorem State.modFn_hostMem (s : State) (n : Nat) (f : Fn → Fn) : (s.modFn n f).hostMem = s.hostMem := rfl
@[simp] theorem State.modFn_msgs (s : State) (n : Nat) (f : Fn → Fn) : (s.modFn n f).msgs = s.msgs := rfl
@[simp] theorem State.modFn_peelPosts (s : State) (n : Nat) (f : Fn → Fn) : (s.modFn n f).peelPosts = s.peelPosts := rfl
@[simp] theorem State.modFn_groups (s : State) (n : Nat) (f : Fn → Fn) : (s.modFn n f).groups = s.groups := rfl
@[simp] theorem State.modFn_tports (s : State) (n : Nat) (f : Fn → Fn) : (s.modFn n f).tports = s.tports := rfl
@[simp] theorem State.modFn_islands (s : State) (n : Nat) (f : Fn → Fn) : (s.modFn n f).islands = s.islands := rfl
@[simp] theorem State.modFn_hbmFail (s : State) (n : Nat) (f : Fn → Fn) : (s.modFn n f).hbmFail = s.hbmFail := rfl
@[simp] theorem State.modFn_mgpLog (s : State) (n : Nat) (f : Fn → Fn) : (s.modFn n f).mgpLog = s.mgpLog := rfl
@[simp] theorem State.modFn_powered (s : State) (n : Nat) (f : Fn → Fn) : (s.modFn n f).powered = s.powered := rfl
@[simp] theorem State.modFn_booted (s : State) (n : Nat) (f : Fn → Fn) : (s.modFn n f).booted = s.booted := rfl

@[simp] theorem State.modPart_clk (s : State) (n : Nat) (f : Part → Part) : (s.modPart n f).clk = s.clk := rfl
@[simp] theorem State.modPart_cur (s : State) (n : Nat) (f : Part → Part) : (s.modPart n f).cur = s.cur := rfl
@[simp] theorem State.modPart_cores (s : State) (n : Nat) (f : Part → Part) : (s.modPart n f).cores = s.cores := rfl
@[simp] theorem State.modPart_dies (s : State) (n : Nat) (f : Part → Part) : (s.modPart n f).dies = s.dies := rfl
@[simp] theorem State.modPart_ownerPos (s : State) (n : Nat) (f : Part → Part) : (s.modPart n f).ownerPos = s.ownerPos := rfl
@[simp] theorem State.modPart_dpSent (s : State) (n : Nat) (f : Part → Part) : (s.modPart n f).dpSent = s.dpSent := rfl
@[simp] theorem State.modPart_dpDone (s : State) (n : Nat) (f : Part → Part) : (s.modPart n f).dpDone = s.dpDone := rfl
@[simp] theorem State.modPart_tlbs (s : State) (n : Nat) (f : Part → Part) : (s.modPart n f).tlbs = s.tlbs := rfl
@[simp] theorem State.modPart_walks (s : State) (n : Nat) (f : Part → Part) : (s.modPart n f).walks = s.walks := rfl
@[simp] theorem State.modPart_walkFaults (s : State) (n : Nat) (f : Part → Part) : (s.modPart n f).walkFaults = s.walkFaults := rfl
@[simp] theorem State.modPart_routers (s : State) (n : Nat) (f : Part → Part) : (s.modPart n f).routers = s.routers := rfl
@[simp] theorem State.modPart_arrays (s : State) (n : Nat) (f : Part → Part) : (s.modPart n f).arrays = s.arrays := rfl
@[simp] theorem State.modPart_layout (s : State) (n : Nat) (f : Part → Part) : (s.modPart n f).layout = s.layout := rfl
@[simp] theorem State.modPart_fns (s : State) (n : Nat) (f : Part → Part) : (s.modPart n f).fns = s.fns := rfl
@[simp] theorem State.modPart_wqs (s : State) (n : Nat) (f : Part → Part) : (s.modPart n f).wqs = s.wqs := rfl
@[simp] theorem State.modPart_hostMem (s : State) (n : Nat) (f : Part → Part) : (s.modPart n f).hostMem = s.hostMem := rfl
@[simp] theorem State.modPart_msgs (s : State) (n : Nat) (f : Part → Part) : (s.modPart n f).msgs = s.msgs := rfl
@[simp] theorem State.modPart_peelPosts (s : State) (n : Nat) (f : Part → Part) : (s.modPart n f).peelPosts = s.peelPosts := rfl
@[simp] theorem State.modPart_groups (s : State) (n : Nat) (f : Part → Part) : (s.modPart n f).groups = s.groups := rfl
@[simp] theorem State.modPart_tports (s : State) (n : Nat) (f : Part → Part) : (s.modPart n f).tports = s.tports := rfl
@[simp] theorem State.modPart_islands (s : State) (n : Nat) (f : Part → Part) : (s.modPart n f).islands = s.islands := rfl
@[simp] theorem State.modPart_hbmFail (s : State) (n : Nat) (f : Part → Part) : (s.modPart n f).hbmFail = s.hbmFail := rfl
@[simp] theorem State.modPart_mgpLog (s : State) (n : Nat) (f : Part → Part) : (s.modPart n f).mgpLog = s.mgpLog := rfl
@[simp] theorem State.modPart_powered (s : State) (n : Nat) (f : Part → Part) : (s.modPart n f).powered = s.powered := rfl
@[simp] theorem State.modPart_booted (s : State) (n : Nat) (f : Part → Part) : (s.modPart n f).booted = s.booted := rfl

@[simp] theorem State.modWq_clk (s : State) (q : Nat) (f : WQ → WQ) : (s.modWq q f).clk = s.clk := rfl
@[simp] theorem State.modWq_cur (s : State) (q : Nat) (f : WQ → WQ) : (s.modWq q f).cur = s.cur := rfl
@[simp] theorem State.modWq_cores (s : State) (q : Nat) (f : WQ → WQ) : (s.modWq q f).cores = s.cores := rfl
@[simp] theorem State.modWq_dies (s : State) (q : Nat) (f : WQ → WQ) : (s.modWq q f).dies = s.dies := rfl
@[simp] theorem State.modWq_ownerPos (s : State) (q : Nat) (f : WQ → WQ) : (s.modWq q f).ownerPos = s.ownerPos := rfl
@[simp] theorem State.modWq_dpSent (s : State) (q : Nat) (f : WQ → WQ) : (s.modWq q f).dpSent = s.dpSent := rfl
@[simp] theorem State.modWq_dpDone (s : State) (q : Nat) (f : WQ → WQ) : (s.modWq q f).dpDone = s.dpDone := rfl
@[simp] theorem State.modWq_tlbs (s : State) (q : Nat) (f : WQ → WQ) : (s.modWq q f).tlbs = s.tlbs := rfl
@[simp] theorem State.modWq_walks (s : State) (q : Nat) (f : WQ → WQ) : (s.modWq q f).walks = s.walks := rfl
@[simp] theorem State.modWq_walkFaults (s : State) (q : Nat) (f : WQ → WQ) : (s.modWq q f).walkFaults = s.walkFaults := rfl
@[simp] theorem State.modWq_routers (s : State) (q : Nat) (f : WQ → WQ) : (s.modWq q f).routers = s.routers := rfl
@[simp] theorem State.modWq_arrays (s : State) (q : Nat) (f : WQ → WQ) : (s.modWq q f).arrays = s.arrays := rfl
@[simp] theorem State.modWq_layout (s : State) (q : Nat) (f : WQ → WQ) : (s.modWq q f).layout = s.layout := rfl
@[simp] theorem State.modWq_parts (s : State) (q : Nat) (f : WQ → WQ) : (s.modWq q f).parts = s.parts := rfl
@[simp] theorem State.modWq_fns (s : State) (q : Nat) (f : WQ → WQ) : (s.modWq q f).fns = s.fns := rfl
@[simp] theorem State.modWq_hostMem (s : State) (q : Nat) (f : WQ → WQ) : (s.modWq q f).hostMem = s.hostMem := rfl
@[simp] theorem State.modWq_msgs (s : State) (q : Nat) (f : WQ → WQ) : (s.modWq q f).msgs = s.msgs := rfl
@[simp] theorem State.modWq_peelPosts (s : State) (q : Nat) (f : WQ → WQ) : (s.modWq q f).peelPosts = s.peelPosts := rfl
@[simp] theorem State.modWq_groups (s : State) (q : Nat) (f : WQ → WQ) : (s.modWq q f).groups = s.groups := rfl
@[simp] theorem State.modWq_tports (s : State) (q : Nat) (f : WQ → WQ) : (s.modWq q f).tports = s.tports := rfl
@[simp] theorem State.modWq_islands (s : State) (q : Nat) (f : WQ → WQ) : (s.modWq q f).islands = s.islands := rfl
@[simp] theorem State.modWq_hbmFail (s : State) (q : Nat) (f : WQ → WQ) : (s.modWq q f).hbmFail = s.hbmFail := rfl
@[simp] theorem State.modWq_mgpLog (s : State) (q : Nat) (f : WQ → WQ) : (s.modWq q f).mgpLog = s.mgpLog := rfl
@[simp] theorem State.modWq_powered (s : State) (q : Nat) (f : WQ → WQ) : (s.modWq q f).powered = s.powered := rfl
@[simp] theorem State.modWq_booted (s : State) (q : Nat) (f : WQ → WQ) : (s.modWq q f).booted = s.booted := rfl

@[simp] theorem State.modTport_clk (s : State) (p : Nat) (f : TPort → TPort) : (s.modTport p f).clk = s.clk := rfl
@[simp] theorem State.modTport_cur (s : State) (p : Nat) (f : TPort → TPort) : (s.modTport p f).cur = s.cur := rfl
@[simp] theorem State.modTport_cores (s : State) (p : Nat) (f : TPort → TPort) : (s.modTport p f).cores = s.cores := rfl
@[simp] theorem State.modTport_dies (s : State) (p : Nat) (f : TPort → TPort) : (s.modTport p f).dies = s.dies := rfl
@[simp] theorem State.modTport_ownerPos (s : State) (p : Nat) (f : TPort → TPort) : (s.modTport p f).ownerPos = s.ownerPos := rfl
@[simp] theorem State.modTport_dpSent (s : State) (p : Nat) (f : TPort → TPort) : (s.modTport p f).dpSent = s.dpSent := rfl
@[simp] theorem State.modTport_dpDone (s : State) (p : Nat) (f : TPort → TPort) : (s.modTport p f).dpDone = s.dpDone := rfl
@[simp] theorem State.modTport_tlbs (s : State) (p : Nat) (f : TPort → TPort) : (s.modTport p f).tlbs = s.tlbs := rfl
@[simp] theorem State.modTport_walks (s : State) (p : Nat) (f : TPort → TPort) : (s.modTport p f).walks = s.walks := rfl
@[simp] theorem State.modTport_walkFaults (s : State) (p : Nat) (f : TPort → TPort) : (s.modTport p f).walkFaults = s.walkFaults := rfl
@[simp] theorem State.modTport_routers (s : State) (p : Nat) (f : TPort → TPort) : (s.modTport p f).routers = s.routers := rfl
@[simp] theorem State.modTport_arrays (s : State) (p : Nat) (f : TPort → TPort) : (s.modTport p f).arrays = s.arrays := rfl
@[simp] theorem State.modTport_layout (s : State) (p : Nat) (f : TPort → TPort) : (s.modTport p f).layout = s.layout := rfl
@[simp] theorem State.modTport_parts (s : State) (p : Nat) (f : TPort → TPort) : (s.modTport p f).parts = s.parts := rfl
@[simp] theorem State.modTport_fns (s : State) (p : Nat) (f : TPort → TPort) : (s.modTport p f).fns = s.fns := rfl
@[simp] theorem State.modTport_wqs (s : State) (p : Nat) (f : TPort → TPort) : (s.modTport p f).wqs = s.wqs := rfl
@[simp] theorem State.modTport_hostMem (s : State) (p : Nat) (f : TPort → TPort) : (s.modTport p f).hostMem = s.hostMem := rfl
@[simp] theorem State.modTport_msgs (s : State) (p : Nat) (f : TPort → TPort) : (s.modTport p f).msgs = s.msgs := rfl
@[simp] theorem State.modTport_peelPosts (s : State) (p : Nat) (f : TPort → TPort) : (s.modTport p f).peelPosts = s.peelPosts := rfl
@[simp] theorem State.modTport_groups (s : State) (p : Nat) (f : TPort → TPort) : (s.modTport p f).groups = s.groups := rfl
@[simp] theorem State.modTport_islands (s : State) (p : Nat) (f : TPort → TPort) : (s.modTport p f).islands = s.islands := rfl
@[simp] theorem State.modTport_hbmFail (s : State) (p : Nat) (f : TPort → TPort) : (s.modTport p f).hbmFail = s.hbmFail := rfl
@[simp] theorem State.modTport_mgpLog (s : State) (p : Nat) (f : TPort → TPort) : (s.modTport p f).mgpLog = s.mgpLog := rfl
@[simp] theorem State.modTport_powered (s : State) (p : Nat) (f : TPort → TPort) : (s.modTport p f).powered = s.powered := rfl
@[simp] theorem State.modTport_booted (s : State) (p : Nat) (f : TPort → TPort) : (s.modTport p f).booted = s.booted := rfl

@[simp] theorem State.modIsland_clk (s : State) (i : Nat) (f : Island → Island) : (s.modIsland i f).clk = s.clk := rfl
@[simp] theorem State.modIsland_cur (s : State) (i : Nat) (f : Island → Island) : (s.modIsland i f).cur = s.cur := rfl
@[simp] theorem State.modIsland_cores (s : State) (i : Nat) (f : Island → Island) : (s.modIsland i f).cores = s.cores := rfl
@[simp] theorem State.modIsland_dies (s : State) (i : Nat) (f : Island → Island) : (s.modIsland i f).dies = s.dies := rfl
@[simp] theorem State.modIsland_ownerPos (s : State) (i : Nat) (f : Island → Island) : (s.modIsland i f).ownerPos = s.ownerPos := rfl
@[simp] theorem State.modIsland_dpSent (s : State) (i : Nat) (f : Island → Island) : (s.modIsland i f).dpSent = s.dpSent := rfl
@[simp] theorem State.modIsland_dpDone (s : State) (i : Nat) (f : Island → Island) : (s.modIsland i f).dpDone = s.dpDone := rfl
@[simp] theorem State.modIsland_tlbs (s : State) (i : Nat) (f : Island → Island) : (s.modIsland i f).tlbs = s.tlbs := rfl
@[simp] theorem State.modIsland_walks (s : State) (i : Nat) (f : Island → Island) : (s.modIsland i f).walks = s.walks := rfl
@[simp] theorem State.modIsland_walkFaults (s : State) (i : Nat) (f : Island → Island) : (s.modIsland i f).walkFaults = s.walkFaults := rfl
@[simp] theorem State.modIsland_routers (s : State) (i : Nat) (f : Island → Island) : (s.modIsland i f).routers = s.routers := rfl
@[simp] theorem State.modIsland_arrays (s : State) (i : Nat) (f : Island → Island) : (s.modIsland i f).arrays = s.arrays := rfl
@[simp] theorem State.modIsland_layout (s : State) (i : Nat) (f : Island → Island) : (s.modIsland i f).layout = s.layout := rfl
@[simp] theorem State.modIsland_parts (s : State) (i : Nat) (f : Island → Island) : (s.modIsland i f).parts = s.parts := rfl
@[simp] theorem State.modIsland_fns (s : State) (i : Nat) (f : Island → Island) : (s.modIsland i f).fns = s.fns := rfl
@[simp] theorem State.modIsland_wqs (s : State) (i : Nat) (f : Island → Island) : (s.modIsland i f).wqs = s.wqs := rfl
@[simp] theorem State.modIsland_hostMem (s : State) (i : Nat) (f : Island → Island) : (s.modIsland i f).hostMem = s.hostMem := rfl
@[simp] theorem State.modIsland_msgs (s : State) (i : Nat) (f : Island → Island) : (s.modIsland i f).msgs = s.msgs := rfl
@[simp] theorem State.modIsland_peelPosts (s : State) (i : Nat) (f : Island → Island) : (s.modIsland i f).peelPosts = s.peelPosts := rfl
@[simp] theorem State.modIsland_groups (s : State) (i : Nat) (f : Island → Island) : (s.modIsland i f).groups = s.groups := rfl
@[simp] theorem State.modIsland_tports (s : State) (i : Nat) (f : Island → Island) : (s.modIsland i f).tports = s.tports := rfl
@[simp] theorem State.modIsland_hbmFail (s : State) (i : Nat) (f : Island → Island) : (s.modIsland i f).hbmFail = s.hbmFail := rfl
@[simp] theorem State.modIsland_mgpLog (s : State) (i : Nat) (f : Island → Island) : (s.modIsland i f).mgpLog = s.mgpLog := rfl
@[simp] theorem State.modIsland_powered (s : State) (i : Nat) (f : Island → Island) : (s.modIsland i f).powered = s.powered := rfl
@[simp] theorem State.modIsland_booted (s : State) (i : Nat) (f : Island → Island) : (s.modIsland i f).booted = s.booted := rfl

@[simp] theorem State.push_cur (s : State) (e : Ev) : (s.push e).cur = s.cur := rfl
@[simp] theorem State.push_cores (s : State) (e : Ev) : (s.push e).cores = s.cores := rfl
@[simp] theorem State.push_dies (s : State) (e : Ev) : (s.push e).dies = s.dies := rfl
@[simp] theorem State.push_ownerPos (s : State) (e : Ev) : (s.push e).ownerPos = s.ownerPos := rfl
@[simp] theorem State.push_dpSent (s : State) (e : Ev) : (s.push e).dpSent = s.dpSent := rfl
@[simp] theorem State.push_dpDone (s : State) (e : Ev) : (s.push e).dpDone = s.dpDone := rfl
@[simp] theorem State.push_tlbs (s : State) (e : Ev) : (s.push e).tlbs = s.tlbs := rfl
@[simp] theorem State.push_walks (s : State) (e : Ev) : (s.push e).walks = s.walks := rfl
@[simp] theorem State.push_walkFaults (s : State) (e : Ev) : (s.push e).walkFaults = s.walkFaults := rfl
@[simp] theorem State.push_routers (s : State) (e : Ev) : (s.push e).routers = s.routers := rfl
@[simp] theorem State.push_arrays (s : State) (e : Ev) : (s.push e).arrays = s.arrays := rfl
@[simp] theorem State.push_layout (s : State) (e : Ev) : (s.push e).layout = s.layout := rfl
@[simp] theorem State.push_parts (s : State) (e : Ev) : (s.push e).parts = s.parts := rfl
@[simp] theorem State.push_fns (s : State) (e : Ev) : (s.push e).fns = s.fns := rfl
@[simp] theorem State.push_wqs (s : State) (e : Ev) : (s.push e).wqs = s.wqs := rfl
@[simp] theorem State.push_hostMem (s : State) (e : Ev) : (s.push e).hostMem = s.hostMem := rfl
@[simp] theorem State.push_msgs (s : State) (e : Ev) : (s.push e).msgs = s.msgs := rfl
@[simp] theorem State.push_peelPosts (s : State) (e : Ev) : (s.push e).peelPosts = s.peelPosts := rfl
@[simp] theorem State.push_groups (s : State) (e : Ev) : (s.push e).groups = s.groups := rfl
@[simp] theorem State.push_tports (s : State) (e : Ev) : (s.push e).tports = s.tports := rfl
@[simp] theorem State.push_islands (s : State) (e : Ev) : (s.push e).islands = s.islands := rfl
@[simp] theorem State.push_hbmFail (s : State) (e : Ev) : (s.push e).hbmFail = s.hbmFail := rfl
@[simp] theorem State.push_mgpLog (s : State) (e : Ev) : (s.push e).mgpLog = s.mgpLog := rfl
@[simp] theorem State.push_powered (s : State) (e : Ev) : (s.push e).powered = s.powered := rfl
@[simp] theorem State.push_booted (s : State) (e : Ev) : (s.push e).booted = s.booted := rfl

@[simp] theorem State.pushAll_cur (s : State) (l : List Ev) : (s.pushAll l).cur = s.cur := rfl
@[simp] theorem State.pushAll_cores (s : State) (l : List Ev) : (s.pushAll l).cores = s.cores := rfl
@[simp] theorem State.pushAll_dies (s : State) (l : List Ev) : (s.pushAll l).dies = s.dies := rfl
@[simp] theorem State.pushAll_ownerPos (s : State) (l : List Ev) : (s.pushAll l).ownerPos = s.ownerPos := rfl
@[simp] theorem State.pushAll_dpSent (s : State) (l : List Ev) : (s.pushAll l).dpSent = s.dpSent := rfl
@[simp] theorem State.pushAll_dpDone (s : State) (l : List Ev) : (s.pushAll l).dpDone = s.dpDone := rfl
@[simp] theorem State.pushAll_tlbs (s : State) (l : List Ev) : (s.pushAll l).tlbs = s.tlbs := rfl
@[simp] theorem State.pushAll_walks (s : State) (l : List Ev) : (s.pushAll l).walks = s.walks := rfl
@[simp] theorem State.pushAll_walkFaults (s : State) (l : List Ev) : (s.pushAll l).walkFaults = s.walkFaults := rfl
@[simp] theorem State.pushAll_routers (s : State) (l : List Ev) : (s.pushAll l).routers = s.routers := rfl
@[simp] theorem State.pushAll_arrays (s : State) (l : List Ev) : (s.pushAll l).arrays = s.arrays := rfl
@[simp] theorem State.pushAll_layout (s : State) (l : List Ev) : (s.pushAll l).layout = s.layout := rfl
@[simp] theorem State.pushAll_parts (s : State) (l : List Ev) : (s.pushAll l).parts = s.parts := rfl
@[simp] theorem State.pushAll_fns (s : State) (l : List Ev) : (s.pushAll l).fns = s.fns := rfl
@[simp] theorem State.pushAll_wqs (s : State) (l : List Ev) : (s.pushAll l).wqs = s.wqs := rfl
@[simp] theorem State.pushAll_hostMem (s : State) (l : List Ev) : (s.pushAll l).hostMem = s.hostMem := rfl
@[simp] theorem State.pushAll_msgs (s : State) (l : List Ev) : (s.pushAll l).msgs = s.msgs := rfl
@[simp] theorem State.pushAll_peelPosts (s : State) (l : List Ev) : (s.pushAll l).peelPosts = s.peelPosts := rfl
@[simp] theorem State.pushAll_groups (s : State) (l : List Ev) : (s.pushAll l).groups = s.groups := rfl
@[simp] theorem State.pushAll_tports (s : State) (l : List Ev) : (s.pushAll l).tports = s.tports := rfl
@[simp] theorem State.pushAll_islands (s : State) (l : List Ev) : (s.pushAll l).islands = s.islands := rfl
@[simp] theorem State.pushAll_hbmFail (s : State) (l : List Ev) : (s.pushAll l).hbmFail = s.hbmFail := rfl
@[simp] theorem State.pushAll_mgpLog (s : State) (l : List Ev) : (s.pushAll l).mgpLog = s.mgpLog := rfl
@[simp] theorem State.pushAll_powered (s : State) (l : List Ev) : (s.pushAll l).powered = s.powered := rfl
@[simp] theorem State.pushAll_booted (s : State) (l : List Ev) : (s.pushAll l).booted = s.booted := rfl

@[simp] theorem State.pushUrgent_cur (s : State) (e : Ev) : (s.pushUrgent e).cur = s.cur := rfl
@[simp] theorem State.pushUrgent_cores (s : State) (e : Ev) : (s.pushUrgent e).cores = s.cores := rfl
@[simp] theorem State.pushUrgent_dies (s : State) (e : Ev) : (s.pushUrgent e).dies = s.dies := rfl
@[simp] theorem State.pushUrgent_ownerPos (s : State) (e : Ev) : (s.pushUrgent e).ownerPos = s.ownerPos := rfl
@[simp] theorem State.pushUrgent_dpSent (s : State) (e : Ev) : (s.pushUrgent e).dpSent = s.dpSent := rfl
@[simp] theorem State.pushUrgent_dpDone (s : State) (e : Ev) : (s.pushUrgent e).dpDone = s.dpDone := rfl
@[simp] theorem State.pushUrgent_tlbs (s : State) (e : Ev) : (s.pushUrgent e).tlbs = s.tlbs := rfl
@[simp] theorem State.pushUrgent_walks (s : State) (e : Ev) : (s.pushUrgent e).walks = s.walks := rfl
@[simp] theorem State.pushUrgent_walkFaults (s : State) (e : Ev) : (s.pushUrgent e).walkFaults = s.walkFaults := rfl
@[simp] theorem State.pushUrgent_routers (s : State) (e : Ev) : (s.pushUrgent e).routers = s.routers := rfl
@[simp] theorem State.pushUrgent_arrays (s : State) (e : Ev) : (s.pushUrgent e).arrays = s.arrays := rfl
@[simp] theorem State.pushUrgent_layout (s : State) (e : Ev) : (s.pushUrgent e).layout = s.layout := rfl
@[simp] theorem State.pushUrgent_parts (s : State) (e : Ev) : (s.pushUrgent e).parts = s.parts := rfl
@[simp] theorem State.pushUrgent_fns (s : State) (e : Ev) : (s.pushUrgent e).fns = s.fns := rfl
@[simp] theorem State.pushUrgent_wqs (s : State) (e : Ev) : (s.pushUrgent e).wqs = s.wqs := rfl
@[simp] theorem State.pushUrgent_hostMem (s : State) (e : Ev) : (s.pushUrgent e).hostMem = s.hostMem := rfl
@[simp] theorem State.pushUrgent_msgs (s : State) (e : Ev) : (s.pushUrgent e).msgs = s.msgs := rfl
@[simp] theorem State.pushUrgent_peelPosts (s : State) (e : Ev) : (s.pushUrgent e).peelPosts = s.peelPosts := rfl
@[simp] theorem State.pushUrgent_groups (s : State) (e : Ev) : (s.pushUrgent e).groups = s.groups := rfl
@[simp] theorem State.pushUrgent_tports (s : State) (e : Ev) : (s.pushUrgent e).tports = s.tports := rfl
@[simp] theorem State.pushUrgent_islands (s : State) (e : Ev) : (s.pushUrgent e).islands = s.islands := rfl
@[simp] theorem State.pushUrgent_hbmFail (s : State) (e : Ev) : (s.pushUrgent e).hbmFail = s.hbmFail := rfl
@[simp] theorem State.pushUrgent_mgpLog (s : State) (e : Ev) : (s.pushUrgent e).mgpLog = s.mgpLog := rfl
@[simp] theorem State.pushUrgent_powered (s : State) (e : Ev) : (s.pushUrgent e).powered = s.powered := rfl
@[simp] theorem State.pushUrgent_booted (s : State) (e : Ev) : (s.pushUrgent e).booted = s.booted := rfl

@[simp] theorem State.push_clk_cyc (s : State) (e : Ev) : (s.push e).clk.cyc = s.clk.cyc := rfl
@[simp] theorem State.push_clk_urgent (s : State) (e : Ev) : (s.push e).clk.urgent = s.clk.urgent := rfl
@[simp] theorem State.push_clk_tape (s : State) (e : Ev) : (s.push e).clk.tape = s.clk.tape := rfl
@[simp] theorem State.push_clk_turn (s : State) (e : Ev) : (s.push e).clk.turn = s.clk.turn := rfl
@[simp] theorem State.push_clk_flip (s : State) (e : Ev) : (s.push e).clk.flip = s.clk.flip := rfl
@[simp] theorem State.push_clk_fresh (s : State) (e : Ev) : (s.push e).clk.fresh = s.clk.fresh := rfl
@[simp] theorem State.push_clk_ids (s : State) (e : Ev) : (s.push e).clk.ids = s.clk.ids := rfl
@[simp] theorem State.push_clk_refresh (s : State) (e : Ev) : (s.push e).clk.refresh = s.clk.refresh := rfl
@[simp] theorem State.push_clk_kwin (s : State) (e : Ev) : (s.push e).clk.kwin = s.clk.kwin := rfl
@[simp] theorem State.push_clk_fires (s : State) (e : Ev) : (s.push e).clk.fires = s.clk.fires := rfl
@[simp] theorem State.pushAll_clk_cyc (s : State) (l : List Ev) : (s.pushAll l).clk.cyc = s.clk.cyc := rfl
@[simp] theorem State.pushAll_clk_urgent (s : State) (l : List Ev) : (s.pushAll l).clk.urgent = s.clk.urgent := rfl
@[simp] theorem State.pushAll_clk_tape (s : State) (l : List Ev) : (s.pushAll l).clk.tape = s.clk.tape := rfl
@[simp] theorem State.pushAll_clk_turn (s : State) (l : List Ev) : (s.pushAll l).clk.turn = s.clk.turn := rfl
@[simp] theorem State.pushAll_clk_flip (s : State) (l : List Ev) : (s.pushAll l).clk.flip = s.clk.flip := rfl
@[simp] theorem State.pushAll_clk_fresh (s : State) (l : List Ev) : (s.pushAll l).clk.fresh = s.clk.fresh := rfl
@[simp] theorem State.pushAll_clk_ids (s : State) (l : List Ev) : (s.pushAll l).clk.ids = s.clk.ids := rfl
@[simp] theorem State.pushAll_clk_refresh (s : State) (l : List Ev) : (s.pushAll l).clk.refresh = s.clk.refresh := rfl
@[simp] theorem State.pushAll_clk_kwin (s : State) (l : List Ev) : (s.pushAll l).clk.kwin = s.clk.kwin := rfl
@[simp] theorem State.pushAll_clk_fires (s : State) (l : List Ev) : (s.pushAll l).clk.fires = s.clk.fires := rfl
@[simp] theorem State.push_clk_pending (s : State) (e : Ev) : (s.push e).clk.pending = s.clk.pending ++ [e] := rfl
@[simp] theorem State.pushAll_clk_pending (s : State) (l : List Ev) : (s.pushAll l).clk.pending = s.clk.pending ++ l := rfl
@[simp] theorem State.pushAll_nil (s : State) : s.pushAll [] = s := by simp [State.pushAll]

/-! ## Reading back -/

@[simp] theorem State.core_setCore_same (s : State) (c : Nat) (k : Core) : (s.setCore c k).core c = k := by simp [State.core, State.setCore]
theorem State.core_setCore_ne (s : State) (c j : Nat) (k : Core) (h : j ≠ c) : (s.setCore c k).core j = s.core j := by
  simp [State.core, State.setCore, Tab.get_set_ne _ _ _ _ _ h]
@[simp] theorem State.core_modCore_same (s : State) (c : Nat) (f : Core → Core) : (s.modCore c f).core c = f (s.core c) := by simp [State.modCore]
theorem State.core_modCore_ne (s : State) (c j : Nat) (f : Core → Core) (h : j ≠ c) : (s.modCore c f).core j = s.core j := by
  simp [State.modCore, State.core_setCore_ne _ _ _ _ h]
@[simp] theorem State.core_push (s : State) (e : Ev) (c : Nat) : (s.push e).core c = s.core c := rfl
@[simp] theorem State.core_pushAll (s : State) (l : List Ev) (c : Nat) : (s.pushAll l).core c = s.core c := rfl
@[simp] theorem State.die_setDie_same (s : State) (d : Nat) (k : Die) : (s.setDie d k).die d = k := by simp [State.die, State.setDie]
theorem State.die_setDie_ne (s : State) (d j : Nat) (k : Die) (h : j ≠ d) : (s.setDie d k).die j = s.die j := by
  simp [State.die, State.setDie, Tab.get_set_ne _ _ _ _ _ h]
@[simp] theorem State.die_modDie_same (s : State) (d : Nat) (f : Die → Die) : (s.modDie d f).die d = f (s.die d) := by simp [State.modDie]
@[simp] theorem State.die_setCore (s : State) (c : Nat) (k : Core) (d : Nat) : (s.setCore c k).die d = s.die d := rfl
@[simp] theorem State.die_push (s : State) (e : Ev) (d : Nat) : (s.push e).die d = s.die d := rfl
@[simp] theorem State.die_pushAll (s : State) (l : List Ev) (d : Nat) : (s.pushAll l).die d = s.die d := rfl
@[simp] theorem State.core_setDie (s : State) (d : Nat) (k : Die) (c : Nat) : (s.setDie d k).core c = s.core c := rfl
@[simp] theorem State.core_modDie (s : State) (d : Nat) (f : Die → Die) (c : Nat) : (s.modDie d f).core c = s.core c := rfl
@[simp] theorem State.fn_modFn_same (s : State) (n : Nat) (f : Fn → Fn) : (s.modFn n f).fn n = f (s.fn n) := by simp [State.fn, State.modFn]
@[simp] theorem State.part_modPart_same (s : State) (n : Nat) (f : Part → Part) : (s.modPart n f).part n = f (s.part n) := by simp [State.part, State.modPart]
@[simp] theorem State.wq_modWq_same (s : State) (q : Nat) (f : WQ → WQ) : (s.modWq q f).wq q = f (s.wq q) := by simp [State.wq, State.modWq]
@[simp] theorem State.island_modIsland_same (s : State) (i : Nat) (f : Island → Island) : (s.modIsland i f).island i = f (s.island i) := by
  simp [State.island, State.modIsland]
@[simp] theorem State.tport_modTport_same (s : State) (p : Nat) (f : TPort → TPort) : (s.modTport p f).tport p = f (s.tport p) := by
  simp [State.tport, State.modTport]
@[simp] theorem State.arr_modArr_same (s : State) (a : Nat) (f : Array8 → Array8) : (s.modArr a f).arr a = f (s.arr a) := by simp [State.arr, State.modArr]

/-! ## A core -/

@[simp] theorem Core.land_regs (k : Core) (tk : Nat) (v : W64) : (k.land tk v).regs = k.regs := rfl
@[simp] theorem Core.land_preds (k : Core) (tk : Nat) (v : W64) : (k.land tk v).preds = k.preds := rfl
@[simp] theorem Core.land_queues (k : Core) (tk : Nat) (v : W64) : (k.land tk v).queues = k.queues := rfl
@[simp] theorem Core.land_lays (k : Core) (tk : Nat) (v : W64) : (k.land tk v).lays = k.lays := rfl
@[simp] theorem Core.land_rts (k : Core) (tk : Nat) (v : W64) : (k.land tk v).rts = k.rts := rfl
@[simp] theorem Core.land_ctrs (k : Core) (tk : Nat) (v : W64) : (k.land tk v).ctrs = k.ctrs := rfl
@[simp] theorem Core.land_spad (k : Core) (tk : Nat) (v : W64) : (k.land tk v).spad = k.spad := rfl
@[simp] theorem Core.land_empty (k : Core) (tk : Nat) (v : W64) : (k.land tk v).empty = k.empty := rfl
@[simp] theorem Core.land_acc (k : Core) (tk : Nat) (v : W64) : (k.land tk v).acc = k.acc := rfl
@[simp] theorem Core.land_shadow (k : Core) (tk : Nat) (v : W64) : (k.land tk v).shadow = k.shadow := rfl
@[simp] theorem Core.land_dirty (k : Core) (tk : Nat) (v : W64) : (k.land tk v).dirty = k.dirty := rfl
@[simp] theorem Core.land_banks (k : Core) (tk : Nat) (v : W64) : (k.land tk v).banks = k.banks := rfl
@[simp] theorem Core.land_jobs (k : Core) (tk : Nat) (v : W64) : (k.land tk v).jobs = k.jobs := rfl
@[simp] theorem Core.land_bankJobs (k : Core) (tk : Nat) (v : W64) : (k.land tk v).bankJobs = k.bankJobs := rfl
@[simp] theorem Core.land_conv (k : Core) (tk : Nat) (v : W64) : (k.land tk v).conv = k.conv := rfl
@[simp] theorem Core.land_stream (k : Core) (tk : Nat) (v : W64) : (k.land tk v).stream = k.stream := rfl
@[simp] theorem Core.land_loop (k : Core) (tk : Nat) (v : W64) : (k.land tk v).loop = k.loop := rfl
@[simp] theorem Core.land_pc (k : Core) (tk : Nat) (v : W64) : (k.land tk v).pc = k.pc := rfl
@[simp] theorem Core.land_handler (k : Core) (tk : Nat) (v : W64) : (k.land tk v).handler = k.handler := rfl
@[simp] theorem Core.land_target (k : Core) (tk : Nat) (v : W64) : (k.land tk v).target = k.target := rfl
@[simp] theorem Core.land_sys (k : Core) (tk : Nat) (v : W64) : (k.land tk v).sys = k.sys := rfl
@[simp] theorem Core.land_ctl (k : Core) (tk : Nat) (v : W64) : (k.land tk v).ctl = k.ctl := rfl
@[simp] theorem Core.land_opbBase (k : Core) (tk : Nat) (v : W64) : (k.land tk v).opbBase = k.opbBase := rfl
@[simp] theorem Core.land_opbHit (k : Core) (tk : Nat) (v : W64) : (k.land tk v).opbHit = k.opbHit := rfl
@[simp] theorem Core.land_slots (k : Core) (tk : Nat) (v : W64) : (k.land tk v).slots = k.slots := rfl
@[simp] theorem Core.land_seqNo (k : Core) (tk : Nat) (v : W64) : (k.land tk v).seqNo = k.seqNo := rfl
@[simp] theorem Core.land_bundleNo (k : Core) (tk : Nat) (v : W64) : (k.land tk v).bundleNo = k.bundleNo := rfl
@[simp] theorem Core.land_rot (k : Core) (tk : Nat) (v : W64) : (k.land tk v).rot = k.rot := rfl
@[simp] theorem Core.land_ival (k : Core) (tk : Nat) (v : W64) : (k.land tk v).ival = k.ival := rfl
@[simp] theorem Core.land_ckSeq (k : Core) (tk : Nat) (v : W64) : (k.land tk v).ckSeq = k.ckSeq := rfl
@[simp] theorem Core.land_dup (k : Core) (tk : Nat) (v : W64) : (k.land tk v).dup = k.dup := rfl
@[simp] theorem Core.land_items (k : Core) (tk : Nat) (v : W64) : (k.land tk v).items = k.items := rfl
@[simp] theorem Core.land_sent (k : Core) (tk : Nat) (v : W64) : (k.land tk v).sent = k.sent := rfl
@[simp] theorem Core.land_relWait (k : Core) (tk : Nat) (v : W64) : (k.land tk v).relWait = k.relWait := rfl
@[simp] theorem Core.land_relItem (k : Core) (tk : Nat) (v : W64) : (k.land tk v).relItem = k.relItem := rfl
@[simp] theorem Core.land_expMax (k : Core) (tk : Nat) (v : W64) : (k.land tk v).expMax = k.expMax := rfl
@[simp] theorem Core.land_rcv (k : Core) (tk : Nat) (v : W64) : (k.land tk v).rcv = k.rcv := rfl
@[simp] theorem Core.land_subm (k : Core) (tk : Nat) (v : W64) : (k.land tk v).subm = k.subm := rfl
@[simp] theorem Core.land_cstall (k : Core) (tk : Nat) (v : W64) : (k.land tk v).cstall = k.cstall := rfl
@[simp] theorem Core.land_ports (k : Core) (tk : Nat) (v : W64) : (k.land tk v).ports = k.ports := rfl
@[simp] theorem Core.land_outs (k : Core) (tk : Nat) (v : W64) : (k.land tk v).outs = k.outs := rfl
@[simp] theorem Core.land_l1 (k : Core) (tk : Nat) (v : W64) : (k.land tk v).l1 = k.l1 := rfl
@[simp] theorem Core.land_splices (k : Core) (tk : Nat) (v : W64) : (k.land tk v).splices = k.splices := rfl
@[simp] theorem Core.land_chans (k : Core) (tk : Nat) (v : W64) : (k.land tk v).chans = k.chans := rfl
@[simp] theorem Core.land_async (k : Core) (tk : Nat) (v : W64) : (k.land tk v).async = k.async := rfl
@[simp] theorem Core.land_trap (k : Core) (tk : Nat) (v : W64) : (k.land tk v).trap = k.trap := rfl
@[simp] theorem Core.land_rbFaults (k : Core) (tk : Nat) (v : W64) : (k.land tk v).rbFaults = k.rbFaults := rfl
@[simp] theorem Core.land_rbMach (k : Core) (tk : Nat) (v : W64) : (k.land tk v).rbMach = k.rbMach := rfl
@[simp] theorem Core.land_rbBase (k : Core) (tk : Nat) (v : W64) : (k.land tk v).rbBase = k.rbBase := rfl
@[simp] theorem Core.land_lastAct (k : Core) (tk : Nat) (v : W64) : (k.land tk v).lastAct = k.lastAct := rfl
@[simp] theorem Core.land_item (k : Core) (tk : Nat) (v : W64) : (k.land tk v).item = k.item := rfl
@[simp] theorem Core.land_lastOwner (k : Core) (tk : Nat) (v : W64) : (k.land tk v).lastOwner = k.lastOwner := rfl
@[simp] theorem Core.land_arrived (k : Core) (tk : Nat) (v : W64) : (k.land tk v).arrived = k.arrived := rfl
@[simp] theorem Core.land_goSync (k : Core) (tk : Nat) (v : W64) : (k.land tk v).goSync = k.goSync := rfl
@[simp] theorem Core.land_halting (k : Core) (tk : Nat) (v : W64) : (k.land tk v).halting = k.halting := rfl
@[simp] theorem Core.land_serial (k : Core) (tk : Nat) (v : W64) : (k.land tk v).serial = k.serial := rfl
@[simp] theorem Core.land_freeAt (k : Core) (tk : Nat) (v : W64) : (k.land tk v).freeAt = k.freeAt := rfl

@[simp] theorem Core.setQueue_regs (k : Core) (q : Nat) (v : Queue) : (k.setQueue q v).regs = k.regs := rfl
@[simp] theorem Core.setQueue_preds (k : Core) (q : Nat) (v : Queue) : (k.setQueue q v).preds = k.preds := rfl
@[simp] theorem Core.setQueue_pend (k : Core) (q : Nat) (v : Queue) : (k.setQueue q v).pend = k.pend := rfl
@[simp] theorem Core.setQueue_lays (k : Core) (q : Nat) (v : Queue) : (k.setQueue q v).lays = k.lays := rfl
@[simp] theorem Core.setQueue_rts (k : Core) (q : Nat) (v : Queue) : (k.setQueue q v).rts = k.rts := rfl
@[simp] theorem Core.setQueue_ctrs (k : Core) (q : Nat) (v : Queue) : (k.setQueue q v).ctrs = k.ctrs := rfl
@[simp] theorem Core.setQueue_spad (k : Core) (q : Nat) (v : Queue) : (k.setQueue q v).spad = k.spad := rfl
@[simp] theorem Core.setQueue_empty (k : Core) (q : Nat) (v : Queue) : (k.setQueue q v).empty = k.empty := rfl
@[simp] theorem Core.setQueue_acc (k : Core) (q : Nat) (v : Queue) : (k.setQueue q v).acc = k.acc := rfl
@[simp] theorem Core.setQueue_shadow (k : Core) (q : Nat) (v : Queue) : (k.setQueue q v).shadow = k.shadow := rfl
@[simp] theorem Core.setQueue_dirty (k : Core) (q : Nat) (v : Queue) : (k.setQueue q v).dirty = k.dirty := rfl
@[simp] theorem Core.setQueue_banks (k : Core) (q : Nat) (v : Queue) : (k.setQueue q v).banks = k.banks := rfl
@[simp] theorem Core.setQueue_jobs (k : Core) (q : Nat) (v : Queue) : (k.setQueue q v).jobs = k.jobs := rfl
@[simp] theorem Core.setQueue_bankJobs (k : Core) (q : Nat) (v : Queue) : (k.setQueue q v).bankJobs = k.bankJobs := rfl
@[simp] theorem Core.setQueue_conv (k : Core) (q : Nat) (v : Queue) : (k.setQueue q v).conv = k.conv := rfl
@[simp] theorem Core.setQueue_stream (k : Core) (q : Nat) (v : Queue) : (k.setQueue q v).stream = k.stream := rfl
@[simp] theorem Core.setQueue_loop (k : Core) (q : Nat) (v : Queue) : (k.setQueue q v).loop = k.loop := rfl
@[simp] theorem Core.setQueue_pc (k : Core) (q : Nat) (v : Queue) : (k.setQueue q v).pc = k.pc := rfl
@[simp] theorem Core.setQueue_handler (k : Core) (q : Nat) (v : Queue) : (k.setQueue q v).handler = k.handler := rfl
@[simp] theorem Core.setQueue_target (k : Core) (q : Nat) (v : Queue) : (k.setQueue q v).target = k.target := rfl
@[simp] theorem Core.setQueue_sys (k : Core) (q : Nat) (v : Queue) : (k.setQueue q v).sys = k.sys := rfl
@[simp] theorem Core.setQueue_ctl (k : Core) (q : Nat) (v : Queue) : (k.setQueue q v).ctl = k.ctl := rfl
@[simp] theorem Core.setQueue_opbBase (k : Core) (q : Nat) (v : Queue) : (k.setQueue q v).opbBase = k.opbBase := rfl
@[simp] theorem Core.setQueue_opbHit (k : Core) (q : Nat) (v : Queue) : (k.setQueue q v).opbHit = k.opbHit := rfl
@[simp] theorem Core.setQueue_slots (k : Core) (q : Nat) (v : Queue) : (k.setQueue q v).slots = k.slots := rfl
@[simp] theorem Core.setQueue_seqNo (k : Core) (q : Nat) (v : Queue) : (k.setQueue q v).seqNo = k.seqNo := rfl
@[simp] theorem Core.setQueue_bundleNo (k : Core) (q : Nat) (v : Queue) : (k.setQueue q v).bundleNo = k.bundleNo := rfl
@[simp] theorem Core.setQueue_rot (k : Core) (q : Nat) (v : Queue) : (k.setQueue q v).rot = k.rot := rfl
@[simp] theorem Core.setQueue_ival (k : Core) (q : Nat) (v : Queue) : (k.setQueue q v).ival = k.ival := rfl
@[simp] theorem Core.setQueue_ckSeq (k : Core) (q : Nat) (v : Queue) : (k.setQueue q v).ckSeq = k.ckSeq := rfl
@[simp] theorem Core.setQueue_dup (k : Core) (q : Nat) (v : Queue) : (k.setQueue q v).dup = k.dup := rfl
@[simp] theorem Core.setQueue_items (k : Core) (q : Nat) (v : Queue) : (k.setQueue q v).items = k.items := rfl
@[simp] theorem Core.setQueue_sent (k : Core) (q : Nat) (v : Queue) : (k.setQueue q v).sent = k.sent := rfl
@[simp] theorem Core.setQueue_relWait (k : Core) (q : Nat) (v : Queue) : (k.setQueue q v).relWait = k.relWait := rfl
@[simp] theorem Core.setQueue_relItem (k : Core) (q : Nat) (v : Queue) : (k.setQueue q v).relItem = k.relItem := rfl
@[simp] theorem Core.setQueue_expMax (k : Core) (q : Nat) (v : Queue) : (k.setQueue q v).expMax = k.expMax := rfl
@[simp] theorem Core.setQueue_rcv (k : Core) (q : Nat) (v : Queue) : (k.setQueue q v).rcv = k.rcv := rfl
@[simp] theorem Core.setQueue_subm (k : Core) (q : Nat) (v : Queue) : (k.setQueue q v).subm = k.subm := rfl
@[simp] theorem Core.setQueue_cstall (k : Core) (q : Nat) (v : Queue) : (k.setQueue q v).cstall = k.cstall := rfl
@[simp] theorem Core.setQueue_ports (k : Core) (q : Nat) (v : Queue) : (k.setQueue q v).ports = k.ports := rfl
@[simp] theorem Core.setQueue_outs (k : Core) (q : Nat) (v : Queue) : (k.setQueue q v).outs = k.outs := rfl
@[simp] theorem Core.setQueue_l1 (k : Core) (q : Nat) (v : Queue) : (k.setQueue q v).l1 = k.l1 := rfl
@[simp] theorem Core.setQueue_splices (k : Core) (q : Nat) (v : Queue) : (k.setQueue q v).splices = k.splices := rfl
@[simp] theorem Core.setQueue_chans (k : Core) (q : Nat) (v : Queue) : (k.setQueue q v).chans = k.chans := rfl
@[simp] theorem Core.setQueue_async (k : Core) (q : Nat) (v : Queue) : (k.setQueue q v).async = k.async := rfl
@[simp] theorem Core.setQueue_trap (k : Core) (q : Nat) (v : Queue) : (k.setQueue q v).trap = k.trap := rfl
@[simp] theorem Core.setQueue_rbFaults (k : Core) (q : Nat) (v : Queue) : (k.setQueue q v).rbFaults = k.rbFaults := rfl
@[simp] theorem Core.setQueue_rbMach (k : Core) (q : Nat) (v : Queue) : (k.setQueue q v).rbMach = k.rbMach := rfl
@[simp] theorem Core.setQueue_rbBase (k : Core) (q : Nat) (v : Queue) : (k.setQueue q v).rbBase = k.rbBase := rfl
@[simp] theorem Core.setQueue_lastAct (k : Core) (q : Nat) (v : Queue) : (k.setQueue q v).lastAct = k.lastAct := rfl
@[simp] theorem Core.setQueue_item (k : Core) (q : Nat) (v : Queue) : (k.setQueue q v).item = k.item := rfl
@[simp] theorem Core.setQueue_lastOwner (k : Core) (q : Nat) (v : Queue) : (k.setQueue q v).lastOwner = k.lastOwner := rfl
@[simp] theorem Core.setQueue_arrived (k : Core) (q : Nat) (v : Queue) : (k.setQueue q v).arrived = k.arrived := rfl
@[simp] theorem Core.setQueue_goSync (k : Core) (q : Nat) (v : Queue) : (k.setQueue q v).goSync = k.goSync := rfl
@[simp] theorem Core.setQueue_halting (k : Core) (q : Nat) (v : Queue) : (k.setQueue q v).halting = k.halting := rfl
@[simp] theorem Core.setQueue_serial (k : Core) (q : Nat) (v : Queue) : (k.setQueue q v).serial = k.serial := rfl
@[simp] theorem Core.setQueue_freeAt (k : Core) (q : Nat) (v : Queue) : (k.setQueue q v).freeAt = k.freeAt := rfl

@[simp] theorem Core.setFull_regs (k : Core) (w : Nat) (full : Bool) : (k.setFull w full).regs = k.regs := rfl
@[simp] theorem Core.setFull_preds (k : Core) (w : Nat) (full : Bool) : (k.setFull w full).preds = k.preds := rfl
@[simp] theorem Core.setFull_pend (k : Core) (w : Nat) (full : Bool) : (k.setFull w full).pend = k.pend := rfl
@[simp] theorem Core.setFull_queues (k : Core) (w : Nat) (full : Bool) : (k.setFull w full).queues = k.queues := rfl
@[simp] theorem Core.setFull_lays (k : Core) (w : Nat) (full : Bool) : (k.setFull w full).lays = k.lays := rfl
@[simp] theorem Core.setFull_rts (k : Core) (w : Nat) (full : Bool) : (k.setFull w full).rts = k.rts := rfl
@[simp] theorem Core.setFull_ctrs (k : Core) (w : Nat) (full : Bool) : (k.setFull w full).ctrs = k.ctrs := rfl
@[simp] theorem Core.setFull_spad (k : Core) (w : Nat) (full : Bool) : (k.setFull w full).spad = k.spad := rfl
@[simp] theorem Core.setFull_acc (k : Core) (w : Nat) (full : Bool) : (k.setFull w full).acc = k.acc := rfl
@[simp] theorem Core.setFull_shadow (k : Core) (w : Nat) (full : Bool) : (k.setFull w full).shadow = k.shadow := rfl
@[simp] theorem Core.setFull_dirty (k : Core) (w : Nat) (full : Bool) : (k.setFull w full).dirty = k.dirty := rfl
@[simp] theorem Core.setFull_banks (k : Core) (w : Nat) (full : Bool) : (k.setFull w full).banks = k.banks := rfl
@[simp] theorem Core.setFull_jobs (k : Core) (w : Nat) (full : Bool) : (k.setFull w full).jobs = k.jobs := rfl
@[simp] theorem Core.setFull_bankJobs (k : Core) (w : Nat) (full : Bool) : (k.setFull w full).bankJobs = k.bankJobs := rfl
@[simp] theorem Core.setFull_conv (k : Core) (w : Nat) (full : Bool) : (k.setFull w full).conv = k.conv := rfl
@[simp] theorem Core.setFull_stream (k : Core) (w : Nat) (full : Bool) : (k.setFull w full).stream = k.stream := rfl
@[simp] theorem Core.setFull_loop (k : Core) (w : Nat) (full : Bool) : (k.setFull w full).loop = k.loop := rfl
@[simp] theorem Core.setFull_pc (k : Core) (w : Nat) (full : Bool) : (k.setFull w full).pc = k.pc := rfl
@[simp] theorem Core.setFull_handler (k : Core) (w : Nat) (full : Bool) : (k.setFull w full).handler = k.handler := rfl
@[simp] theorem Core.setFull_target (k : Core) (w : Nat) (full : Bool) : (k.setFull w full).target = k.target := rfl
@[simp] theorem Core.setFull_sys (k : Core) (w : Nat) (full : Bool) : (k.setFull w full).sys = k.sys := rfl
@[simp] theorem Core.setFull_ctl (k : Core) (w : Nat) (full : Bool) : (k.setFull w full).ctl = k.ctl := rfl
@[simp] theorem Core.setFull_opbBase (k : Core) (w : Nat) (full : Bool) : (k.setFull w full).opbBase = k.opbBase := rfl
@[simp] theorem Core.setFull_opbHit (k : Core) (w : Nat) (full : Bool) : (k.setFull w full).opbHit = k.opbHit := rfl
@[simp] theorem Core.setFull_slots (k : Core) (w : Nat) (full : Bool) : (k.setFull w full).slots = k.slots := rfl
@[simp] theorem Core.setFull_seqNo (k : Core) (w : Nat) (full : Bool) : (k.setFull w full).seqNo = k.seqNo := rfl
@[simp] theorem Core.setFull_bundleNo (k : Core) (w : Nat) (full : Bool) : (k.setFull w full).bundleNo = k.bundleNo := rfl
@[simp] theorem Core.setFull_rot (k : Core) (w : Nat) (full : Bool) : (k.setFull w full).rot = k.rot := rfl
@[simp] theorem Core.setFull_ival (k : Core) (w : Nat) (full : Bool) : (k.setFull w full).ival = k.ival := rfl
@[simp] theorem Core.setFull_ckSeq (k : Core) (w : Nat) (full : Bool) : (k.setFull w full).ckSeq = k.ckSeq := rfl
@[simp] theorem Core.setFull_dup (k : Core) (w : Nat) (full : Bool) : (k.setFull w full).dup = k.dup := rfl
@[simp] theorem Core.setFull_items (k : Core) (w : Nat) (full : Bool) : (k.setFull w full).items = k.items := rfl
@[simp] theorem Core.setFull_sent (k : Core) (w : Nat) (full : Bool) : (k.setFull w full).sent = k.sent := rfl
@[simp] theorem Core.setFull_relWait (k : Core) (w : Nat) (full : Bool) : (k.setFull w full).relWait = k.relWait := rfl
@[simp] theorem Core.setFull_relItem (k : Core) (w : Nat) (full : Bool) : (k.setFull w full).relItem = k.relItem := rfl
@[simp] theorem Core.setFull_expMax (k : Core) (w : Nat) (full : Bool) : (k.setFull w full).expMax = k.expMax := rfl
@[simp] theorem Core.setFull_rcv (k : Core) (w : Nat) (full : Bool) : (k.setFull w full).rcv = k.rcv := rfl
@[simp] theorem Core.setFull_subm (k : Core) (w : Nat) (full : Bool) : (k.setFull w full).subm = k.subm := rfl
@[simp] theorem Core.setFull_cstall (k : Core) (w : Nat) (full : Bool) : (k.setFull w full).cstall = k.cstall := rfl
@[simp] theorem Core.setFull_ports (k : Core) (w : Nat) (full : Bool) : (k.setFull w full).ports = k.ports := rfl
@[simp] theorem Core.setFull_outs (k : Core) (w : Nat) (full : Bool) : (k.setFull w full).outs = k.outs := rfl
@[simp] theorem Core.setFull_l1 (k : Core) (w : Nat) (full : Bool) : (k.setFull w full).l1 = k.l1 := rfl
@[simp] theorem Core.setFull_splices (k : Core) (w : Nat) (full : Bool) : (k.setFull w full).splices = k.splices := rfl
@[simp] theorem Core.setFull_chans (k : Core) (w : Nat) (full : Bool) : (k.setFull w full).chans = k.chans := rfl
@[simp] theorem Core.setFull_async (k : Core) (w : Nat) (full : Bool) : (k.setFull w full).async = k.async := rfl
@[simp] theorem Core.setFull_trap (k : Core) (w : Nat) (full : Bool) : (k.setFull w full).trap = k.trap := rfl
@[simp] theorem Core.setFull_rbFaults (k : Core) (w : Nat) (full : Bool) : (k.setFull w full).rbFaults = k.rbFaults := rfl
@[simp] theorem Core.setFull_rbMach (k : Core) (w : Nat) (full : Bool) : (k.setFull w full).rbMach = k.rbMach := rfl
@[simp] theorem Core.setFull_rbBase (k : Core) (w : Nat) (full : Bool) : (k.setFull w full).rbBase = k.rbBase := rfl
@[simp] theorem Core.setFull_lastAct (k : Core) (w : Nat) (full : Bool) : (k.setFull w full).lastAct = k.lastAct := rfl
@[simp] theorem Core.setFull_item (k : Core) (w : Nat) (full : Bool) : (k.setFull w full).item = k.item := rfl
@[simp] theorem Core.setFull_lastOwner (k : Core) (w : Nat) (full : Bool) : (k.setFull w full).lastOwner = k.lastOwner := rfl
@[simp] theorem Core.setFull_arrived (k : Core) (w : Nat) (full : Bool) : (k.setFull w full).arrived = k.arrived := rfl
@[simp] theorem Core.setFull_goSync (k : Core) (w : Nat) (full : Bool) : (k.setFull w full).goSync = k.goSync := rfl
@[simp] theorem Core.setFull_halting (k : Core) (w : Nat) (full : Bool) : (k.setFull w full).halting = k.halting := rfl
@[simp] theorem Core.setFull_serial (k : Core) (w : Nat) (full : Bool) : (k.setFull w full).serial = k.serial := rfl
@[simp] theorem Core.setFull_freeAt (k : Core) (w : Nat) (full : Bool) : (k.setFull w full).freeAt = k.freeAt := rfl

@[simp] theorem Core.rtMark_regs (k : Core) (a n : Nat) : (k.rtMark a n).regs = k.regs := rfl
@[simp] theorem Core.rtMark_preds (k : Core) (a n : Nat) : (k.rtMark a n).preds = k.preds := rfl
@[simp] theorem Core.rtMark_pend (k : Core) (a n : Nat) : (k.rtMark a n).pend = k.pend := rfl
@[simp] theorem Core.rtMark_queues (k : Core) (a n : Nat) : (k.rtMark a n).queues = k.queues := rfl
@[simp] theorem Core.rtMark_lays (k : Core) (a n : Nat) : (k.rtMark a n).lays = k.lays := rfl
@[simp] theorem Core.rtMark_ctrs (k : Core) (a n : Nat) : (k.rtMark a n).ctrs = k.ctrs := rfl
@[simp] theorem Core.rtMark_spad (k : Core) (a n : Nat) : (k.rtMark a n).spad = k.spad := rfl
@[simp] theorem Core.rtMark_empty (k : Core) (a n : Nat) : (k.rtMark a n).empty = k.empty := rfl
@[simp] theorem Core.rtMark_acc (k : Core) (a n : Nat) : (k.rtMark a n).acc = k.acc := rfl
@[simp] theorem Core.rtMark_shadow (k : Core) (a n : Nat) : (k.rtMark a n).shadow = k.shadow := rfl
@[simp] theorem Core.rtMark_dirty (k : Core) (a n : Nat) : (k.rtMark a n).dirty = k.dirty := rfl
@[simp] theorem Core.rtMark_banks (k : Core) (a n : Nat) : (k.rtMark a n).banks = k.banks := rfl
@[simp] theorem Core.rtMark_jobs (k : Core) (a n : Nat) : (k.rtMark a n).jobs = k.jobs := rfl
@[simp] theorem Core.rtMark_bankJobs (k : Core) (a n : Nat) : (k.rtMark a n).bankJobs = k.bankJobs := rfl
@[simp] theorem Core.rtMark_conv (k : Core) (a n : Nat) : (k.rtMark a n).conv = k.conv := rfl
@[simp] theorem Core.rtMark_stream (k : Core) (a n : Nat) : (k.rtMark a n).stream = k.stream := rfl
@[simp] theorem Core.rtMark_loop (k : Core) (a n : Nat) : (k.rtMark a n).loop = k.loop := rfl
@[simp] theorem Core.rtMark_pc (k : Core) (a n : Nat) : (k.rtMark a n).pc = k.pc := rfl
@[simp] theorem Core.rtMark_handler (k : Core) (a n : Nat) : (k.rtMark a n).handler = k.handler := rfl
@[simp] theorem Core.rtMark_target (k : Core) (a n : Nat) : (k.rtMark a n).target = k.target := rfl
@[simp] theorem Core.rtMark_sys (k : Core) (a n : Nat) : (k.rtMark a n).sys = k.sys := rfl
@[simp] theorem Core.rtMark_ctl (k : Core) (a n : Nat) : (k.rtMark a n).ctl = k.ctl := rfl
@[simp] theorem Core.rtMark_opbBase (k : Core) (a n : Nat) : (k.rtMark a n).opbBase = k.opbBase := rfl
@[simp] theorem Core.rtMark_opbHit (k : Core) (a n : Nat) : (k.rtMark a n).opbHit = k.opbHit := rfl
@[simp] theorem Core.rtMark_slots (k : Core) (a n : Nat) : (k.rtMark a n).slots = k.slots := rfl
@[simp] theorem Core.rtMark_seqNo (k : Core) (a n : Nat) : (k.rtMark a n).seqNo = k.seqNo := rfl
@[simp] theorem Core.rtMark_bundleNo (k : Core) (a n : Nat) : (k.rtMark a n).bundleNo = k.bundleNo := rfl
@[simp] theorem Core.rtMark_rot (k : Core) (a n : Nat) : (k.rtMark a n).rot = k.rot := rfl
@[simp] theorem Core.rtMark_ival (k : Core) (a n : Nat) : (k.rtMark a n).ival = k.ival := rfl
@[simp] theorem Core.rtMark_ckSeq (k : Core) (a n : Nat) : (k.rtMark a n).ckSeq = k.ckSeq := rfl
@[simp] theorem Core.rtMark_dup (k : Core) (a n : Nat) : (k.rtMark a n).dup = k.dup := rfl
@[simp] theorem Core.rtMark_items (k : Core) (a n : Nat) : (k.rtMark a n).items = k.items := rfl
@[simp] theorem Core.rtMark_sent (k : Core) (a n : Nat) : (k.rtMark a n).sent = k.sent := rfl
@[simp] theorem Core.rtMark_relWait (k : Core) (a n : Nat) : (k.rtMark a n).relWait = k.relWait := rfl
@[simp] theorem Core.rtMark_relItem (k : Core) (a n : Nat) : (k.rtMark a n).relItem = k.relItem := rfl
@[simp] theorem Core.rtMark_expMax (k : Core) (a n : Nat) : (k.rtMark a n).expMax = k.expMax := rfl
@[simp] theorem Core.rtMark_rcv (k : Core) (a n : Nat) : (k.rtMark a n).rcv = k.rcv := rfl
@[simp] theorem Core.rtMark_subm (k : Core) (a n : Nat) : (k.rtMark a n).subm = k.subm := rfl
@[simp] theorem Core.rtMark_cstall (k : Core) (a n : Nat) : (k.rtMark a n).cstall = k.cstall := rfl
@[simp] theorem Core.rtMark_ports (k : Core) (a n : Nat) : (k.rtMark a n).ports = k.ports := rfl
@[simp] theorem Core.rtMark_outs (k : Core) (a n : Nat) : (k.rtMark a n).outs = k.outs := rfl
@[simp] theorem Core.rtMark_l1 (k : Core) (a n : Nat) : (k.rtMark a n).l1 = k.l1 := rfl
@[simp] theorem Core.rtMark_splices (k : Core) (a n : Nat) : (k.rtMark a n).splices = k.splices := rfl
@[simp] theorem Core.rtMark_chans (k : Core) (a n : Nat) : (k.rtMark a n).chans = k.chans := rfl
@[simp] theorem Core.rtMark_async (k : Core) (a n : Nat) : (k.rtMark a n).async = k.async := rfl
@[simp] theorem Core.rtMark_trap (k : Core) (a n : Nat) : (k.rtMark a n).trap = k.trap := rfl
@[simp] theorem Core.rtMark_rbFaults (k : Core) (a n : Nat) : (k.rtMark a n).rbFaults = k.rbFaults := rfl
@[simp] theorem Core.rtMark_rbMach (k : Core) (a n : Nat) : (k.rtMark a n).rbMach = k.rbMach := rfl
@[simp] theorem Core.rtMark_rbBase (k : Core) (a n : Nat) : (k.rtMark a n).rbBase = k.rbBase := rfl
@[simp] theorem Core.rtMark_lastAct (k : Core) (a n : Nat) : (k.rtMark a n).lastAct = k.lastAct := rfl
@[simp] theorem Core.rtMark_item (k : Core) (a n : Nat) : (k.rtMark a n).item = k.item := rfl
@[simp] theorem Core.rtMark_lastOwner (k : Core) (a n : Nat) : (k.rtMark a n).lastOwner = k.lastOwner := rfl
@[simp] theorem Core.rtMark_arrived (k : Core) (a n : Nat) : (k.rtMark a n).arrived = k.arrived := rfl
@[simp] theorem Core.rtMark_goSync (k : Core) (a n : Nat) : (k.rtMark a n).goSync = k.goSync := rfl
@[simp] theorem Core.rtMark_halting (k : Core) (a n : Nat) : (k.rtMark a n).halting = k.halting := rfl
@[simp] theorem Core.rtMark_serial (k : Core) (a n : Nat) : (k.rtMark a n).serial = k.serial := rfl
@[simp] theorem Core.rtMark_freeAt (k : Core) (a n : Nat) : (k.rtMark a n).freeAt = k.freeAt := rfl

@[simp] theorem Core.trapRegs_regs (k : Core) (f : FaultRec) : (k.trapRegs f).regs = k.regs := rfl
@[simp] theorem Core.trapRegs_preds (k : Core) (f : FaultRec) : (k.trapRegs f).preds = k.preds := rfl
@[simp] theorem Core.trapRegs_pend (k : Core) (f : FaultRec) : (k.trapRegs f).pend = k.pend := rfl
@[simp] theorem Core.trapRegs_queues (k : Core) (f : FaultRec) : (k.trapRegs f).queues = k.queues := rfl
@[simp] theorem Core.trapRegs_lays (k : Core) (f : FaultRec) : (k.trapRegs f).lays = k.lays := rfl
@[simp] theorem Core.trapRegs_rts (k : Core) (f : FaultRec) : (k.trapRegs f).rts = k.rts := rfl
@[simp] theorem Core.trapRegs_ctrs (k : Core) (f : FaultRec) : (k.trapRegs f).ctrs = k.ctrs := rfl
@[simp] theorem Core.trapRegs_spad (k : Core) (f : FaultRec) : (k.trapRegs f).spad = k.spad := rfl
@[simp] theorem Core.trapRegs_empty (k : Core) (f : FaultRec) : (k.trapRegs f).empty = k.empty := rfl
@[simp] theorem Core.trapRegs_acc (k : Core) (f : FaultRec) : (k.trapRegs f).acc = k.acc := rfl
@[simp] theorem Core.trapRegs_shadow (k : Core) (f : FaultRec) : (k.trapRegs f).shadow = k.shadow := rfl
@[simp] theorem Core.trapRegs_dirty (k : Core) (f : FaultRec) : (k.trapRegs f).dirty = k.dirty := rfl
@[simp] theorem Core.trapRegs_banks (k : Core) (f : FaultRec) : (k.trapRegs f).banks = k.banks := rfl
@[simp] theorem Core.trapRegs_jobs (k : Core) (f : FaultRec) : (k.trapRegs f).jobs = k.jobs := rfl
@[simp] theorem Core.trapRegs_bankJobs (k : Core) (f : FaultRec) : (k.trapRegs f).bankJobs = k.bankJobs := rfl
@[simp] theorem Core.trapRegs_conv (k : Core) (f : FaultRec) : (k.trapRegs f).conv = k.conv := rfl
@[simp] theorem Core.trapRegs_stream (k : Core) (f : FaultRec) : (k.trapRegs f).stream = k.stream := rfl
@[simp] theorem Core.trapRegs_loop (k : Core) (f : FaultRec) : (k.trapRegs f).loop = k.loop := rfl
@[simp] theorem Core.trapRegs_pc (k : Core) (f : FaultRec) : (k.trapRegs f).pc = k.pc := rfl
@[simp] theorem Core.trapRegs_handler (k : Core) (f : FaultRec) : (k.trapRegs f).handler = k.handler := rfl
@[simp] theorem Core.trapRegs_target (k : Core) (f : FaultRec) : (k.trapRegs f).target = k.target := rfl
@[simp] theorem Core.trapRegs_ctl (k : Core) (f : FaultRec) : (k.trapRegs f).ctl = k.ctl := rfl
@[simp] theorem Core.trapRegs_opbBase (k : Core) (f : FaultRec) : (k.trapRegs f).opbBase = k.opbBase := rfl
@[simp] theorem Core.trapRegs_opbHit (k : Core) (f : FaultRec) : (k.trapRegs f).opbHit = k.opbHit := rfl
@[simp] theorem Core.trapRegs_slots (k : Core) (f : FaultRec) : (k.trapRegs f).slots = k.slots := rfl
@[simp] theorem Core.trapRegs_seqNo (k : Core) (f : FaultRec) : (k.trapRegs f).seqNo = k.seqNo := rfl
@[simp] theorem Core.trapRegs_bundleNo (k : Core) (f : FaultRec) : (k.trapRegs f).bundleNo = k.bundleNo := rfl
@[simp] theorem Core.trapRegs_rot (k : Core) (f : FaultRec) : (k.trapRegs f).rot = k.rot := rfl
@[simp] theorem Core.trapRegs_ival (k : Core) (f : FaultRec) : (k.trapRegs f).ival = k.ival := rfl
@[simp] theorem Core.trapRegs_ckSeq (k : Core) (f : FaultRec) : (k.trapRegs f).ckSeq = k.ckSeq := rfl
@[simp] theorem Core.trapRegs_dup (k : Core) (f : FaultRec) : (k.trapRegs f).dup = k.dup := rfl
@[simp] theorem Core.trapRegs_items (k : Core) (f : FaultRec) : (k.trapRegs f).items = k.items := rfl
@[simp] theorem Core.trapRegs_sent (k : Core) (f : FaultRec) : (k.trapRegs f).sent = k.sent := rfl
@[simp] theorem Core.trapRegs_relWait (k : Core) (f : FaultRec) : (k.trapRegs f).relWait = k.relWait := rfl
@[simp] theorem Core.trapRegs_relItem (k : Core) (f : FaultRec) : (k.trapRegs f).relItem = k.relItem := rfl
@[simp] theorem Core.trapRegs_expMax (k : Core) (f : FaultRec) : (k.trapRegs f).expMax = k.expMax := rfl
@[simp] theorem Core.trapRegs_rcv (k : Core) (f : FaultRec) : (k.trapRegs f).rcv = k.rcv := rfl
@[simp] theorem Core.trapRegs_subm (k : Core) (f : FaultRec) : (k.trapRegs f).subm = k.subm := rfl
@[simp] theorem Core.trapRegs_cstall (k : Core) (f : FaultRec) : (k.trapRegs f).cstall = k.cstall := rfl
@[simp] theorem Core.trapRegs_ports (k : Core) (f : FaultRec) : (k.trapRegs f).ports = k.ports := rfl
@[simp] theorem Core.trapRegs_outs (k : Core) (f : FaultRec) : (k.trapRegs f).outs = k.outs := rfl
@[simp] theorem Core.trapRegs_l1 (k : Core) (f : FaultRec) : (k.trapRegs f).l1 = k.l1 := rfl
@[simp] theorem Core.trapRegs_splices (k : Core) (f : FaultRec) : (k.trapRegs f).splices = k.splices := rfl
@[simp] theorem Core.trapRegs_chans (k : Core) (f : FaultRec) : (k.trapRegs f).chans = k.chans := rfl
@[simp] theorem Core.trapRegs_async (k : Core) (f : FaultRec) : (k.trapRegs f).async = k.async := rfl
@[simp] theorem Core.trapRegs_trap (k : Core) (f : FaultRec) : (k.trapRegs f).trap = k.trap := rfl
@[simp] theorem Core.trapRegs_rbFaults (k : Core) (f : FaultRec) : (k.trapRegs f).rbFaults = k.rbFaults := rfl
@[simp] theorem Core.trapRegs_rbMach (k : Core) (f : FaultRec) : (k.trapRegs f).rbMach = k.rbMach := rfl
@[simp] theorem Core.trapRegs_rbBase (k : Core) (f : FaultRec) : (k.trapRegs f).rbBase = k.rbBase := rfl
@[simp] theorem Core.trapRegs_lastAct (k : Core) (f : FaultRec) : (k.trapRegs f).lastAct = k.lastAct := rfl
@[simp] theorem Core.trapRegs_item (k : Core) (f : FaultRec) : (k.trapRegs f).item = k.item := rfl
@[simp] theorem Core.trapRegs_lastOwner (k : Core) (f : FaultRec) : (k.trapRegs f).lastOwner = k.lastOwner := rfl
@[simp] theorem Core.trapRegs_arrived (k : Core) (f : FaultRec) : (k.trapRegs f).arrived = k.arrived := rfl
@[simp] theorem Core.trapRegs_goSync (k : Core) (f : FaultRec) : (k.trapRegs f).goSync = k.goSync := rfl
@[simp] theorem Core.trapRegs_halting (k : Core) (f : FaultRec) : (k.trapRegs f).halting = k.halting := rfl
@[simp] theorem Core.trapRegs_serial (k : Core) (f : FaultRec) : (k.trapRegs f).serial = k.serial := rfl
@[simp] theorem Core.trapRegs_freeAt (k : Core) (f : FaultRec) : (k.trapRegs f).freeAt = k.freeAt := rfl

@[simp] theorem Core.enterHandler_regs (k : Core) (f : FaultRec) : (k.enterHandler f).regs = k.regs := rfl
@[simp] theorem Core.enterHandler_preds (k : Core) (f : FaultRec) : (k.enterHandler f).preds = k.preds := rfl
@[simp] theorem Core.enterHandler_pend (k : Core) (f : FaultRec) : (k.enterHandler f).pend = k.pend := rfl
@[simp] theorem Core.enterHandler_queues (k : Core) (f : FaultRec) : (k.enterHandler f).queues = k.queues := rfl
@[simp] theorem Core.enterHandler_lays (k : Core) (f : FaultRec) : (k.enterHandler f).lays = k.lays := rfl
@[simp] theorem Core.enterHandler_rts (k : Core) (f : FaultRec) : (k.enterHandler f).rts = k.rts := rfl
@[simp] theorem Core.enterHandler_ctrs (k : Core) (f : FaultRec) : (k.enterHandler f).ctrs = k.ctrs := rfl
@[simp] theorem Core.enterHandler_spad (k : Core) (f : FaultRec) : (k.enterHandler f).spad = k.spad := rfl
@[simp] theorem Core.enterHandler_empty (k : Core) (f : FaultRec) : (k.enterHandler f).empty = k.empty := rfl
@[simp] theorem Core.enterHandler_acc (k : Core) (f : FaultRec) : (k.enterHandler f).acc = k.acc := rfl
@[simp] theorem Core.enterHandler_shadow (k : Core) (f : FaultRec) : (k.enterHandler f).shadow = k.shadow := rfl
@[simp] theorem Core.enterHandler_dirty (k : Core) (f : FaultRec) : (k.enterHandler f).dirty = k.dirty := rfl
@[simp] theorem Core.enterHandler_banks (k : Core) (f : FaultRec) : (k.enterHandler f).banks = k.banks := rfl
@[simp] theorem Core.enterHandler_jobs (k : Core) (f : FaultRec) : (k.enterHandler f).jobs = k.jobs := rfl
@[simp] theorem Core.enterHandler_bankJobs (k : Core) (f : FaultRec) : (k.enterHandler f).bankJobs = k.bankJobs := rfl
@[simp] theorem Core.enterHandler_conv (k : Core) (f : FaultRec) : (k.enterHandler f).conv = k.conv := rfl
@[simp] theorem Core.enterHandler_stream (k : Core) (f : FaultRec) : (k.enterHandler f).stream = k.stream := rfl
@[simp] theorem Core.enterHandler_loop (k : Core) (f : FaultRec) : (k.enterHandler f).loop = k.loop := rfl
@[simp] theorem Core.enterHandler_ctl (k : Core) (f : FaultRec) : (k.enterHandler f).ctl = k.ctl := rfl
@[simp] theorem Core.enterHandler_opbBase (k : Core) (f : FaultRec) : (k.enterHandler f).opbBase = k.opbBase := rfl
@[simp] theorem Core.enterHandler_opbHit (k : Core) (f : FaultRec) : (k.enterHandler f).opbHit = k.opbHit := rfl
@[simp] theorem Core.enterHandler_slots (k : Core) (f : FaultRec) : (k.enterHandler f).slots = k.slots := rfl
@[simp] theorem Core.enterHandler_seqNo (k : Core) (f : FaultRec) : (k.enterHandler f).seqNo = k.seqNo := rfl
@[simp] theorem Core.enterHandler_bundleNo (k : Core) (f : FaultRec) : (k.enterHandler f).bundleNo = k.bundleNo := rfl
@[simp] theorem Core.enterHandler_rot (k : Core) (f : FaultRec) : (k.enterHandler f).rot = k.rot := rfl
@[simp] theorem Core.enterHandler_ival (k : Core) (f : FaultRec) : (k.enterHandler f).ival = k.ival := rfl
@[simp] theorem Core.enterHandler_ckSeq (k : Core) (f : FaultRec) : (k.enterHandler f).ckSeq = k.ckSeq := rfl
@[simp] theorem Core.enterHandler_dup (k : Core) (f : FaultRec) : (k.enterHandler f).dup = k.dup := rfl
@[simp] theorem Core.enterHandler_items (k : Core) (f : FaultRec) : (k.enterHandler f).items = k.items := rfl
@[simp] theorem Core.enterHandler_sent (k : Core) (f : FaultRec) : (k.enterHandler f).sent = k.sent := rfl
@[simp] theorem Core.enterHandler_relWait (k : Core) (f : FaultRec) : (k.enterHandler f).relWait = k.relWait := rfl
@[simp] theorem Core.enterHandler_relItem (k : Core) (f : FaultRec) : (k.enterHandler f).relItem = k.relItem := rfl
@[simp] theorem Core.enterHandler_expMax (k : Core) (f : FaultRec) : (k.enterHandler f).expMax = k.expMax := rfl
@[simp] theorem Core.enterHandler_rcv (k : Core) (f : FaultRec) : (k.enterHandler f).rcv = k.rcv := rfl
@[simp] theorem Core.enterHandler_subm (k : Core) (f : FaultRec) : (k.enterHandler f).subm = k.subm := rfl
@[simp] theorem Core.enterHandler_cstall (k : Core) (f : FaultRec) : (k.enterHandler f).cstall = k.cstall := rfl
@[simp] theorem Core.enterHandler_ports (k : Core) (f : FaultRec) : (k.enterHandler f).ports = k.ports := rfl
@[simp] theorem Core.enterHandler_outs (k : Core) (f : FaultRec) : (k.enterHandler f).outs = k.outs := rfl
@[simp] theorem Core.enterHandler_l1 (k : Core) (f : FaultRec) : (k.enterHandler f).l1 = k.l1 := rfl
@[simp] theorem Core.enterHandler_splices (k : Core) (f : FaultRec) : (k.enterHandler f).splices = k.splices := rfl
@[simp] theorem Core.enterHandler_chans (k : Core) (f : FaultRec) : (k.enterHandler f).chans = k.chans := rfl
@[simp] theorem Core.enterHandler_async (k : Core) (f : FaultRec) : (k.enterHandler f).async = k.async := rfl
@[simp] theorem Core.enterHandler_trap (k : Core) (f : FaultRec) : (k.enterHandler f).trap = k.trap := rfl
@[simp] theorem Core.enterHandler_rbFaults (k : Core) (f : FaultRec) : (k.enterHandler f).rbFaults = k.rbFaults := rfl
@[simp] theorem Core.enterHandler_rbMach (k : Core) (f : FaultRec) : (k.enterHandler f).rbMach = k.rbMach := rfl
@[simp] theorem Core.enterHandler_rbBase (k : Core) (f : FaultRec) : (k.enterHandler f).rbBase = k.rbBase := rfl
@[simp] theorem Core.enterHandler_lastAct (k : Core) (f : FaultRec) : (k.enterHandler f).lastAct = k.lastAct := rfl
@[simp] theorem Core.enterHandler_item (k : Core) (f : FaultRec) : (k.enterHandler f).item = k.item := rfl
@[simp] theorem Core.enterHandler_lastOwner (k : Core) (f : FaultRec) : (k.enterHandler f).lastOwner = k.lastOwner := rfl
@[simp] theorem Core.enterHandler_arrived (k : Core) (f : FaultRec) : (k.enterHandler f).arrived = k.arrived := rfl
@[simp] theorem Core.enterHandler_goSync (k : Core) (f : FaultRec) : (k.enterHandler f).goSync = k.goSync := rfl
@[simp] theorem Core.enterHandler_halting (k : Core) (f : FaultRec) : (k.enterHandler f).halting = k.halting := rfl
@[simp] theorem Core.enterHandler_serial (k : Core) (f : FaultRec) : (k.enterHandler f).serial = k.serial := rfl
@[simp] theorem Core.enterHandler_freeAt (k : Core) (f : FaultRec) : (k.enterHandler f).freeAt = k.freeAt := rfl

@[simp] theorem Core.leaveHandler_regs (k : Core) (t : Bool) : (k.leaveHandler t).regs = k.regs := rfl
@[simp] theorem Core.leaveHandler_preds (k : Core) (t : Bool) : (k.leaveHandler t).preds = k.preds := rfl
@[simp] theorem Core.leaveHandler_pend (k : Core) (t : Bool) : (k.leaveHandler t).pend = k.pend := rfl
@[simp] theorem Core.leaveHandler_queues (k : Core) (t : Bool) : (k.leaveHandler t).queues = k.queues := rfl
@[simp] theorem Core.leaveHandler_lays (k : Core) (t : Bool) : (k.leaveHandler t).lays = k.lays := rfl
@[simp] theorem Core.leaveHandler_rts (k : Core) (t : Bool) : (k.leaveHandler t).rts = k.rts := rfl
@[simp] theorem Core.leaveHandler_ctrs (k : Core) (t : Bool) : (k.leaveHandler t).ctrs = k.ctrs := rfl
@[simp] theorem Core.leaveHandler_spad (k : Core) (t : Bool) : (k.leaveHandler t).spad = k.spad := rfl
@[simp] theorem Core.leaveHandler_empty (k : Core) (t : Bool) : (k.leaveHandler t).empty = k.empty := rfl
@[simp] theorem Core.leaveHandler_acc (k : Core) (t : Bool) : (k.leaveHandler t).acc = k.acc := rfl
@[simp] theorem Core.leaveHandler_shadow (k : Core) (t : Bool) : (k.leaveHandler t).shadow = k.shadow := rfl
@[simp] theorem Core.leaveHandler_dirty (k : Core) (t : Bool) : (k.leaveHandler t).dirty = k.dirty := rfl
@[simp] theorem Core.leaveHandler_banks (k : Core) (t : Bool) : (k.leaveHandler t).banks = k.banks := rfl
@[simp] theorem Core.leaveHandler_jobs (k : Core) (t : Bool) : (k.leaveHandler t).jobs = k.jobs := rfl
@[simp] theorem Core.leaveHandler_bankJobs (k : Core) (t : Bool) : (k.leaveHandler t).bankJobs = k.bankJobs := rfl
@[simp] theorem Core.leaveHandler_conv (k : Core) (t : Bool) : (k.leaveHandler t).conv = k.conv := rfl
@[simp] theorem Core.leaveHandler_stream (k : Core) (t : Bool) : (k.leaveHandler t).stream = k.stream := rfl
@[simp] theorem Core.leaveHandler_loop (k : Core) (t : Bool) : (k.leaveHandler t).loop = k.loop := rfl
@[simp] theorem Core.leaveHandler_sys (k : Core) (t : Bool) : (k.leaveHandler t).sys = k.sys := rfl
@[simp] theorem Core.leaveHandler_ctl (k : Core) (t : Bool) : (k.leaveHandler t).ctl = k.ctl := rfl
@[simp] theorem Core.leaveHandler_opbBase (k : Core) (t : Bool) : (k.leaveHandler t).opbBase = k.opbBase := rfl
@[simp] theorem Core.leaveHandler_opbHit (k : Core) (t : Bool) : (k.leaveHandler t).opbHit = k.opbHit := rfl
@[simp] theorem Core.leaveHandler_slots (k : Core) (t : Bool) : (k.leaveHandler t).slots = k.slots := rfl
@[simp] theorem Core.leaveHandler_seqNo (k : Core) (t : Bool) : (k.leaveHandler t).seqNo = k.seqNo := rfl
@[simp] theorem Core.leaveHandler_bundleNo (k : Core) (t : Bool) : (k.leaveHandler t).bundleNo = k.bundleNo := rfl
@[simp] theorem Core.leaveHandler_rot (k : Core) (t : Bool) : (k.leaveHandler t).rot = k.rot := rfl
@[simp] theorem Core.leaveHandler_ival (k : Core) (t : Bool) : (k.leaveHandler t).ival = k.ival := rfl
@[simp] theorem Core.leaveHandler_ckSeq (k : Core) (t : Bool) : (k.leaveHandler t).ckSeq = k.ckSeq := rfl
@[simp] theorem Core.leaveHandler_dup (k : Core) (t : Bool) : (k.leaveHandler t).dup = k.dup := rfl
@[simp] theorem Core.leaveHandler_items (k : Core) (t : Bool) : (k.leaveHandler t).items = k.items := rfl
@[simp] theorem Core.leaveHandler_sent (k : Core) (t : Bool) : (k.leaveHandler t).sent = k.sent := rfl
@[simp] theorem Core.leaveHandler_relWait (k : Core) (t : Bool) : (k.leaveHandler t).relWait = k.relWait := rfl
@[simp] theorem Core.leaveHandler_relItem (k : Core) (t : Bool) : (k.leaveHandler t).relItem = k.relItem := rfl
@[simp] theorem Core.leaveHandler_expMax (k : Core) (t : Bool) : (k.leaveHandler t).expMax = k.expMax := rfl
@[simp] theorem Core.leaveHandler_rcv (k : Core) (t : Bool) : (k.leaveHandler t).rcv = k.rcv := rfl
@[simp] theorem Core.leaveHandler_subm (k : Core) (t : Bool) : (k.leaveHandler t).subm = k.subm := rfl
@[simp] theorem Core.leaveHandler_cstall (k : Core) (t : Bool) : (k.leaveHandler t).cstall = k.cstall := rfl
@[simp] theorem Core.leaveHandler_ports (k : Core) (t : Bool) : (k.leaveHandler t).ports = k.ports := rfl
@[simp] theorem Core.leaveHandler_outs (k : Core) (t : Bool) : (k.leaveHandler t).outs = k.outs := rfl
@[simp] theorem Core.leaveHandler_l1 (k : Core) (t : Bool) : (k.leaveHandler t).l1 = k.l1 := rfl
@[simp] theorem Core.leaveHandler_splices (k : Core) (t : Bool) : (k.leaveHandler t).splices = k.splices := rfl
@[simp] theorem Core.leaveHandler_chans (k : Core) (t : Bool) : (k.leaveHandler t).chans = k.chans := rfl
@[simp] theorem Core.leaveHandler_async (k : Core) (t : Bool) : (k.leaveHandler t).async = k.async := rfl
@[simp] theorem Core.leaveHandler_trap (k : Core) (t : Bool) : (k.leaveHandler t).trap = k.trap := rfl
@[simp] theorem Core.leaveHandler_rbFaults (k : Core) (t : Bool) : (k.leaveHandler t).rbFaults = k.rbFaults := rfl
@[simp] theorem Core.leaveHandler_rbMach (k : Core) (t : Bool) : (k.leaveHandler t).rbMach = k.rbMach := rfl
@[simp] theorem Core.leaveHandler_rbBase (k : Core) (t : Bool) : (k.leaveHandler t).rbBase = k.rbBase := rfl
@[simp] theorem Core.leaveHandler_lastAct (k : Core) (t : Bool) : (k.leaveHandler t).lastAct = k.lastAct := rfl
@[simp] theorem Core.leaveHandler_item (k : Core) (t : Bool) : (k.leaveHandler t).item = k.item := rfl
@[simp] theorem Core.leaveHandler_lastOwner (k : Core) (t : Bool) : (k.leaveHandler t).lastOwner = k.lastOwner := rfl
@[simp] theorem Core.leaveHandler_arrived (k : Core) (t : Bool) : (k.leaveHandler t).arrived = k.arrived := rfl
@[simp] theorem Core.leaveHandler_goSync (k : Core) (t : Bool) : (k.leaveHandler t).goSync = k.goSync := rfl
@[simp] theorem Core.leaveHandler_halting (k : Core) (t : Bool) : (k.leaveHandler t).halting = k.halting := rfl
@[simp] theorem Core.leaveHandler_serial (k : Core) (t : Bool) : (k.leaveHandler t).serial = k.serial := rfl
@[simp] theorem Core.leaveHandler_freeAt (k : Core) (t : Bool) : (k.leaveHandler t).freeAt = k.freeAt := rfl

@[simp] theorem Core.orFlags_regs (k : Core) (iv : Nat) (f : Flags) : (k.orFlags iv f).regs = k.regs := rfl
@[simp] theorem Core.orFlags_preds (k : Core) (iv : Nat) (f : Flags) : (k.orFlags iv f).preds = k.preds := rfl
@[simp] theorem Core.orFlags_pend (k : Core) (iv : Nat) (f : Flags) : (k.orFlags iv f).pend = k.pend := rfl
@[simp] theorem Core.orFlags_queues (k : Core) (iv : Nat) (f : Flags) : (k.orFlags iv f).queues = k.queues := rfl
@[simp] theorem Core.orFlags_lays (k : Core) (iv : Nat) (f : Flags) : (k.orFlags iv f).lays = k.lays := rfl
@[simp] theorem Core.orFlags_rts (k : Core) (iv : Nat) (f : Flags) : (k.orFlags iv f).rts = k.rts := rfl
@[simp] theorem Core.orFlags_ctrs (k : Core) (iv : Nat) (f : Flags) : (k.orFlags iv f).ctrs = k.ctrs := rfl
@[simp] theorem Core.orFlags_spad (k : Core) (iv : Nat) (f : Flags) : (k.orFlags iv f).spad = k.spad := rfl
@[simp] theorem Core.orFlags_empty (k : Core) (iv : Nat) (f : Flags) : (k.orFlags iv f).empty = k.empty := rfl
@[simp] theorem Core.orFlags_acc (k : Core) (iv : Nat) (f : Flags) : (k.orFlags iv f).acc = k.acc := rfl
@[simp] theorem Core.orFlags_shadow (k : Core) (iv : Nat) (f : Flags) : (k.orFlags iv f).shadow = k.shadow := rfl
@[simp] theorem Core.orFlags_dirty (k : Core) (iv : Nat) (f : Flags) : (k.orFlags iv f).dirty = k.dirty := rfl
@[simp] theorem Core.orFlags_banks (k : Core) (iv : Nat) (f : Flags) : (k.orFlags iv f).banks = k.banks := rfl
@[simp] theorem Core.orFlags_jobs (k : Core) (iv : Nat) (f : Flags) : (k.orFlags iv f).jobs = k.jobs := rfl
@[simp] theorem Core.orFlags_bankJobs (k : Core) (iv : Nat) (f : Flags) : (k.orFlags iv f).bankJobs = k.bankJobs := rfl
@[simp] theorem Core.orFlags_conv (k : Core) (iv : Nat) (f : Flags) : (k.orFlags iv f).conv = k.conv := rfl
@[simp] theorem Core.orFlags_stream (k : Core) (iv : Nat) (f : Flags) : (k.orFlags iv f).stream = k.stream := rfl
@[simp] theorem Core.orFlags_loop (k : Core) (iv : Nat) (f : Flags) : (k.orFlags iv f).loop = k.loop := rfl
@[simp] theorem Core.orFlags_pc (k : Core) (iv : Nat) (f : Flags) : (k.orFlags iv f).pc = k.pc := rfl
@[simp] theorem Core.orFlags_handler (k : Core) (iv : Nat) (f : Flags) : (k.orFlags iv f).handler = k.handler := rfl
@[simp] theorem Core.orFlags_target (k : Core) (iv : Nat) (f : Flags) : (k.orFlags iv f).target = k.target := rfl
@[simp] theorem Core.orFlags_ctl (k : Core) (iv : Nat) (f : Flags) : (k.orFlags iv f).ctl = k.ctl := rfl
@[simp] theorem Core.orFlags_opbBase (k : Core) (iv : Nat) (f : Flags) : (k.orFlags iv f).opbBase = k.opbBase := rfl
@[simp] theorem Core.orFlags_opbHit (k : Core) (iv : Nat) (f : Flags) : (k.orFlags iv f).opbHit = k.opbHit := rfl
@[simp] theorem Core.orFlags_slots (k : Core) (iv : Nat) (f : Flags) : (k.orFlags iv f).slots = k.slots := rfl
@[simp] theorem Core.orFlags_seqNo (k : Core) (iv : Nat) (f : Flags) : (k.orFlags iv f).seqNo = k.seqNo := rfl
@[simp] theorem Core.orFlags_bundleNo (k : Core) (iv : Nat) (f : Flags) : (k.orFlags iv f).bundleNo = k.bundleNo := rfl
@[simp] theorem Core.orFlags_rot (k : Core) (iv : Nat) (f : Flags) : (k.orFlags iv f).rot = k.rot := rfl
@[simp] theorem Core.orFlags_ival (k : Core) (iv : Nat) (f : Flags) : (k.orFlags iv f).ival = k.ival := rfl
@[simp] theorem Core.orFlags_ckSeq (k : Core) (iv : Nat) (f : Flags) : (k.orFlags iv f).ckSeq = k.ckSeq := rfl
@[simp] theorem Core.orFlags_items (k : Core) (iv : Nat) (f : Flags) : (k.orFlags iv f).items = k.items := rfl
@[simp] theorem Core.orFlags_sent (k : Core) (iv : Nat) (f : Flags) : (k.orFlags iv f).sent = k.sent := rfl
@[simp] theorem Core.orFlags_relWait (k : Core) (iv : Nat) (f : Flags) : (k.orFlags iv f).relWait = k.relWait := rfl
@[simp] theorem Core.orFlags_relItem (k : Core) (iv : Nat) (f : Flags) : (k.orFlags iv f).relItem = k.relItem := rfl
@[simp] theorem Core.orFlags_expMax (k : Core) (iv : Nat) (f : Flags) : (k.orFlags iv f).expMax = k.expMax := rfl
@[simp] theorem Core.orFlags_rcv (k : Core) (iv : Nat) (f : Flags) : (k.orFlags iv f).rcv = k.rcv := rfl
@[simp] theorem Core.orFlags_subm (k : Core) (iv : Nat) (f : Flags) : (k.orFlags iv f).subm = k.subm := rfl
@[simp] theorem Core.orFlags_cstall (k : Core) (iv : Nat) (f : Flags) : (k.orFlags iv f).cstall = k.cstall := rfl
@[simp] theorem Core.orFlags_ports (k : Core) (iv : Nat) (f : Flags) : (k.orFlags iv f).ports = k.ports := rfl
@[simp] theorem Core.orFlags_outs (k : Core) (iv : Nat) (f : Flags) : (k.orFlags iv f).outs = k.outs := rfl
@[simp] theorem Core.orFlags_l1 (k : Core) (iv : Nat) (f : Flags) : (k.orFlags iv f).l1 = k.l1 := rfl
@[simp] theorem Core.orFlags_splices (k : Core) (iv : Nat) (f : Flags) : (k.orFlags iv f).splices = k.splices := rfl
@[simp] theorem Core.orFlags_chans (k : Core) (iv : Nat) (f : Flags) : (k.orFlags iv f).chans = k.chans := rfl
@[simp] theorem Core.orFlags_async (k : Core) (iv : Nat) (f : Flags) : (k.orFlags iv f).async = k.async := rfl
@[simp] theorem Core.orFlags_trap (k : Core) (iv : Nat) (f : Flags) : (k.orFlags iv f).trap = k.trap := rfl
@[simp] theorem Core.orFlags_rbFaults (k : Core) (iv : Nat) (f : Flags) : (k.orFlags iv f).rbFaults = k.rbFaults := rfl
@[simp] theorem Core.orFlags_rbMach (k : Core) (iv : Nat) (f : Flags) : (k.orFlags iv f).rbMach = k.rbMach := rfl
@[simp] theorem Core.orFlags_rbBase (k : Core) (iv : Nat) (f : Flags) : (k.orFlags iv f).rbBase = k.rbBase := rfl
@[simp] theorem Core.orFlags_lastAct (k : Core) (iv : Nat) (f : Flags) : (k.orFlags iv f).lastAct = k.lastAct := rfl
@[simp] theorem Core.orFlags_item (k : Core) (iv : Nat) (f : Flags) : (k.orFlags iv f).item = k.item := rfl
@[simp] theorem Core.orFlags_lastOwner (k : Core) (iv : Nat) (f : Flags) : (k.orFlags iv f).lastOwner = k.lastOwner := rfl
@[simp] theorem Core.orFlags_arrived (k : Core) (iv : Nat) (f : Flags) : (k.orFlags iv f).arrived = k.arrived := rfl
@[simp] theorem Core.orFlags_goSync (k : Core) (iv : Nat) (f : Flags) : (k.orFlags iv f).goSync = k.goSync := rfl
@[simp] theorem Core.orFlags_halting (k : Core) (iv : Nat) (f : Flags) : (k.orFlags iv f).halting = k.halting := rfl
@[simp] theorem Core.orFlags_serial (k : Core) (iv : Nat) (f : Flags) : (k.orFlags iv f).serial = k.serial := rfl
@[simp] theorem Core.orFlags_freeAt (k : Core) (iv : Nat) (f : Flags) : (k.orFlags iv f).freeAt = k.freeAt := rfl

@[simp] theorem Core.hold_regs (k : Core) (o : SlipOp) (slot : Nat) (rel : Bool) (kind : ItemKind) : (k.hold o slot rel kind).regs = k.regs := rfl
@[simp] theorem Core.hold_preds (k : Core) (o : SlipOp) (slot : Nat) (rel : Bool) (kind : ItemKind) : (k.hold o slot rel kind).preds = k.preds := rfl
@[simp] theorem Core.hold_pend (k : Core) (o : SlipOp) (slot : Nat) (rel : Bool) (kind : ItemKind) : (k.hold o slot rel kind).pend = k.pend := rfl
@[simp] theorem Core.hold_queues (k : Core) (o : SlipOp) (slot : Nat) (rel : Bool) (kind : ItemKind) : (k.hold o slot rel kind).queues = k.queues := rfl
@[simp] theorem Core.hold_lays (k : Core) (o : SlipOp) (slot : Nat) (rel : Bool) (kind : ItemKind) : (k.hold o slot rel kind).lays = k.lays := rfl
@[simp] theorem Core.hold_rts (k : Core) (o : SlipOp) (slot : Nat) (rel : Bool) (kind : ItemKind) : (k.hold o slot rel kind).rts = k.rts := rfl
@[simp] theorem Core.hold_ctrs (k : Core) (o : SlipOp) (slot : Nat) (rel : Bool) (kind : ItemKind) : (k.hold o slot rel kind).ctrs = k.ctrs := rfl
@[simp] theorem Core.hold_spad (k : Core) (o : SlipOp) (slot : Nat) (rel : Bool) (kind : ItemKind) : (k.hold o slot rel kind).spad = k.spad := rfl
@[simp] theorem Core.hold_empty (k : Core) (o : SlipOp) (slot : Nat) (rel : Bool) (kind : ItemKind) : (k.hold o slot rel kind).empty = k.empty := rfl
@[simp] theorem Core.hold_acc (k : Core) (o : SlipOp) (slot : Nat) (rel : Bool) (kind : ItemKind) : (k.hold o slot rel kind).acc = k.acc := rfl
@[simp] theorem Core.hold_shadow (k : Core) (o : SlipOp) (slot : Nat) (rel : Bool) (kind : ItemKind) : (k.hold o slot rel kind).shadow = k.shadow := rfl
@[simp] theorem Core.hold_dirty (k : Core) (o : SlipOp) (slot : Nat) (rel : Bool) (kind : ItemKind) : (k.hold o slot rel kind).dirty = k.dirty := rfl
@[simp] theorem Core.hold_banks (k : Core) (o : SlipOp) (slot : Nat) (rel : Bool) (kind : ItemKind) : (k.hold o slot rel kind).banks = k.banks := rfl
@[simp] theorem Core.hold_jobs (k : Core) (o : SlipOp) (slot : Nat) (rel : Bool) (kind : ItemKind) : (k.hold o slot rel kind).jobs = k.jobs := rfl
@[simp] theorem Core.hold_bankJobs (k : Core) (o : SlipOp) (slot : Nat) (rel : Bool) (kind : ItemKind) : (k.hold o slot rel kind).bankJobs = k.bankJobs := rfl
@[simp] theorem Core.hold_conv (k : Core) (o : SlipOp) (slot : Nat) (rel : Bool) (kind : ItemKind) : (k.hold o slot rel kind).conv = k.conv := rfl
@[simp] theorem Core.hold_stream (k : Core) (o : SlipOp) (slot : Nat) (rel : Bool) (kind : ItemKind) : (k.hold o slot rel kind).stream = k.stream := rfl
@[simp] theorem Core.hold_loop (k : Core) (o : SlipOp) (slot : Nat) (rel : Bool) (kind : ItemKind) : (k.hold o slot rel kind).loop = k.loop := rfl
@[simp] theorem Core.hold_pc (k : Core) (o : SlipOp) (slot : Nat) (rel : Bool) (kind : ItemKind) : (k.hold o slot rel kind).pc = k.pc := rfl
@[simp] theorem Core.hold_handler (k : Core) (o : SlipOp) (slot : Nat) (rel : Bool) (kind : ItemKind) : (k.hold o slot rel kind).handler = k.handler := rfl
@[simp] theorem Core.hold_target (k : Core) (o : SlipOp) (slot : Nat) (rel : Bool) (kind : ItemKind) : (k.hold o slot rel kind).target = k.target := rfl
@[simp] theorem Core.hold_sys (k : Core) (o : SlipOp) (slot : Nat) (rel : Bool) (kind : ItemKind) : (k.hold o slot rel kind).sys = k.sys := rfl
@[simp] theorem Core.hold_ctl (k : Core) (o : SlipOp) (slot : Nat) (rel : Bool) (kind : ItemKind) : (k.hold o slot rel kind).ctl = k.ctl := rfl
@[simp] theorem Core.hold_opbBase (k : Core) (o : SlipOp) (slot : Nat) (rel : Bool) (kind : ItemKind) : (k.hold o slot rel kind).opbBase = k.opbBase := rfl
@[simp] theorem Core.hold_opbHit (k : Core) (o : SlipOp) (slot : Nat) (rel : Bool) (kind : ItemKind) : (k.hold o slot rel kind).opbHit = k.opbHit := rfl
@[simp] theorem Core.hold_slots (k : Core) (o : SlipOp) (slot : Nat) (rel : Bool) (kind : ItemKind) : (k.hold o slot rel kind).slots = k.slots := rfl
@[simp] theorem Core.hold_seqNo (k : Core) (o : SlipOp) (slot : Nat) (rel : Bool) (kind : ItemKind) : (k.hold o slot rel kind).seqNo = k.seqNo := rfl
@[simp] theorem Core.hold_bundleNo (k : Core) (o : SlipOp) (slot : Nat) (rel : Bool) (kind : ItemKind) : (k.hold o slot rel kind).bundleNo = k.bundleNo := rfl
@[simp] theorem Core.hold_rot (k : Core) (o : SlipOp) (slot : Nat) (rel : Bool) (kind : ItemKind) : (k.hold o slot rel kind).rot = k.rot := rfl
@[simp] theorem Core.hold_ival (k : Core) (o : SlipOp) (slot : Nat) (rel : Bool) (kind : ItemKind) : (k.hold o slot rel kind).ival = k.ival := rfl
@[simp] theorem Core.hold_ckSeq (k : Core) (o : SlipOp) (slot : Nat) (rel : Bool) (kind : ItemKind) : (k.hold o slot rel kind).ckSeq = k.ckSeq := rfl
@[simp] theorem Core.hold_dup (k : Core) (o : SlipOp) (slot : Nat) (rel : Bool) (kind : ItemKind) : (k.hold o slot rel kind).dup = k.dup := rfl
@[simp] theorem Core.hold_sent (k : Core) (o : SlipOp) (slot : Nat) (rel : Bool) (kind : ItemKind) : (k.hold o slot rel kind).sent = k.sent := rfl
@[simp] theorem Core.hold_relWait (k : Core) (o : SlipOp) (slot : Nat) (rel : Bool) (kind : ItemKind) : (k.hold o slot rel kind).relWait = k.relWait := rfl
@[simp] theorem Core.hold_relItem (k : Core) (o : SlipOp) (slot : Nat) (rel : Bool) (kind : ItemKind) : (k.hold o slot rel kind).relItem = k.relItem := rfl
@[simp] theorem Core.hold_expMax (k : Core) (o : SlipOp) (slot : Nat) (rel : Bool) (kind : ItemKind) : (k.hold o slot rel kind).expMax = k.expMax := rfl
@[simp] theorem Core.hold_rcv (k : Core) (o : SlipOp) (slot : Nat) (rel : Bool) (kind : ItemKind) : (k.hold o slot rel kind).rcv = k.rcv := rfl
@[simp] theorem Core.hold_subm (k : Core) (o : SlipOp) (slot : Nat) (rel : Bool) (kind : ItemKind) : (k.hold o slot rel kind).subm = k.subm := rfl
@[simp] theorem Core.hold_cstall (k : Core) (o : SlipOp) (slot : Nat) (rel : Bool) (kind : ItemKind) : (k.hold o slot rel kind).cstall = k.cstall := rfl
@[simp] theorem Core.hold_ports (k : Core) (o : SlipOp) (slot : Nat) (rel : Bool) (kind : ItemKind) : (k.hold o slot rel kind).ports = k.ports := rfl
@[simp] theorem Core.hold_outs (k : Core) (o : SlipOp) (slot : Nat) (rel : Bool) (kind : ItemKind) : (k.hold o slot rel kind).outs = k.outs := rfl
@[simp] theorem Core.hold_l1 (k : Core) (o : SlipOp) (slot : Nat) (rel : Bool) (kind : ItemKind) : (k.hold o slot rel kind).l1 = k.l1 := rfl
@[simp] theorem Core.hold_splices (k : Core) (o : SlipOp) (slot : Nat) (rel : Bool) (kind : ItemKind) : (k.hold o slot rel kind).splices = k.splices := rfl
@[simp] theorem Core.hold_chans (k : Core) (o : SlipOp) (slot : Nat) (rel : Bool) (kind : ItemKind) : (k.hold o slot rel kind).chans = k.chans := rfl
@[simp] theorem Core.hold_async (k : Core) (o : SlipOp) (slot : Nat) (rel : Bool) (kind : ItemKind) : (k.hold o slot rel kind).async = k.async := rfl
@[simp] theorem Core.hold_trap (k : Core) (o : SlipOp) (slot : Nat) (rel : Bool) (kind : ItemKind) : (k.hold o slot rel kind).trap = k.trap := rfl
@[simp] theorem Core.hold_rbFaults (k : Core) (o : SlipOp) (slot : Nat) (rel : Bool) (kind : ItemKind) : (k.hold o slot rel kind).rbFaults = k.rbFaults := rfl
@[simp] theorem Core.hold_rbMach (k : Core) (o : SlipOp) (slot : Nat) (rel : Bool) (kind : ItemKind) : (k.hold o slot rel kind).rbMach = k.rbMach := rfl
@[simp] theorem Core.hold_rbBase (k : Core) (o : SlipOp) (slot : Nat) (rel : Bool) (kind : ItemKind) : (k.hold o slot rel kind).rbBase = k.rbBase := rfl
@[simp] theorem Core.hold_lastAct (k : Core) (o : SlipOp) (slot : Nat) (rel : Bool) (kind : ItemKind) : (k.hold o slot rel kind).lastAct = k.lastAct := rfl
@[simp] theorem Core.hold_item (k : Core) (o : SlipOp) (slot : Nat) (rel : Bool) (kind : ItemKind) : (k.hold o slot rel kind).item = k.item := rfl
@[simp] theorem Core.hold_lastOwner (k : Core) (o : SlipOp) (slot : Nat) (rel : Bool) (kind : ItemKind) : (k.hold o slot rel kind).lastOwner = k.lastOwner := rfl
@[simp] theorem Core.hold_arrived (k : Core) (o : SlipOp) (slot : Nat) (rel : Bool) (kind : ItemKind) : (k.hold o slot rel kind).arrived = k.arrived := rfl
@[simp] theorem Core.hold_goSync (k : Core) (o : SlipOp) (slot : Nat) (rel : Bool) (kind : ItemKind) : (k.hold o slot rel kind).goSync = k.goSync := rfl
@[simp] theorem Core.hold_halting (k : Core) (o : SlipOp) (slot : Nat) (rel : Bool) (kind : ItemKind) : (k.hold o slot rel kind).halting = k.halting := rfl
@[simp] theorem Core.hold_serial (k : Core) (o : SlipOp) (slot : Nat) (rel : Bool) (kind : ItemKind) : (k.hold o slot rel kind).serial = k.serial := rfl
@[simp] theorem Core.hold_freeAt (k : Core) (o : SlipOp) (slot : Nat) (rel : Bool) (kind : ItemKind) : (k.hold o slot rel kind).freeAt = k.freeAt := rfl

@[simp] theorem Core.setBase_pend (k : Core) (d : Dst) (v : W64) : (k.setBase d v).pend = k.pend := by cases d with | reg n => simp only [Core.setBase]; split <;> rfl | pred n => rfl
@[simp] theorem Core.setBase_queues (k : Core) (d : Dst) (v : W64) : (k.setBase d v).queues = k.queues := by cases d with | reg n => simp only [Core.setBase]; split <;> rfl | pred n => rfl
@[simp] theorem Core.setBase_lays (k : Core) (d : Dst) (v : W64) : (k.setBase d v).lays = k.lays := by cases d with | reg n => simp only [Core.setBase]; split <;> rfl | pred n => rfl
@[simp] theorem Core.setBase_rts (k : Core) (d : Dst) (v : W64) : (k.setBase d v).rts = k.rts := by cases d with | reg n => simp only [Core.setBase]; split <;> rfl | pred n => rfl
@[simp] theorem Core.setBase_ctrs (k : Core) (d : Dst) (v : W64) : (k.setBase d v).ctrs = k.ctrs := by cases d with | reg n => simp only [Core.setBase]; split <;> rfl | pred n => rfl
@[simp] theorem Core.setBase_spad (k : Core) (d : Dst) (v : W64) : (k.setBase d v).spad = k.spad := by cases d with | reg n => simp only [Core.setBase]; split <;> rfl | pred n => rfl
@[simp] theorem Core.setBase_empty (k : Core) (d : Dst) (v : W64) : (k.setBase d v).empty = k.empty := by cases d with | reg n => simp only [Core.setBase]; split <;> rfl | pred n => rfl
@[simp] theorem Core.setBase_acc (k : Core) (d : Dst) (v : W64) : (k.setBase d v).acc = k.acc := by cases d with | reg n => simp only [Core.setBase]; split <;> rfl | pred n => rfl
@[simp] theorem Core.setBase_shadow (k : Core) (d : Dst) (v : W64) : (k.setBase d v).shadow = k.shadow := by cases d with | reg n => simp only [Core.setBase]; split <;> rfl | pred n => rfl
@[simp] theorem Core.setBase_dirty (k : Core) (d : Dst) (v : W64) : (k.setBase d v).dirty = k.dirty := by cases d with | reg n => simp only [Core.setBase]; split <;> rfl | pred n => rfl
@[simp] theorem Core.setBase_banks (k : Core) (d : Dst) (v : W64) : (k.setBase d v).banks = k.banks := by cases d with | reg n => simp only [Core.setBase]; split <;> rfl | pred n => rfl
@[simp] theorem Core.setBase_jobs (k : Core) (d : Dst) (v : W64) : (k.setBase d v).jobs = k.jobs := by cases d with | reg n => simp only [Core.setBase]; split <;> rfl | pred n => rfl
@[simp] theorem Core.setBase_bankJobs (k : Core) (d : Dst) (v : W64) : (k.setBase d v).bankJobs = k.bankJobs := by cases d with | reg n => simp only [Core.setBase]; split <;> rfl | pred n => rfl
@[simp] theorem Core.setBase_conv (k : Core) (d : Dst) (v : W64) : (k.setBase d v).conv = k.conv := by cases d with | reg n => simp only [Core.setBase]; split <;> rfl | pred n => rfl
@[simp] theorem Core.setBase_stream (k : Core) (d : Dst) (v : W64) : (k.setBase d v).stream = k.stream := by cases d with | reg n => simp only [Core.setBase]; split <;> rfl | pred n => rfl
@[simp] theorem Core.setBase_loop (k : Core) (d : Dst) (v : W64) : (k.setBase d v).loop = k.loop := by cases d with | reg n => simp only [Core.setBase]; split <;> rfl | pred n => rfl
@[simp] theorem Core.setBase_pc (k : Core) (d : Dst) (v : W64) : (k.setBase d v).pc = k.pc := by cases d with | reg n => simp only [Core.setBase]; split <;> rfl | pred n => rfl
@[simp] theorem Core.setBase_handler (k : Core) (d : Dst) (v : W64) : (k.setBase d v).handler = k.handler := by cases d with | reg n => simp only [Core.setBase]; split <;> rfl | pred n => rfl
@[simp] theorem Core.setBase_target (k : Core) (d : Dst) (v : W64) : (k.setBase d v).target = k.target := by cases d with | reg n => simp only [Core.setBase]; split <;> rfl | pred n => rfl
@[simp] theorem Core.setBase_sys (k : Core) (d : Dst) (v : W64) : (k.setBase d v).sys = k.sys := by cases d with | reg n => simp only [Core.setBase]; split <;> rfl | pred n => rfl
@[simp] theorem Core.setBase_ctl (k : Core) (d : Dst) (v : W64) : (k.setBase d v).ctl = k.ctl := by cases d with | reg n => simp only [Core.setBase]; split <;> rfl | pred n => rfl
@[simp] theorem Core.setBase_opbBase (k : Core) (d : Dst) (v : W64) : (k.setBase d v).opbBase = k.opbBase := by cases d with | reg n => simp only [Core.setBase]; split <;> rfl | pred n => rfl
@[simp] theorem Core.setBase_opbHit (k : Core) (d : Dst) (v : W64) : (k.setBase d v).opbHit = k.opbHit := by cases d with | reg n => simp only [Core.setBase]; split <;> rfl | pred n => rfl
@[simp] theorem Core.setBase_slots (k : Core) (d : Dst) (v : W64) : (k.setBase d v).slots = k.slots := by cases d with | reg n => simp only [Core.setBase]; split <;> rfl | pred n => rfl
@[simp] theorem Core.setBase_seqNo (k : Core) (d : Dst) (v : W64) : (k.setBase d v).seqNo = k.seqNo := by cases d with | reg n => simp only [Core.setBase]; split <;> rfl | pred n => rfl
@[simp] theorem Core.setBase_bundleNo (k : Core) (d : Dst) (v : W64) : (k.setBase d v).bundleNo = k.bundleNo := by cases d with | reg n => simp only [Core.setBase]; split <;> rfl | pred n => rfl
@[simp] theorem Core.setBase_rot (k : Core) (d : Dst) (v : W64) : (k.setBase d v).rot = k.rot := by cases d with | reg n => simp only [Core.setBase]; split <;> rfl | pred n => rfl
@[simp] theorem Core.setBase_ival (k : Core) (d : Dst) (v : W64) : (k.setBase d v).ival = k.ival := by cases d with | reg n => simp only [Core.setBase]; split <;> rfl | pred n => rfl
@[simp] theorem Core.setBase_ckSeq (k : Core) (d : Dst) (v : W64) : (k.setBase d v).ckSeq = k.ckSeq := by cases d with | reg n => simp only [Core.setBase]; split <;> rfl | pred n => rfl
@[simp] theorem Core.setBase_dup (k : Core) (d : Dst) (v : W64) : (k.setBase d v).dup = k.dup := by cases d with | reg n => simp only [Core.setBase]; split <;> rfl | pred n => rfl
@[simp] theorem Core.setBase_items (k : Core) (d : Dst) (v : W64) : (k.setBase d v).items = k.items := by cases d with | reg n => simp only [Core.setBase]; split <;> rfl | pred n => rfl
@[simp] theorem Core.setBase_sent (k : Core) (d : Dst) (v : W64) : (k.setBase d v).sent = k.sent := by cases d with | reg n => simp only [Core.setBase]; split <;> rfl | pred n => rfl
@[simp] theorem Core.setBase_relWait (k : Core) (d : Dst) (v : W64) : (k.setBase d v).relWait = k.relWait := by cases d with | reg n => simp only [Core.setBase]; split <;> rfl | pred n => rfl
@[simp] theorem Core.setBase_relItem (k : Core) (d : Dst) (v : W64) : (k.setBase d v).relItem = k.relItem := by cases d with | reg n => simp only [Core.setBase]; split <;> rfl | pred n => rfl
@[simp] theorem Core.setBase_expMax (k : Core) (d : Dst) (v : W64) : (k.setBase d v).expMax = k.expMax := by cases d with | reg n => simp only [Core.setBase]; split <;> rfl | pred n => rfl
@[simp] theorem Core.setBase_rcv (k : Core) (d : Dst) (v : W64) : (k.setBase d v).rcv = k.rcv := by cases d with | reg n => simp only [Core.setBase]; split <;> rfl | pred n => rfl
@[simp] theorem Core.setBase_subm (k : Core) (d : Dst) (v : W64) : (k.setBase d v).subm = k.subm := by cases d with | reg n => simp only [Core.setBase]; split <;> rfl | pred n => rfl
@[simp] theorem Core.setBase_cstall (k : Core) (d : Dst) (v : W64) : (k.setBase d v).cstall = k.cstall := by cases d with | reg n => simp only [Core.setBase]; split <;> rfl | pred n => rfl
@[simp] theorem Core.setBase_ports (k : Core) (d : Dst) (v : W64) : (k.setBase d v).ports = k.ports := by cases d with | reg n => simp only [Core.setBase]; split <;> rfl | pred n => rfl
@[simp] theorem Core.setBase_outs (k : Core) (d : Dst) (v : W64) : (k.setBase d v).outs = k.outs := by cases d with | reg n => simp only [Core.setBase]; split <;> rfl | pred n => rfl
@[simp] theorem Core.setBase_l1 (k : Core) (d : Dst) (v : W64) : (k.setBase d v).l1 = k.l1 := by cases d with | reg n => simp only [Core.setBase]; split <;> rfl | pred n => rfl
@[simp] theorem Core.setBase_splices (k : Core) (d : Dst) (v : W64) : (k.setBase d v).splices = k.splices := by cases d with | reg n => simp only [Core.setBase]; split <;> rfl | pred n => rfl
@[simp] theorem Core.setBase_chans (k : Core) (d : Dst) (v : W64) : (k.setBase d v).chans = k.chans := by cases d with | reg n => simp only [Core.setBase]; split <;> rfl | pred n => rfl
@[simp] theorem Core.setBase_async (k : Core) (d : Dst) (v : W64) : (k.setBase d v).async = k.async := by cases d with | reg n => simp only [Core.setBase]; split <;> rfl | pred n => rfl
@[simp] theorem Core.setBase_trap (k : Core) (d : Dst) (v : W64) : (k.setBase d v).trap = k.trap := by cases d with | reg n => simp only [Core.setBase]; split <;> rfl | pred n => rfl
@[simp] theorem Core.setBase_rbFaults (k : Core) (d : Dst) (v : W64) : (k.setBase d v).rbFaults = k.rbFaults := by cases d with | reg n => simp only [Core.setBase]; split <;> rfl | pred n => rfl
@[simp] theorem Core.setBase_rbMach (k : Core) (d : Dst) (v : W64) : (k.setBase d v).rbMach = k.rbMach := by cases d with | reg n => simp only [Core.setBase]; split <;> rfl | pred n => rfl
@[simp] theorem Core.setBase_rbBase (k : Core) (d : Dst) (v : W64) : (k.setBase d v).rbBase = k.rbBase := by cases d with | reg n => simp only [Core.setBase]; split <;> rfl | pred n => rfl
@[simp] theorem Core.setBase_lastAct (k : Core) (d : Dst) (v : W64) : (k.setBase d v).lastAct = k.lastAct := by cases d with | reg n => simp only [Core.setBase]; split <;> rfl | pred n => rfl
@[simp] theorem Core.setBase_item (k : Core) (d : Dst) (v : W64) : (k.setBase d v).item = k.item := by cases d with | reg n => simp only [Core.setBase]; split <;> rfl | pred n => rfl
@[simp] theorem Core.setBase_lastOwner (k : Core) (d : Dst) (v : W64) : (k.setBase d v).lastOwner = k.lastOwner := by cases d with | reg n => simp only [Core.setBase]; split <;> rfl | pred n => rfl
@[simp] theorem Core.setBase_arrived (k : Core) (d : Dst) (v : W64) : (k.setBase d v).arrived = k.arrived := by cases d with | reg n => simp only [Core.setBase]; split <;> rfl | pred n => rfl
@[simp] theorem Core.setBase_goSync (k : Core) (d : Dst) (v : W64) : (k.setBase d v).goSync = k.goSync := by cases d with | reg n => simp only [Core.setBase]; split <;> rfl | pred n => rfl
@[simp] theorem Core.setBase_halting (k : Core) (d : Dst) (v : W64) : (k.setBase d v).halting = k.halting := by cases d with | reg n => simp only [Core.setBase]; split <;> rfl | pred n => rfl
@[simp] theorem Core.setBase_serial (k : Core) (d : Dst) (v : W64) : (k.setBase d v).serial = k.serial := by cases d with | reg n => simp only [Core.setBase]; split <;> rfl | pred n => rfl
@[simp] theorem Core.setBase_freeAt (k : Core) (d : Dst) (v : W64) : (k.setBase d v).freeAt = k.freeAt := by cases d with | reg n => simp only [Core.setBase]; split <;> rfl | pred n => rfl

/-- A register or predicate written reads back, but for s0 (R12). -/
theorem Core.base_setBase_same (k : Core) (d : Dst) (v : W64) (h : d ≠ .reg 0) : (k.setBase d v).base d = v := by
  cases d with
  | reg n => have h1 : n ≠ 0 := fun e => h (by rw [e]); simp [Core.setBase, Core.base, h1]
  | pred n => simp [Core.setBase, Core.base]

/-- Writing one register or predicate leaves every other alone. -/
theorem Core.base_setBase_ne (k : Core) (d e : Dst) (v : W64) (h : e ≠ d) : (k.setBase d v).base e = k.base e := by
  cases d with
  | reg n =>
    simp only [Core.setBase]
    split
    · rfl
    · cases e with
      | reg m => have h1 : m ≠ n := fun q => h (by rw [q]); simp [Core.base, Tab.get_set_ne _ _ _ _ _ h1]
      | pred m => rfl
  | pred n =>
    cases e with
    | reg m => rfl
    | pred m => have h1 : m ≠ n := fun q => h (by rw [q]); simp [Core.setBase, Core.base, Tab.get_set_ne _ _ _ _ _ h1]

/-- s0 reads 0 (R12). -/
@[simp] theorem Core.base_zero (k : Core) : k.base (.reg 0) = 0 := rfl
@[simp] theorem Core.readReg_zero (k : Core) (o : SlipOp) (b : Bool) : k.readReg o b 0 = .val 0 := rfl
@[simp] theorem Core.readersDone_nil (k : Core) : k.readersDone [] = k := rfl
@[simp] theorem Core.queue_setQueue_same (k : Core) (q : Nat) (v : Queue) : (k.setQueue q v).queue q = v := by simp [Core.queue, Core.setQueue]

end Sys2Proof.Machine
end

