-- ==== Sys2Proof/Laws/Ops.lean ====
section
/-! SUPPORT. What each shared operation does, said once: how an op of one core ends, its sources, its result, its scratchpad and global
accesses, its stores and held items, an exception and the return from one. A proof about an instruction cites these and unfolds none of them. -/
namespace Sys2Proof.Machine

/-! ## How an op of one core ends -/

/-- The next state of an outcome. -/
def State.outcome (s : State) (i : Instr) : OpRes → State
  | .done k evs => s.doneWith k evs
  | .wait => s.requeue i
  | .trap c d a => s.raise c d a

/-- Everything an op of one core can do: it answers a next state, that of its outcome. -/
theorem State.coreOp_eq (s : State) (i : Instr) (f : SlipOp → Core → OpRes) : s.coreOp i f = .next (s.outcome i (f s.cur.op s.me)) := by
  unfold State.coreOp State.outcome State.me
  cases f s.cur.op (s.core s.cur.core) <;> rfl

theorem State.coreOp_done (s : State) (i : Instr) (f : SlipOp → Core → OpRes) (k : Core) (evs : List Ev) (h : f s.cur.op s.me = .done k evs) :
    s.coreOp i f = .next (s.doneWith k evs) := by rw [s.coreOp_eq, h]; rfl
theorem State.coreOp_wait (s : State) (i : Instr) (f : SlipOp → Core → OpRes) (h : f s.cur.op s.me = .wait) : s.coreOp i f = .next (s.requeue i) := by
  rw [s.coreOp_eq, h]; rfl
theorem State.coreOp_trap (s : State) (i : Instr) (f : SlipOp → Core → OpRes) (c d : Nat) (a : W64) (h : f s.cur.op s.me = .trap c d a) :
    s.coreOp i f = .next (s.raise c d a) := by rw [s.coreOp_eq, h]; rfl

/-! ## Sources -/

@[simp] theorem Src.bind_val {α : Type} (v : α) (f : α → OpRes) : (Src.val v).bind f = f v := rfl
@[simp] theorem Src.bind_wait {α : Type} (f : α → OpRes) : (Src.wait).bind f = .wait := rfl
@[simp] theorem Src.bind_fault {α : Type} (c d : Nat) (f : α → OpRes) : (Src.fault c d).bind f = .trap c d 0 := rfl

/-- A register that has a value hands it to the rest. -/
theorem State.Has.bind {s : State} {b : Bool} {r : BitVec 6} {v : W64} (h : s.Has b r v) (f : W64 → OpRes) :
    (s.me.readReg s.cur.op b r.toNat).bind f = f v := by unfold State.Has at h; rw [h]; rfl
/-- A register that is waited for makes the op wait. -/
theorem State.Awaits.bind {s : State} {b : Bool} {r : BitVec 6} (h : s.Awaits b r) (f : W64 → OpRes) :
    (s.me.readReg s.cur.op b r.toNat).bind f = .wait := by unfold State.Awaits at h; rw [h]; rfl
theorem State.Has.reg {s : State} {b : Bool} {r : BitVec 6} {v : W64} (h : s.Has b r v) (i : Instr) (f : W64 → Res) :
    s.reg i b r.toNat f = f v := by unfold State.Has State.me at h; simp [State.reg, h]
theorem State.Awaits.reg {s : State} {b : Bool} {r : BitVec 6} (h : s.Awaits b r) (i : Instr) (f : W64 → Res) :
    s.reg i b r.toNat f = .next (s.requeue i) := by unfold State.Awaits State.me at h; simp [State.reg, h]
/-- A source that its issue captured has that value. -/
theorem Core.readReg_captured (k : Core) (o : SlipOp) (b : Bool) (r : Nat) (v : W64) (hr : r ≠ 0) (h : Tab.findL o.caps r = some (.val v)) :
    k.readReg o b r = .val v := by simp [Core.readReg, hr, h]
/-- A source for which nothing is captured and nothing is pending is the register. -/
theorem Core.readReg_base (k : Core) (o : SlipOp) (b : Bool) (r : Nat) (hr : r ≠ 0) (hc : Tab.findL o.caps r = none)
    (hp : pendFor k.pend (.reg r) k.bundleNo = none) : k.readReg o b r = .val (k.base (.reg r)) := by simp [Core.readReg, hr, hc, hp]
/-- The guard 31 is all ones (R15). -/
@[simp] theorem Core.guardMask_all (k : Core) (o : SlipOp) : k.guardMask o 31 = BitVec.allOnes 64 := rfl
@[simp] theorem Core.guard_all (k : Core) (o : SlipOp) : k.guard o 31 = true := by simp [Core.guard]

/-! ## Results -/

/-- A result whose destination is free is the op's end. -/
theorem State.Free.put {s : State} {d : Dst} (h : s.Free d) (v : W64) : s.me.put s.cur.op d v = .done (s.me.result s.cur.op d v) [] := by
  unfold State.Free at h; simp [Core.put, h]
theorem Core.put_blocked (k : Core) (o : SlipOp) (d : Dst) (v : W64) (h : k.blocked o d = true) : k.put o d v = .wait := by simp [Core.put, h]
/-- Nothing keeps R0 (R14). -/
theorem State.free_zero (s : State) : s.Free (.reg 0) := by simp [State.Free, Core.blocked]
/-- Nothing pending, every destination free. -/
theorem State.free_of_empty (s : State) (d : Dst) (h : s.me.pend = []) : s.Free d := by simp [State.Free, Core.blocked, h]

theorem Core.result_direct (k : Core) (o : SlipOp) (d : Dst) (v : W64) (h : o.tk = none) : k.result o d v = k.setBase d v := by simp [Core.result, h]
theorem Core.result_ticket (k : Core) (o : SlipOp) (d : Dst) (v : W64) (t : Nat) (h : o.tk = some t) : k.result o d v = k.land t v := by
  simp [Core.result, h]
/-- A register written is read back; R0 is not written (R12). -/
theorem Core.base_setBase (k : Core) (d : Dst) (v : W64) (h : d ≠ .reg 0) : (k.setBase d v).base d = v := by
  cases d with
  | reg n => have : n ≠ 0 := fun e => h (by rw [e]); simp [Core.setBase, Core.base, this]
  | pred n => simp [Core.setBase, Core.base]
@[simp] theorem Core.setBase_zero (k : Core) (v : W64) : k.setBase (.reg 0) v = k := rfl
/-- A value that lands changes no settled register. -/
@[simp] theorem Core.land_base (k : Core) (t : Nat) (v : W64) (d : Dst) : (k.land t v).base d = k.base d := by cases d <;> rfl
/-- A result has landed (R13, R31). -/
theorem Core.landed_result (k : Core) (o : SlipOp) (d : Dst) (v : W64) : Landed (k.result o d v) o d v := by
  unfold Landed Core.result
  cases h : o.tk with
  | none => by_cases e : d = .reg 0
            · exact Or.inl e
            · exact Or.inr (Core.base_setBase k d v e)
  | some t =>
    intro p hp ht
    simp only [Core.land, List.mem_map] at hp
    obtain ⟨q, _, rfl⟩ := hp
    by_cases e : q.tk = t
    · simp [e]
    · simp [e] at ht
/-- A result changes registers, predicates and pending results, nothing else of the core. -/
theorem Core.result_regsOnly (k : Core) (o : SlipOp) (d : Dst) (v : W64) : Core.regsOnly k (k.result o d v) := by
  unfold Core.regsOnly Core.result Core.land Core.setBase
  cases o.tk with
  | some t => rfl
  | none => cases d with
    | pred n => rfl
    | reg n => dsimp only; split <;> rfl
/-- The ticket of a later result touches pending results and the running number alone. -/
theorem Core.feTicket_regsOnly (k : Core) (o : SlipOp) (r : Nat) : Core.regsOnly k (k.feTicket o r).2 := by
  unfold Core.regsOnly Core.feTicket
  cases o.tk <;> rfl

/-- The readers of an op are counted down: only queues change. -/
theorem Core.readersDone_eq (k : Core) (l : List (Nat × Nat)) : k.readersDone l = { k with queues := (k.readersDone l).queues } := by
  unfold Core.readersDone
  induction l generalizing k with
  | nil => rfl
  | cons p r ih => simp only [List.foldl_cons]; rw [ih]; rfl

/-! ## The op that is done: its frame -/

@[simp] theorem State.doneWith_core (s : State) (k : Core) (evs : List Ev) : (s.doneWith k evs).core s.cur.core = k.readersDone s.cur.op.srcs := by
  simp [State.doneWith]
theorem State.doneWith_core_ne (s : State) (k : Core) (evs : List Ev) (c : Nat) (h : c ≠ s.cur.core) : (s.doneWith k evs).core c = s.core c := by
  simp [State.doneWith, State.core_setCore_ne _ _ _ _ h]
@[simp] theorem State.doneWith_pending (s : State) (k : Core) (evs : List Ev) : (s.doneWith k evs).clk.pending = s.clk.pending ++ evs := rfl
/-- A done op changes its core and the events in flight, nothing else. -/
theorem State.doneWith_coreOnly (s : State) (k : Core) (evs : List Ev) : s.coreOnly (s.doneWith k evs) s.cur.core :=
  ⟨rfl, fun x h => s.doneWith_core_ne k evs x h⟩
/-- No byte of any memory changes where the core's scratchpad stays. -/
theorem State.doneWith_byteAt (s : State) (k : Core) (evs : List Ev) (h : k.spad = s.me.spad) (sp : Space) (a : Nat) :
    (s.doneWith k evs).byteAt sp a = s.byteAt sp a := by
  cases sp with
  | spad c =>
    by_cases e : c = s.cur.core
    · subst e
      simp only [State.byteAt, State.doneWith_core]
      rw [Core.readersDone_eq]
      simp only [h, State.me]
    · simp only [State.byteAt, s.doneWith_core_ne k evs c e]
  | host => rfl
  | view d => rfl
  | ws d => rfl
/-- A result changes no byte of any memory. -/
theorem State.gives_byteAt (s : State) (d : Dst) (v : W64) (sp : Space) (a : Nat) : (s.gives d v).byteAt sp a = s.byteAt sp a := by
  refine s.doneWith_byteAt _ _ ?_ sp a
  have h := Core.result_regsOnly s.me s.cur.op d v
  unfold Core.regsOnly at h
  rw [h]
/-- A waiting op changes no byte of any memory and no register: it goes back to the head of its slot. -/
@[simp] theorem State.requeue_core (s : State) (i : Instr) : (s.requeue i).core s.cur.core =
    { s.me with slots := s.me.slots.set s.cur.slot ({ s.cur.op with op := i, waits := true } :: s.me.slots.get s.cur.slot []) } := by
  simp [State.requeue, State.me]
theorem State.requeue_core_ne (s : State) (i : Instr) (c : Nat) (h : c ≠ s.cur.core) : (s.requeue i).core c = s.core c :=
  State.core_modCore_ne _ _ _ _ h
theorem State.requeue_byteAt (s : State) (i : Instr) (sp : Space) (a : Nat) : (s.requeue i).byteAt sp a = s.byteAt sp a := by
  cases sp with
  | spad c =>
    by_cases e : c = s.cur.core
    · subst e; simp only [State.byteAt, State.requeue_core, State.me]
    · simp only [State.byteAt, s.requeue_core_ne i c e]
  | host => rfl
  | view d => rfl
  | ws d => rfl

/-! ## Scratchpad and global addresses (R109, R253) -/

/-- The checks of an access pass exactly where these three hold. -/
theorem Core.spadCheck_none (k : Core) (c : Nat) (ea : W64) (n align : Nat) :
    k.spadCheck c ea n align = none ↔ ea.toNat % align = 0 ∧ ea.toNat < spadSize c ∧ ea.toNat + n ≤ k.limSpad := by
  unfold Core.spadCheck
  constructor
  · intro h
    split at h
    · cases h
    · split at h
      · cases h
      · split at h
        · cases h
        · rename_i h1 h2 h3; simp only [bne_iff_ne, ne_eq, Decidable.not_not] at h1; exact ⟨h1, by omega, by omega⟩
  · rintro ⟨h1, h2, h3⟩
    rw [if_neg (by simp [h1]), if_neg (by omega), if_neg (by omega)]
theorem State.spadAt_ok (s : State) (i : Instr) (ea : W64) (n : Nat) (rd : Bool) (f : Nat → Res) (h : s.SpadOk ea n) (hr : rd = true → s.SpadReady ea n) :
    s.spadAt i ea n n rd f = f ea.toNat := by
  have hc := (Core.spadCheck_none (s.core s.cur.core) s.cur.core ea n n).2 h
  simp only [State.spadAt, hc]
  cases rd with
  | false => rfl
  | true => obtain ⟨h1, h2, h3⟩ := hr rfl; simp only [State.me] at h1 h2 h3; simp [h1, h2, h3]
theorem State.spadAt_fault (s : State) (i : Instr) (ea : W64) (n align c d : Nat) (rd : Bool) (f : Nat → Res)
    (h : s.me.spadCheck s.cur.core ea n align = some (c, d)) : s.spadAt i ea n align rd f = .next (s.raise c d ea) := by
  simp only [State.me] at h; simp only [State.spadAt, h]
theorem State.globalAt_maps (s : State) (i : Instr) (ea : W64) (a : Acc) (n pa : Nat) (f : Nat → Res) (h : s.Maps ea a n pa) :
    s.globalAt i ea a n f = f pa := by unfold State.Maps at h; simp only [State.globalAt, h]
theorem State.globalAt_fault (s : State) (i : Instr) (ea : W64) (a : Acc) (n c d : Nat) (f : Nat → Res)
    (h : s.translate s.cur.core 0 (s.pasidOf s.cur.core) ea a n = .fault c d) : s.globalAt i ea a n f = .next ((s.clearWalk s.cur.core 0 ea).raise c d ea) := by
  simp only [State.globalAt, h]
theorem State.globalAt_miss (s : State) (i : Instr) (ea : W64) (a : Acc) (n : Nat) (f : Nat → Res)
    (h : s.translate s.cur.core 0 (s.pasidOf s.cur.core) ea a n = .miss) :
    s.globalAt i ea a n f = .next ((s.askWalk s.cur.core 0 (s.pasidOf s.cur.core) ea).requeue i) := by
  simp only [State.globalAt, h]

/-! ## Stores and held items (R111, R388) -/

/-- A store of a core that withholds, with room, goes to the buffer; of an earlier interval, its release is tried again. -/
theorem State.actStore_holds (s : State) (glob : Bool) (cells : List (Nat × BitVec 8)) (fe : List (Nat × Bool)) (vas : List (Nat × W64)) (addr : W64) (k : Core)
    (h : s.Holding) (hk : (s.me.readersDone s.cur.op.srcs).withhold s.cur.op s.cur.slot glob cells fe vas = some k) :
    s.actStore glob cells fe vas addr = .next (if s.cur.op.ival < s.me.ival then (s.setCore s.cur.core k).poke s.cur.core else s.setCore s.cur.core k) := by
  unfold State.Holding State.me at h; simp only [State.me] at hk ⊢
  simp [State.actStore, h, hk]; rfl
/-- Without room it faults (R111). -/
theorem State.actStore_full (s : State) (glob : Bool) (cells : List (Nat × BitVec 8)) (fe : List (Nat × Bool)) (vas : List (Nat × W64)) (addr : W64)
    (h : s.Holding) (hk : (s.me.readersDone s.cur.op.srcs).withhold s.cur.op s.cur.slot glob cells fe vas = none) :
    s.actStore glob cells fe vas addr = .next (s.raise 0x08 0x01 0) := by
  unfold State.Holding State.me at h; simp only [State.me] at hk
  simp [State.actStore, h, hk]
/-- A scratchpad store of a core that does not withhold is written at once. -/
theorem State.actStore_now (s : State) (cells : List (Nat × BitVec 8)) (fe : List (Nat × Bool)) (vas : List (Nat × W64)) (addr : W64) (h : ¬ s.Holding) :
    s.actStore false cells fe vas addr = .next (s.setCore s.cur.core (fe.foldl (fun k f => k.setFull f.1 f.2)
      { s.me.readersDone s.cur.op.srcs with spad := (s.me.readersDone s.cur.op.srcs).spad.writeAll cells })) := by
  unfold State.Holding State.me at h; simp only [State.me]
  simp only [Bool.not_eq_true] at h
  simp [State.actStore, h]
theorem State.actItem_holds (s : State) (i : Instr) (rel : Bool) (kind : ItemKind) (h : s.Holding) :
    s.actItem i rel kind = .next (if s.cur.op.ival < s.me.ival then (s.modCore s.cur.core (fun k => k.hold s.cur.op s.cur.slot rel kind)).poke s.cur.core
      else s.modCore s.cur.core (fun k => k.hold s.cur.op s.cur.slot rel kind)) := by
  unfold State.Holding State.me at h; simp only [State.me]
  simp [State.actItem, h]; rfl
/-- Room is room for one line, whatever is open (R111). -/
theorem Core.withhold_room (k : Core) (o : SlipOp) (slot : Nat) (glob : Bool) (cells : List (Nat × BitVec 8)) (fe : List (Nat × Bool)) (vas : List (Nat × W64))
    (h : k.entryCount + (nub (linesOf cells ++ fe.map (fun p => p.1 / 8))).length ≤ Config.bufEntries) :
    k.withhold o slot glob cells fe vas = some ((nub (linesOf cells ++ fe.map (fun p => p.1 / 8))).foldl (Core.withhold1 (o.place k) o slot glob cells fe vas) k) := by
  have hl := List.length_filter_le (fun l => (k.openEntry glob l (o.place k) o.ival).isNone) (nub (linesOf cells ++ fe.map (fun p => p.1 / 8)))
  simp only [Core.withhold]
  rw [if_neg]
  simp only [Bool.and_eq_true, decide_eq_true_eq, not_and, Nat.not_lt]
  intro _
  omega
/-- An item placed among others is there, and so are they. -/
theorem mem_insertItem (l : List Item) (i x : Item) : x ∈ insertItem l i ↔ x = i ∨ x ∈ l := by
  induction l with
  | nil => simp [insertItem]
  | cons j r ih =>
    unfold insertItem
    split
    · simp only [List.mem_cons, ih]; constructor
      · rintro (h | h | h) <;> simp [h]
      · rintro (h | h | h) <;> simp [h]
    · simp

/-! ## An exception and the return from one (R386, R195, R389) -/

@[simp] theorem Core.enterHandler_handler (k : Core) (f : FaultRec) : (k.enterHandler f).handler = true := rfl
@[simp] theorem Core.enterHandler_pc (k : Core) (f : FaultRec) : (k.enterHandler f).pc = k.sys.tvec := rfl
@[simp] theorem Core.enterHandler_tcause (k : Core) (f : FaultRec) : (k.enterHandler f).sys.tcause = w64 (f.code % 256) := rfl
@[simp] theorem Core.enterHandler_tpc (k : Core) (f : FaultRec) : (k.enterHandler f).sys.tpc = f.pc := rfl
@[simp] theorem Core.enterHandler_tinfo (k : Core) (f : FaultRec) : (k.enterHandler f).sys.tinfo = tinfoOf f := rfl
@[simp] theorem Core.enterHandler_taddr (k : Core) (f : FaultRec) : (k.enterHandler f).sys.taddr = f.addr := rfl
@[simp] theorem Core.enterHandler_base (k : Core) (f : FaultRec) (d : Dst) : (k.enterHandler f).base d = k.base d := by cases d <;> rfl
@[simp] theorem Core.leaveHandler_handler (k : Core) (b : Bool) : (k.leaveHandler b).handler = false := rfl
@[simp] theorem Core.leaveHandler_pc (k : Core) (b : Bool) : (k.leaveHandler b).pc = if b then k.sys.tpc else k.sys.trst := rfl
@[simp] theorem Core.leaveHandler_base (k : Core) (b : Bool) (d : Dst) : (k.leaveHandler b).base d = k.base d := by cases d <;> rfl
/-- A control core with a handler, not in it, takes a fault at once. -/
theorem State.takeFault_ctl (s : State) (c : Nat) (f : FaultRec) (trst : W64) (hc : isCtl c = true) (hh : (s.core c).handler = false) (hv : (s.core c).sys.tvec ≠ 0) :
    s.takeFault c f trst = s.setCore c (({ s.core c with sys := { (s.core c).sys with trst := trst } } : Core).enterHandler f) := by
  have hb : ((s.core c).sys.tvec == 0) = false := by simpa using hv
  unfold State.takeFault State.ctlFault
  simp only [hc, hh, hb, Bool.or_self, if_true, Bool.false_eq_true, if_false]
/-- A tile core starts its rollback; the first fault in time stands (R30, R383). -/
theorem State.takeFault_tile (s : State) (c : Nat) (f : FaultRec) (trst : W64) (hc : isCtl c = false) (ht : (s.core c).trap = none) :
    s.takeFault c f trst = ((s.withdraw c).modCore c (fun k => k.beginTrap (.fault f))).push (.rollbackComplete c) := by
  simp [State.takeFault, hc, ht]
theorem State.takeFault_stands (s : State) (c : Nat) (f : FaultRec) (trst : W64) (hc : isCtl c = false) (ht : (s.core c).trap.isSome = true) :
    s.takeFault c f trst = s := by
  simp [State.takeFault, hc, ht]

/-! ## The shared scalar meanings: what they give -/

/-- A binary S.R op whose sources have values and whose destination is free (R101). -/
theorem State.aluOp_gives {s : State} {o : SR} {a b : W64} (i : Instr) (op : Nat) (ha : s.Has o.ba o.a a) (hb : s.Has o.bb o.b b)
    (hf : s.Free (.reg o.d.toNat)) (hg : s.Guarded o.g) : s.aluOp i op o = .next (s.gives (.reg o.d.toNat) (alu op o.w a b)) := by
  unfold State.Guarded at hg
  refine s.coreOp_done _ _ _ _ ?_
  simp only [hg, Bool.not_true, Core.two, ha.bind, hb.bind, hf.put]; rfl
/-- A unary S.R op (R101). -/
theorem State.aluOp1_gives {s : State} {o : SR1} {a : W64} (i : Instr) (op : Nat) (ha : s.Has o.ba o.a a)
    (hf : s.Free (.reg o.d.toNat)) (hg : s.Guarded o.g) : s.aluOp1 i op o = .next (s.gives (.reg o.d.toNat) (alu1 op o.w a)) := by
  unfold State.Guarded at hg
  refine s.coreOp_done _ _ _ _ ?_
  simp only [hg, Bool.not_true, ha.bind, hf.put]; rfl
/-- A compare (R104). -/
theorem State.cmpOp_gives {s : State} {o : SR} {a b : W64} (i : Instr) (op : Nat) (ha : s.Has o.ba o.a a) (hb : s.Has o.bb o.b b)
    (hf : s.Free (.pred o.d.toNat)) (hg : s.Guarded o.g) : s.cmpOp i op o = .next (s.gives (.pred o.d.toNat) (Machine.maskOf (cmpTest op o.w a b))) := by
  unfold State.Guarded at hg
  refine s.coreOp_done _ _ _ _ ?_
  simp only [hg, Bool.not_true, Core.two, ha.bind, hb.bind, hf.put]; rfl
/-- A divide: its result comes later, and the divider is busy until then (R102). -/
theorem State.divOp_divides {s : State} {o : SR} {a b : W64} (i : Instr) (op : Nat) (ha : s.Has o.ba o.a a) (hb : s.Has o.bb o.b b) (hg : s.Guarded o.g) :
    s.divOp i op o = .next (s.divides o.d (alu op o.w a b)) := by
  unfold State.Guarded at hg
  refine s.coreOp_done _ _ _ _ ?_
  simp only [hg, Bool.not_true, Core.two, ha.bind, hb.bind]; rfl
/-- An immediate op (R105, R106) and an immediate compare (R107). -/
theorem State.immOp_gives {s : State} {d a : BitVec 6} {ba : Bool} {x : W64} (i : Instr) (op : Nat) (imm : W64) (ha : s.Has ba a x) (hf : s.Free (.reg d.toNat)) :
    s.immOp i op d ba a imm = .next (s.gives (.reg d.toNat) (aluI op x imm)) := by
  refine s.coreOp_done _ _ _ _ ?_
  simp only [ha.bind, hf.put]
theorem State.cmpImm_gives {s : State} {d a : BitVec 6} {ba : Bool} {x : W64} (i : Instr) (op : Nat) (imm : W64) (ha : s.Has ba a x) (hf : s.Free (.pred d.toNat)) :
    s.cmpImm i op d ba a imm = .next (s.gives (.pred d.toNat) (Machine.maskOf (cmpTest op false x imm))) := by
  refine s.coreOp_done _ _ _ _ ?_
  simp only [ha.bind, hf.put]
/-- A guard that is off: the op is done, and nothing else changes (R15). -/
theorem State.aluOp_off {s : State} {o : SR} (i : Instr) (op : Nat) (hg : ¬ s.Guarded o.g) : s.aluOp i op o = .next (s.doneWith s.me []) := by
  unfold State.Guarded at hg
  simp only [Bool.not_eq_true] at hg
  refine s.coreOp_done _ _ _ _ ?_
  simp only [hg, Bool.not_false]; rfl

end Sys2Proof.Machine
end

