-- ==== Sys2Proof/Tests/Slice0.lean ====
section
/-! SUPPORT. The model's own tests: words written out from the spec's encodings, a refused term for each well-formedness check, single steps on
small states with results taken from the spec, and for each statement a state and operands that meet its hypotheses. -/
namespace Sys2Proof.Tests
open Sys2Proof Sys2Proof.Machine
set_option Elab.async false

/-! ## Small states -/

/-- A tile core at a bundle boundary, with the limits of a kernel that declares everything, no queue, and some registers. -/
def tcore (regs : List (Nat × W64)) : Core := { fetchCore State.reset 0 with regs := ⟨regs⟩, queues := ⟨[]⟩ }
/-- A control core that runs a context, with some registers. -/
def ccore (regs : List (Nat × W64)) : Core := { fetchCore State.reset 128 with regs := ⟨regs⟩ }
/-- Core 0 running an op from its S slot. -/
def at0 (k : Core) (o : SlipOp) : State := { State.reset with cores := ⟨[(0, k)]⟩, cur := { core := 0, slot := 0, op := o } }
/-- Die 0's control core running an op. -/
def atC (k : Core) (o : SlipOp) : State := { State.reset with cores := ⟨[(128, k)]⟩, cur := { core := 128, slot := 0, op := o } }

/-! ## Hypotheses that can be met: scalar ops -/

def tk56 : Core := tcore [(5, 0xFFFFFFFFFFFFFFF9), (6, 2)]
def s56 : State := at0 tk56 {}
def oSR : SR := { w := false, a := 5, ba := true, b := 6, bb := true, d := 7, g := 31 }
def oSR1 : SR1 := { w := false, a := 5, ba := true, d := 7, g := 31 }
def oSRoff : SR := { oSR with g := 3 }
def oSRs5 : SR := { oSR with ba := false }
def oSI : SI := { ba := true, a := 5, d := 7, imm := 5 }
def oSIL : SIL := { ba := true, a := 5, d := 7, imm := 31 }

theorem witness_ScalarRegisterResults :
    (s56.Has oSR.ba oSR.a 0xFFFFFFFFFFFFFFF9 ∧ s56.Has oSR.bb oSR.b 2 ∧ s56.Free (.reg oSR.d.toNat) ∧ s56.Guarded oSR.g) ∧
    (s56.Has oSRoff.ba oSRoff.a 0xFFFFFFFFFFFFFFF9 ∧ s56.Has oSRoff.bb oSRoff.b 2 ∧ s56.Free (.reg oSRoff.d.toNat) ∧ ¬ s56.Guarded oSRoff.g) ∧
    (s56.Has oSR1.ba oSR1.a 0xFFFFFFFFFFFFFFF9 ∧ s56.Guarded oSR1.g ∧ s56.Free (.reg oSR1.d.toNat)) := by
  simp only [State.Has, State.Free, State.Guarded]; decide +kernel

theorem witness_ImmediateResults :
    s56.Has oSI.ba oSI.a 0xFFFFFFFFFFFFFFF9 ∧ s56.Free (.reg oSI.d.toNat) ∧ shImmOk oSI.imm.toInt = true ∧
    s56.Has oSIL.ba oSIL.a 0xFFFFFFFFFFFFFFF9 ∧ s56.Free (.reg oSIL.d.toNat) ∧ shImmOk oSIL.imm.toInt = true ∧ s56.Free (.reg 0) := by
  simp only [State.Has, State.Free]; decide +kernel

theorem witness_CompareAndPredicateResults :
    s56.Has oSR.ba oSR.a 0xFFFFFFFFFFFFFFF9 ∧ s56.Has oSR.bb oSR.b 2 ∧ s56.Guarded oSR.g ∧ s56.Free (.pred oSR.d.toNat) ∧
    s56.Has oSI.ba oSI.a 0xFFFFFFFFFFFFFFF9 ∧ s56.Free (.pred oSI.d.toNat) ∧ s56.Has oSIL.ba oSIL.a 0xFFFFFFFFFFFFFFF9 ∧
    s56.Free (.pred 23) ∧ s56.Has true 6 2 ∧ s56.Free (.reg 7) := by
  simp only [State.Has, State.Free, State.Guarded]; decide +kernel

/-- Core 0 with s5 empty: an earlier result for it is still to come. -/
def tkWait : Core := { tcore [(6, 2)] with pend := [{ tk := 1, dst := .reg 5, vis := 0, fe := true, val := none, ival := 0 }], seqNo := 5 }
/-- Its running op is an add of a wide bundle. -/
def sWait : State := at0 tkWait { op := .add oSR, single := false, seq := 3 }

theorem witness_GuardsAndResults :
    ¬ s56.Guarded oSRoff.g ∧ sWait.Guarded oSR.g ∧ sWait.Awaits oSR.ba oSR.a ∧ sWait.me.readReg sWait.cur.op oSRs5.ba oSRs5.a.toNat = .fault 0x06 0x45 ∧
    (∃ q, Tab.findL sWait.cur.op.caps 5 = none ∧ pendFor tkWait.pend (.reg 5) tkWait.bundleNo = some q ∧ q.val = none ∧ q.fe = true ∧ sWait.cur.op.single = false) ∧
    s56.cur.op.tk = none ∧ Dst.reg 5 ≠ Dst.pred 5 := by
  simp only [State.Guarded, State.Awaits]
  refine ⟨by decide +kernel, by decide +kernel, by decide +kernel, by decide +kernel, ⟨_, by decide +kernel, rfl, by decide +kernel⟩, by decide +kernel⟩

theorem witness_ScalarOpFrame : ∃ t, exec (.add oSR) s56 = .next t ∧ s56.NoTrap t := by
  refine ⟨_, rfl, ?_⟩; simp only [State.NoTrap]; decide +kernel

/-! ## Hypotheses that can be met: memory ops -/

def oSM : SM := { d := 7, ba := true, a := 5, size := 6, off := 1 }
def oSMX : SMX := { d := 7, ba := true, a := 5, size := 6, off := 8 }
def oSF : SF := { d := 7, ba := true, a := 5, off := 1 }
def oSFX : SFX := { d := 7, ba := true, a := 5, off := 8 }
/-- A tile core whose s5 is the address 0x100. -/
def s100 : State := at0 (tcore [(5, 0x100), (7, 0xAB)]) { seq := 1 }
/-- The same with the word at 0x108 empty. -/
def s100e : State := at0 { tcore [(5, 0x100), (7, 0xAB)] with empty := [33] } { seq := 1 }
/-- A control core with the same registers, and with the word at 0x108 empty. -/
def c100 : State := atC (ccore [(5, 0x100), (7, 0xAB)]) {}
def c100e : State := atC { ccore [(5, 0x100), (7, 0xAB)] with empty := [33] } {}
/-- A tile core whose base leads to the last word of the scratchpad that it may reach, the first past its declared bytes, the first past the
scratchpad, and an address that is no multiple of 8. -/
def sBase (x : W64) : State := at0 { tcore [(5, x), (7, 1)] with sys := { (tcore []).sys with lims := w64 (2097152 * 2 ^ 32 + 24 * 2 ^ 8 + 64) } } {}

theorem witness_ScratchpadLoads :
    s100.Has oSM.ba oSM.a 0x100 ∧ s100.SpadOk 0x108 8 ∧ s100.SpadReady 0x108 8 ∧ s100.Has oSMX.ba oSMX.a 0x100 ∧ s100.Has oSF.ba oSF.a 0x100 ∧ s100.Has oSFX.ba oSFX.a 0x100 ∧
    s100.me.wordFull 33 = true ∧ c100.Has oSF.ba oSF.a 0x100 ∧ c100.SpadOk 0x108 8 ∧ c100.SpadReady 0x108 8 ∧ c100.me.wordFull 33 = true ∧ ¬ c100.Holding ∧ c100.cur.op.srcs = [] ∧
    (sBase 2097136).SpadOk (2097136 + oSM.off.signExtend 64 * 8) 8 := by
  simp only [State.Has, State.SpadOk, State.SpadReady, State.Holding]; decide +kernel

theorem witness_StoresAreWithheld :
    s100.Has oSM.ba oSM.a 0x100 ∧ s100.Has true oSM.d 0xAB ∧ s100.Holding ∧ s100.cur.op.srcs = [] ∧ s100.cur.op.seq ≠ 0 ∧ s100.SpadOk 0x108 8 ∧ s100.StoreRoom false 0x108 ∧
    s100.me.wordFull 33 = true ∧ s100.SpadReady 0x108 8 ∧ s100e.me.wordFull 33 = false ∧ s100e.SpadOk 0x108 8 ∧ s100e.StoreRoom false 0x108 ∧ s100e.Holding ∧
    s100e.Has oSFX.ba oSFX.a 0x100 ∧ s100e.Has true oSFX.d 0xAB := by
  simp only [State.Has, State.SpadOk, State.SpadReady, State.Holding, State.StoreRoom]; decide +kernel

/-- A core whose withholding buffer is full: 256 stores to other lines. -/
def sFull : State := at0 { tcore [(5, 0x100), (7, 0xAB)] with items := (List.range 256).map (fun j =>
  { seq := 1, ival := 0, pc := 0, slot := 0, scope := 0, rel := false, kind := .store false (100 + j) [] [] [] }) } { seq := 2 }

theorem witness_StoresAreWithheld_full : sFull.Has oSM.ba oSM.a 0x100 ∧ sFull.Has true oSM.d 0xAB ∧ sFull.Holding ∧ sFull.SpadOk 0x108 8 ∧ ¬ sFull.StoreRoom false 0x108 := by
  simp only [State.Has, State.SpadOk, State.Holding, State.StoreRoom]; decide +kernel

theorem witness_ScratchpadStoresAtOnce :
    c100.Has oSM.ba oSM.a 0x100 ∧ c100.Has true oSM.d 0xAB ∧ ¬ c100.Holding ∧ c100.SpadOk 0x108 8 ∧ c100e.me.wordFull 33 = false ∧ c100e.SpadOk 0x108 8 ∧ ¬ c100e.Holding ∧
    c100e.Has oSF.ba oSF.a 0x100 ∧ c100e.Has true oSF.d 0xAB ∧ c100e.Has oSM.ba oSM.a 0x100 ∧ c100e.Has oSMX.ba oSMX.a 0x100 ∧ c100e.Has oSFX.ba oSFX.a 0x100 ∧ c100e.me.spad.cells.wf = true ∧
    (sBase 4).Has oSM.ba oSM.a 4 ∧ ((4 : W64) + oSM.off.signExtend 64 * 8).toNat % 8 ≠ 0 ∧
    ((4194296 : W64) + oSM.off.signExtend 64 * 8).toNat = spadSize (sBase 4194296).cur.core ∧ (sBase 2097144).me.limSpad < (2097144 + oSM.off.signExtend 64 * 8 : W64).toNat + 8 := by
  simp only [State.Has, State.SpadOk, State.Holding]; decide +kernel

/-- A core that withholds one byte at 0x108, stored at place 3. -/
def kStored : Core := { tcore [] with items := [{ seq := 3, ival := 0, pc := 0, slot := 0, scope := 0, rel := false, kind := .store false 4 [(3, 0x108, 0x5A)] [] [] }], seqNo := 4 }

theorem witness_CoreSeesItsOwnStores :
    (∃ w ∈ kStored.withheld false, w.2.1 = 0x108 + 0 ∧ w.1 < (SlipOp.place {} kStored) ∧ ∀ u ∈ kStored.withheld false, u = w) ∧
    (∀ w ∈ kStored.withheld false, w.2.1 ≠ 0x109) := by decide +kernel

/-- A tile core with a translated page at 0x1000, no line in its L1, and a load's base there. -/
def sGlob : State := { at0 (tcore [(5, 0x1000), (6, 7), (7, 0xAB), (8, 9)]) { seq := 1 } with
  tlbs := [{ core := 0, tlb := 0, fn := 0, pasid := 0, va := 0x1000, size := 4096, pa := 0x200000, p1 := 7, p2 := 7 }] }
/-- The same with the line in the L1; and with the bytes of the load withheld. -/
def sGlobL : State := sGlob.modCore 0 (fun k => { k with l1 := ⟨[(0x8000, List.replicate 64 3)]⟩ })
def sGlobW : State := sGlob.modCore 0 (fun k => { k with seqNo := 9, items := [{ seq := 0, ival := 0, pc := 0, slot := 0, scope := 0, rel := false, kind := .store true 0x8000 ((List.range 8).map (fun j => (0, 0x200008 + j, 1))) [] [] }] })

theorem witness_GlobalLoads :
    sGlob.Has oSM.ba oSM.a 0x1000 ∧ sGlob.Maps 0x1008 .r 8 0x200008 ∧ sGlob.me.forwarded sGlob.cur.op 0x200008 8 = [] ∧ sGlob.me.l1.find (0x200008 / 64) = none ∧
    sGlobL.Maps 0x1008 .r 8 0x200008 ∧ sGlobL.me.forwarded sGlobL.cur.op 0x200008 8 = [] ∧ isSys 0x200008 = false ∧ sGlobL.lineBusy sGlobL.cur.core (0x200008 / 64) sGlobL.clk.ids = false ∧
    (∃ b, sGlobL.me.l1.find (0x200008 / 64) = some b ∧ b.length = 64) ∧ 0x200008 % 64 + 8 ≤ 64 ∧
    sGlobW.Has oSM.ba oSM.a 0x1000 ∧ sGlobW.Maps 0x1008 .r 8 0x200008 ∧ (sGlobW.me.forwarded sGlobW.cur.op 0x200008 8).length = 8 ∧ sGlob.Has oSMX.ba oSMX.a 0x1000 := by
  simp only [State.Has, State.Maps]
  refine ⟨by decide +kernel, by decide +kernel, by decide +kernel, by decide +kernel, by decide +kernel, by decide +kernel, by decide +kernel, by decide +kernel, ⟨List.replicate 64 3, by decide +kernel⟩, by decide +kernel⟩

theorem witness_StoresAreWithheld_global :
    sGlob.Has oSM.ba oSM.a 0x1000 ∧ sGlob.Has true oSM.d 0xAB ∧ sGlob.Holding ∧ sGlob.cur.op.srcs = [] ∧ sGlob.Maps 0x1008 .w 8 0x200008 ∧ sGlob.StoreRoom true 0x200008 := by
  simp only [State.Has, State.Maps, State.Holding, State.StoreRoom]; decide +kernel

def oSA : SA := { d := 7, ba := true, a := 5, size := 6, off := 1, aop := 1, rem := false, die := 0, core := 0, bv := true, v := 6, bc := true, c := 8 }
/-- An atomic at core 1's scratchpad. -/
def oSAr : SA := { oSA with rem := true, core := 1 }

theorem witness_AtomicOperations :
    atomSizeOk 4#3 = true ∧ atomSizeOk 6#3 = true ∧ s100.Has oSA.ba oSA.a 0x100 ∧ s100.Has oSA.bv oSA.v 0 ∧ s100.Has oSA.bc oSA.c 0 ∧ s100.Holding ∧ oSA.rem = false ∧ s100.SpadOk 0x108 8 ∧
    oSAr.rem = true ∧ (0x108 : W64).toNat % 8 = 0 ∧ saTarget oSAr ≠ s100.cur.core ∧ s100.partOf (saTarget oSAr) = s100.partOf s100.cur.core ∧
    sGlob.Has oSA.ba oSA.a 0x1000 ∧ sGlob.Has oSA.bv oSA.v 7 ∧ sGlob.Has oSA.bc oSA.c 9 ∧ sGlob.Holding ∧ sGlob.Maps 0x1008 .rw 8 0x200008 := by
  simp only [State.Has, State.Maps, State.Holding, State.SpadOk]; decide +kernel

/-- Die 0's control core with the same registers and page. -/
def cGlob : State := { atC (ccore [(5, 0x1000), (6, 7), (7, 0xAB), (8, 9)]) { seq := 1 } with
  tlbs := [{ core := 128, tlb := 0, fn := 0, pasid := 0, va := 0x1000, size := 4096, pa := 0x200000, p1 := 7, p2 := 7 }],
  layout := { State.reset.layout with now := { LayoutRec.reset with hbm := [(0, 2 ^ 30)] } } }
/-- A tile core whose buffer is full, with the word at 0x108 empty. -/
def sFulle : State := sFull.modCore 0 (fun k => { k with empty := [33] })
/-- One that withholds a page's stores, its buffer full. -/
def sGlobF : State := sGlob.modCore 0 (fun k => { k with items := sFull.me.items })

theorem witness_StoresAreWithheld_sent :
    ¬ cGlob.Holding ∧ cGlob.Has oSM.ba oSM.a 0x1000 ∧ cGlob.Has true oSM.d 0xAB ∧ cGlob.Has oSMX.ba oSMX.a 0x1000 ∧ cGlob.Has true oSMX.d 0xAB ∧ cGlob.Maps 0x1008 .w 8 0x200008 ∧ 0x200008 % 8 = 0 ∧
    sGlobF.Holding ∧ sGlobF.Maps 0x1008 .w 8 0x200008 ∧ ¬ sGlobF.StoreRoom true 0x200008 ∧ sGlobF.Has true oSMX.d 0xAB := by
  simp only [State.Has, State.Maps, State.Holding, State.StoreRoom]; decide +kernel

theorem witness_StoresAreWithheld_words :
    s100.me.items = [] ∧ s100.me.wordFull 33 = true ∧ s100.SpadReady 0x108 8 ∧ s100.StoreRoom false 0x108 ∧ s100.cur.op.seq ≠ 0 ∧
    sFulle.me.wordFull 33 = false ∧ ¬ sFulle.StoreRoom false 0x108 ∧ sFulle.SpadOk 0x108 8 ∧ sFulle.Has oSFX.ba oSFX.a 0x100 ∧ sFulle.Has true oSFX.d 0xAB ∧
    sFull.me.wordFull 33 = true ∧ sFull.SpadReady 0x108 8 := by
  simp only [State.Has, State.SpadOk, State.SpadReady, State.StoreRoom]; decide +kernel

theorem witness_GlobalLoads_sent : cGlob.Maps 0x1008 .r 8 0x200008 ∧ (cGlob.me.forwarded cGlob.cur.op 0x200008 8).length ≠ 8 ∧ cGlob.lineBusy 128 (0x200008 / 64) cGlob.clk.ids = false := by
  simp only [State.Maps]; decide +kernel

theorem witness_AtomicOperations_sent :
    ¬ cGlob.Holding ∧ cGlob.Has oSA.ba oSA.a 0x1000 ∧ cGlob.Has oSA.bv oSA.v 7 ∧ cGlob.Has oSA.bc oSA.c 9 ∧ (0x1008 : W64).toNat % 8 = 0 ∧ saTarget oSAr ≠ cGlob.cur.core ∧
    cGlob.partOf (saTarget oSAr) = cGlob.partOf 128 ∧ cGlob.gateOk (cGlob.partOf 128) (nodeOf (saTarget oSAr)) none = true ∧ cGlob.Maps 0x1008 .rw 8 0x200008 ∧
    cGlob.gateOk (cGlob.partOf 128) (.slice (cGlob.ownerDie 0x200008) (cGlob.homeSlice ((cGlob.windowPart 0x200008).getD (cGlob.partOf 128)) (cGlob.ownerDie 0x200008) 0x200008)) (some 0x200008) = true ∧
    cGlob.SpadOk 0x1008 8 ∧ cGlob.me.spad.cells.wf = true := by
  simp only [State.Has, State.Maps, State.Holding, State.SpadOk]; decide +kernel

/-! ## Hypotheses that can be met: control, exceptions, system registers, counters -/

def oSB : SB := { g := 31, n := false, disp := 4 }
def oSBno : SB := { g := 3, n := false, disp := 4 }
/-- A branch of a wide bundle. -/
def sWide : State := at0 tk56 { single := false, seq := 2 }
def sJr (x : W64) : State := at0 (tcore [(5, x)]) {}

theorem witness_ControlTransfers :
    oSB.g = 31#5 ∧ s56.cur.op.single = true ∧ sWide.cur.op.single = false ∧
    ¬ (oSBno.g = 31#5 ∨ (s56.me.guard s56.cur.op oSBno.g.toNat = true ↔ oSBno.n = false)) ∧
    (sJr 0x1004).Has true 5 0x1004 ∧ (sJr 0x1004).Guarded 31 ∧ (0x1004 : W64).toNat % 4 = 0 ∧ (sJr 0x1002).Has true 5 0x1002 ∧ (0x1002 : W64).toNat % 4 ≠ 0 ∧ ¬ (sJr 0x1004).Guarded 3 ∧
    s56.me.handler = false ∧ (at0 { tk56 with handler := true } {}).me.handler = true := by
  simp only [State.Has, State.Guarded]; decide +kernel

def oSL : SL := { ba := true, a := 5, imm := 4, ii := 1, sm1 := 2 }
/-- A core in the second iteration of a loop of three stages, one before the last, and with no stage left. -/
def kLoop (lc : Nat) (p : W64) : Core := { tk56 with loop := { act := true, lc := lc, s := 3, ii := 1, start := 0x1000, end_ := 0x1010 }, preds := ⟨[(16, p), (17, 0)]⟩ }

theorem witness_LoopEngine :
    s56.Has oSL.ba oSL.a 0xFFFFFFFFFFFFFFF9 ∧ s56.me.loop.act = false ∧ (0xFFFFFFFFFFFFFFF9 : W64).toNat % 2 ^ 32 ≠ 0 ∧ (at0 (kLoop 1 0) {}).me.loop.act = true ∧
    1 ≤ (kLoop 1 0).loop.s ∧ (kLoop 1 0).loop.s ≤ 8 ∧ (kLoop 1 0).item.bind (·.drain) = none ∧
    (∀ i, i < (kLoop 0 0).loop.s → ((kLoop 0 0).rotate 0x1014).1.base (.pred (16 + i)) = 0) ∧ ((kLoop 1 0).rotate 0x1014).1.base (.pred (16 + 0)) ≠ 0 := by
  simp only [State.Has]; decide +kernel

/-- A control core with a handler. -/
def cTvec : State := atC { ccore [(5, 0x100)] with sys := { (ccore []).sys with tvec := 0x2000 } } {}

theorem witness_ExceptionsAreTaken :
    isCtl cTvec.cur.core = true ∧ cTvec.me.handler = false ∧ cTvec.me.sys.tvec ≠ 0 ∧
    isCtl s56.cur.core = false ∧ s56.me.trap = none ∧ s56.me.ival ≤ s56.cur.op.ival ∧ (255 < 256 ∧ 7 < 8) := by decide +kernel

/-- A tile core whose op has raised a fault, with a handler, and with s5 changed since the checkpoint. -/
def fRec : FaultRec := { code := 0x09, detail := 0, addr := 0x1001, pc := 0x1000, slot := 0, single := true }
def sTrap : State := at0 { tk56 with trap := some (.fault fRec), sys := { tk56.sys with tvec := 0x2000 }, dup := { regs := ⟨[(5, 1)]⟩ } } {}

theorem witness_RollbackEntersHandler :
    (sTrap.core 0).trap = some (.fault fRec) ∧ (sTrap.core 0).handler = false ∧ (sTrap.core 0).sys.tvec ≠ 0 ∧ sTrap.rollbackReady 0 = true ∧
    (sTrap.core 0).item.bind (·.drain) = none := by decide +kernel

theorem witness_SystemRegisterAccess :
    s56.Free (.reg 7) ∧ s56.Has true 5 0xFFFFFFFFFFFFFFF9 ∧ s56.me.handler = false ∧ (at0 { tk56 with handler := true } {}).me.handler = true ∧
    (at0 { tk56 with handler := true } {}).Has true 5 0xFFFFFFFFFFFFFFF9 ∧ s56.releaseOk s56.cur.core 4 = true := by
  simp only [State.Has, State.Free]; decide +kernel

/-- A core whose op has package scope, with nothing on its way. -/
def sScope : State := at0 tk56 { scope := 3 }

theorem witness_Fences : s56.acquireReady s56.cur.core s56.cur.op.scope none = true ∧ s56.Holding ∧ sScope.acquireReady sScope.cur.core sScope.cur.op.scope none = true ∧ sScope.cur.op.scope ≠ 0 := by
  simp only [State.Holding]; decide +kernel

/-- A core whose counter 6 expects two more bytes. -/
def kCtr : Core := { tcore [(5, 2), (6, 1)] with ctrs := ⟨[(6, { expect := 4, count := 2 })]⟩ }

theorem witness_CounterOps :
    (∃ c : Counter, c.count + 1 < c.expect) ∧ (∃ c : Counter, c.count + 1 = c.expect) ∧ (∃ c : Counter, c.expect < c.count + 1) ∧
    s56.Has true 6 2 ∧ (2 : W64).toNat < 2 ^ 40 ∧ s56.Holding ∧
    (at0 kCtr {}).Has true 5 2 ∧ (6 : BitVec 6).toNat < (at0 kCtr {}).me.limNctr ∧ (kCtr.ctrs.get 6 {}).shared = false ∧ ((kCtr.ctrs.get 6 {}).post 2).isSome = true ∧
    (kCtr.ctrs.get 6 {}).phase = false ∧ (at0 kCtr {}).Free (.reg 7) ∧ (kCtr.ctrs.get 6 {}).count < 2 ^ 63 := by
  simp only [State.Has, State.Holding, State.Free]
  exact ⟨⟨{ expect := 3, count := 1 }, by decide⟩, ⟨{ expect := 2, count := 1 }, by decide⟩, ⟨{ expect := 0, count := 0 }, by decide⟩, by decide +kernel⟩

/-- A LOOP op with no iteration, the bundle after the one at END being a bundle in memory; and one with a drain request pending. -/
def sLoop0 : State := { (at0 (tcore [(5, 0)]) { pc := 0x1000, next := 0x100C } : State).modDie 0 (fun d => { d with view := d.view.writeN (0x200000 + 0x10) (leBytes 4 (singleHeader 0 false).toNat ++ leBytes 4 0) }) with
  tlbs := [{ core := 0, tlb := 0, fn := 0, pasid := 0, va := 0x1000, size := 4096, pa := 0x200000, p1 := 7, p2 := 7 }] }
def sDrain : State := at0 { tk56 with item := tk56.item.map (fun w => { w with drain := some 0 }) } {}

theorem witness_LoopEngine_edges :
    sLoop0.Has oSL.ba oSL.a 0 ∧ sLoop0.me.loop.act = false ∧ (sLoop0.after sLoop0.cur.core (sLoop0.cur.op.pc + BitVec.ofNat 64 (oSL.imm.toNat * 4))).toOption = some 0x1018 ∧
    sDrain.Has oSL.ba oSL.a 0xFFFFFFFFFFFFFFF9 ∧ sDrain.me.loop.act = false ∧ (∃ w, sDrain.me.item = some w ∧ w.drain.isSome = true) := by
  simp only [State.Has]
  refine ⟨by decide +kernel, by decide +kernel, by decide +kernel, by decide +kernel, by decide +kernel, ⟨_, rfl, by decide +kernel⟩⟩

theorem witness_RollbackEntersHandler_counters : (sTrap.core 0).dup.posts = [] ∧ ((sTrap.core 0).dup.queues.get 0 {}).spl = 0 ∧ ((sTrap.core 0).dup.ctrs.get 0 {}).shared = false := by decide +kernel

/-- A core with a read on its way, and the same as a control core. -/
def kReads (k : Core) : Core := { k with sent := [{ id := 3, kind := 0, scope := 3 }] }
theorem witness_Fences_waits :
    (at0 (kReads tk56) {}).acquireReady 0 0 none = false ∧ ¬ c100.Holding ∧ c100.me.loadsBefore (c100.cur.op.place c100.me) = false ∧ c100.releaseOk 128 c100.cur.op.scope = true ∧
    c100.acquireReady 128 c100.cur.op.scope none = true ∧ (at0 (kReads tk56) {}).releaseOk 0 4 = false := by
  simp only [State.Holding]; decide +kernel

/-- Core 0 in normal mode and in handler mode, and the control core, with s5 an operand of CTRPOST to another core, to core 0 itself, to the control core. -/
def sCtrPost (v : W64) : State := at0 (tcore [(5, v)]) {}
def sCtrPostH (v : W64) : State := at0 { tcore [(5, v)] with handler := true } {}
def cCtr (v : W64) : State := atC { ccore [(5, v)] with ctrs := ⟨[(6, { expect := 4, count := 2 }), (7, { shared := true })]⟩ } {}
/-- The same package with quadrant 1 of die 0 in another partition. -/
def splitLayout : LayoutRec := { LayoutRec.reset with quad := [0, 1] ++ List.replicate 14 0 }
def sCtrPostO : State := { sCtrPost (0x890000000004) with layout := { State.reset.layout with now := splitLayout } }

theorem witness_CounterOps_remote :
    (sCtrPost 0x810000000004).Has true 5 0x810000000004 ∧ (0x810000000004 : W64).getLsbD 47 = true ∧ (sCtrPostH 0x800000000004).Has true 5 0x800000000004 ∧ (0x800000000004 : W64).getLsbD 48 = false ∧
    (sCtrPostH 0x1800000000004).Has true 5 0x1800000000004 ∧ (0x1800000000004 : W64).toNat < 2 ^ 49 ∧ (0x1800000000004 : W64).getLsbD 48 = true ∧ (0x1800000000004 : W64).toNat / 2 ^ 40 % 32 = 0 := by
  simp only [State.Has]; decide +kernel

theorem witness_CounterOps_targets :
    (sCtrPost 0).Holding ∧ ¬ (sCtrPostH 0).Holding ∧ (sCtrPost 0).partOf 1 = (sCtrPost 0).partOf 0 ∧ (sCtrPost 0).partOnDie ((sCtrPost 0).partOf 0) 0 = true ∧ sCtrPostO.partOf 9 ≠ sCtrPostO.partOf 0 ∧
    sCtrPostO.Has true 5 (0x890000000004) := by
  simp only [State.Has, State.Holding]; decide +kernel

theorem witness_CounterOps_faults :
    (sCtrPost (2 ^ 40)).Has true 5 (2 ^ 40) ∧ 2 ^ 40 ≤ (2 ^ 40 : W64).toNat ∧ (cCtr 5).Has true 5 5 ∧ isCtl (cCtr 5).cur.core = true ∧ ((cCtr 5).me.ctrs.get 6 {}).post 5 = none ∧
    ((at0 { tcore [(5, 1)] with ctrs := ⟨[(7, { shared := true })]⟩ } {}).me.ctrs.get 7 {}).shared = true ∧ (7 : BitVec 6).toNat < (sCtrPost 1).me.limNctr ∧ (sCtrPostH 5).Has true 5 5 ∧
    ((sCtrPost 0).me.ctrs.get 3 {}).phase ≠ true := by
  simp only [State.Has]; decide +kernel

/-! ## Hypotheses that can be met: queues, splices, layout registers, the range table -/

/-- A descriptor: enabled, FP32 (type 0), 16 entries, base 16; and the same with two entries, HEAD 1, TAIL 3. -/
def dQ : W64 := 0x02800010
def dQ2 : W64 := 0x0003000102800010
/-- A core with queue 1 enabled at base 16 and queue 2 at base 32, s5 a value, and a limit of 8 on every queue. -/
def kQ (v : W64) : Core := { tcore [(5, v)] with queues := ⟨[(1, { en := true, ty := 0, logc := 4, base := 16 }), (2, { en := true, ty := 0, logc := 4, base := 32 })]⟩ }
def sQ (v : W64) : State := at0 (kQ v) {}

/-- The conditions under which a descriptor fits queue 1, as the statement has them. -/
def fits (s : State) (v : W64) : Prop :=
  let n := v.toNat
  let lg := n / 2 ^ 21 % 16
  let base := n % 2 ^ 14
  v.getLsbD 25 = true ∧ n / 2 ^ 26 % 4 = 0 ∧ n / 2 ^ 14 % 128 = 0 ∧ 1 ≤ lg ∧ lg ≤ 12 ∧ lg ≤ s.me.limLogc 1 ∧ n / 2 ^ 28 % 16 ≤ 12 ∧
    base + 2 ^ lg ≤ 16380 ∧ ∀ j, j < 8 → j ≠ 1 → (s.me.queue j).en = true → base + 2 ^ lg ≤ (s.me.queue j).base ∨ (s.me.queue j).base + (s.me.queue j).cap ≤ base

theorem witness_QueueConfiguration_fits : fits (sQ dQ) dQ ∧ fits (sQ dQ2) dQ2 := by
  simp only [fits]; exact ⟨by decide +kernel, by decide +kernel⟩

theorem witness_QueueConfiguration :
    (sQ dQ).cur.op.srcs = [] ∧ ((sQ dQ).me.queue 1).spl = 0 ∧ (∀ e ∈ ((sQ dQ).me.queue 1).ents.l, e.2.st ≠ .reserved ∧ e.2.st ≠ .draining) ∧ (sQ dQ).Has true 5 dQ ∧
    dQ.toNat < 2 ^ 32 ∧ (sQ 0).Has true 5 0 ∧ ((sQ dQ).me.queue 1).en = true ∧ (sQ dQ2).Has true 5 dQ2 ∧
    (dQ2.toNat / 2 ^ 48 + 65536 - dQ2.toNat / 2 ^ 32 % 65536) % 65536 = 2 ∧ (sQ dQ).Free (.reg 7) := by
  simp only [State.Has, State.Free]; decide +kernel

/-- Queue 1 with a splice record, and s5 naming queue 2 of core 1. -/
def sSpl (spl : Nat) (r : Splice) : State := at0 { kQ 10 with queues := ⟨[(1, { en := true, ty := 0, logc := 4, base := 16, spl := spl })]⟩, splices := ⟨[(1, r)]⟩ } {}

theorem witness_Splices :
    (sSpl 0 {}).Has true 5 10 ∧ ((sSpl 0 {}).me.queue 1).en = true ∧ ((sSpl 0 {}).me.queue 1).spl = 0 ∧ (∀ e ∈ ((sSpl 0 {}).me.queue 1).ents.l, e.2.st = .free) ∧
    (10 : W64).toNat / 8 % 128 = 1 ∧ (1 : Nat) ≠ (sSpl 0 {}).cur.core ∧ (sSpl 0 {}).partOf 1 = (sSpl 0 {}).partOf 0 ∧ ((sSpl 0 {}).me.splice 1).acc = none ∧
    ((sSpl 0 { acc := some (1, 2, 0, 16) }).me.splice 1).acc = some (1, 2, ((sSpl 0 {}).me.queue 1).ty, 16) ∧ (sSpl 0 {}).Holding ∧
    ((sSpl 1 { st := .open_ }).me.queue 1).spl = 1 ∧ ((sSpl 1 { st := .open_ }).me.splice 1).st = .open_ ∧ ((sSpl 1 { st := .pending }).me.splice 1).st = .pending ∧
    ((sSpl 2 { st := .closed }).me.queue 1).spl = 2 ∧ ((sSpl 2 { st := .closed }).me.splice 1).st = .closed ∧ ((sSpl 2 { st := .ropen }).me.splice 1).st ≠ .closed := by
  simp only [State.Has, State.Holding]; decide +kernel

theorem witness_LayoutAndRangeOps :
    s56.Has true 6 2 ∧ layValOk 8 2 = true ∧ layValOk 25 2 = true ∧ layValOk 0 2 = true ∧ s56.Free (.reg 7) ∧
    s100.Has true 5 0x100 ∧ (0x100 : W64).toNat % 32 = 0 ∧ (0x100 : W64).toNat < spadSize 0 ∧ (0x100 : W64).toNat + 96 ≤ s100.me.limSpad ∧ s100.SpadReady 0x100 96 ∧ s100.Holding ∧
    s100.cur.op.srcs = [] ∧ s100.me.entryCount + 2 ≤ 256 ∧ (sJr 0x80000100).Has true 5 0x80000100 ∧ (0x80000100 : W64).toNat % 2 ^ 23 % 256 = 0 ∧ (0x80000100 : W64).toNat / 2 ^ 23 % 2 ^ 23 = 256 ∧
    0x100 + 256 ≤ (sJr 0x80000100).me.limSpad ∧ (sBase 0x801FFF00).Has true 5 0x801FFF00 ∧ (sBase 0x801FFF00).me.limSpad < 0x1FFF00 + 512 := by
  simp only [State.Has, State.Free, State.Holding, State.SpadReady]; decide +kernel

/-- Queue 1 with an entry reserved; as a splice end; and the same core in handler mode. -/
def sQb (v : W64) : State := at0 { kQ v with queues := ⟨[(1, { en := true, ty := 0, logc := 4, base := 16, ents := ⟨[(0, { st := .reserved })]⟩ })]⟩ } {}
def sSplH : State := at0 { (sSpl 0 {}).me with handler := true } {}
/-- s5 names core 0 itself, and a core of another partition. -/
def sSplV (v : W64) : State := { at0 { kQ v with queues := (sSpl 0 {}).me.queues } {} with layout := { State.reset.layout with now := splitLayout } }

theorem witness_QueueConfiguration_busy :
    (∃ e ∈ ((sQb dQ).me.queue 1).ents.l, e.2.st = .reserved) ∧ ((sQb dQ).me.queue 1).spl = 0 ∧ (sQb dQ).Has true 5 dQ ∧ (sQb 0).Has true 5 0 ∧ ((sQb dQ2).me.queue 1).en = true ∧ (sQb dQ2).Has true 5 dQ2 ∧
    ((sSpl 1 {}).me.queue 1).spl ≠ 0 ∧ ((sSpl 1 {}).me.queue 1).en = true := by
  simp only [State.Has]; decide +kernel

theorem witness_QueueConfiguration_fits_busy : fits (sQb dQ) dQ ∧ fits (sQb dQ2) dQ2 ∧ fits (sSplV dQ) dQ := by
  simp only [fits]; exact ⟨by decide +kernel, by decide +kernel, by decide +kernel⟩

theorem witness_Splices_faults :
    (sQb 10).Has true 5 10 ∧ ¬ (∀ e ∈ ((sQb 10).me.queue 1).ents.l, e.2.st = .free) ∧ (sSplV 0).Has true 5 0 ∧ (0 : W64).toNat / 8 % 128 = (sSplV 0).cur.core ∧ ((sSplV 0).me.queue 1).spl = 0 ∧
    (sSplV 72).Has true 5 72 ∧ (sSplV 72).partOf 9 ≠ (sSplV 72).partOf 0 ∧ (sSplV 1024).Has true 5 1024 ∧ 2 ^ 10 ≤ (1024 : W64).toNat ∧ ¬ sSplH.Holding ∧ sSplH.Has true 5 10 ∧
    (sSpl 0 { acc := some (2, 2, 0, 16) }).me.splice 1 = { acc := some (2, 2, 0, 16) } := by
  simp only [State.Has, State.Holding]; decide +kernel

theorem witness_Splices_close :
    ((sSpl 1 { st := .closing }).me.splice 1).st = .closing ∧ ((sSpl 1 { st := .failed }).me.splice 1).st = .failed ∧ ((sSpl 1 { st := .ended }).me.splice 1).st = .ended ∧
    (∀ e ∈ ((sSpl 1 { st := .failed }).me.queue 1).ents.l, e.2.st ≠ .reserved) ∧ ((sSpl 0 {}).me.queue 1).spl = 0 ∧
    (let s := at0 { kQ 10 with queues := ⟨[(1, { en := true, logc := 4, spl := 1, ents := ⟨[(0, { st := .reserved })]⟩ })]⟩, splices := ⟨[(1, { st := .failed })]⟩ } {}
     ∃ e ∈ (s.me.queue 1).ents.l, e.2.st = .reserved) := by decide +kernel

theorem witness_LayoutAndRangeOps_stores :
    s100.RoomFor false (cellsAt 0x100 (leBytes 96 0)) ∧ ¬ sFull.RoomFor false (cellsAt 0x100 (leBytes 96 0)) ∧ sFull.Holding ∧ sFull.Has true 5 0x100 ∧ ¬ c100.Holding ∧ c100.Has true 5 0x100 ∧
    (0x100 : W64).toNat + 96 ≤ c100.me.limSpad ∧ c100.SpadReady 0x100 96 := by
  simp only [State.RoomFor, State.Has, State.Holding, State.SpadReady]; decide +kernel

/-! ## Hypotheses that can be met: HALT, SYNC, LAUNCH, the control cores -/

/-- A core that has arrived at nothing yet, with a work item on sync line 3. -/
def kLine : Core := { tk56 with item := tk56.item.map (fun w => { w with line := some 3 }) }
/-- Die 0 with line 3 of a gang of two, of which core 1 has arrived. -/
def sLine (k : Core) (broken : Bool) : State := { at0 k {} with dies := ⟨[(0, { lines := ⟨[(3, { held := true, g := 2, members := [0, 1], arrived := [1], broken := broken })]⟩ })]⟩ }

theorem witness_WorkItemEnds_halt :
    (at0 { tk56 with halting := true } {}).me.halting = true ∧ s56.me.halting = false ∧ s56.me.items = [] ∧ s56.me.chans.l = [] ∧ (∀ q, q < 8 → (s56.me.queue q).spl = 0) ∧
    128 ≤ c100.cur.core ∧ c100.cur.core < 132 ∧ c100.me.sent = [] ∧ c100.me.ports = [] ∧ c100.me.outs = [] ∧ c100.me.relWait = none ∧
    (atC { ccore [] with sent := [{ id := 1, kind := 0, scope := 2 }] } {}).me.sent ≠ [] := by decide +kernel

theorem witness_SyncArrives :
    (sLine { kLine with goSync := true } false).me.goSync = true ∧ (sLine { kLine with handler := true } false).me.handler = true ∧ s56.me.item.bind (·.line) = none ∧
    (sLine kLine true).me.goSync = false ∧ (sLine kLine true).me.handler = false ∧ (sLine kLine true).me.item.bind (·.line) = some 3 ∧
    (((sLine kLine true).die 0).lines.get 3 {}).broken = true ∧ (((sLine kLine false).die 0).lines.get 3 {}).broken = false ∧ (sLine kLine false).me.arrived = false ∧
    (((sLine kLine false).die 0).lines.get 3 {}).arrived.length + 1 = (((sLine kLine false).die 0).lines.get 3 {}).g := by decide +kernel

/-- A launch record of one work item whose header stands at VA 0x1400, and that header (R188, R191). -/
def recOk : Bytes := leBytes 8 0x1400 ++ leBytes 8 0 ++ leBytes 4 1 ++ List.replicate 44 0
def hdrGood : Bytes :=
  leBytes 4 0x5244484B ++ leBytes 2 1 ++ leBytes 2 1 ++ leBytes 8 0 ++ leBytes 8 0 ++ leBytes 8 0 ++ leBytes 8 (4193280 * 2 ^ 32 + 24 * 2 ^ 8 + 64) ++
  List.replicate 88 0
/-- A state whose partition holds one frame, with a record at PA 0x200000 and a header at PA 0x200400, both in the page of VA 0x1000. -/
def sLaunch (r h : Bytes) : State :=
  { at0 (tcore [(5, 0x1000)]) { seq := 1 } with
    dies := ⟨[(0, { view := (Memory.writeN [] 0x200000 r).writeN 0x200400 h })]⟩, parts := ⟨[(0, { frames := [0], frmTotal := 1 })]⟩,
    tlbs := [{ core := 0, tlb := 0, fn := 0, pasid := 0, va := 0x1000, size := 4096, pa := 0x200000, p1 := 7, p2 := 7 }] }
/-- What a core's op reads at a PA where memory can be read. -/
def seen (s : State) (pa n : Nat) : Bytes :=
  patch pa (match s.memRead (dieOf s.cur.core) pa n with | .bytes b => b | _ => []) (s.me.forwarded s.cur.op pa n)
theorem seen_reads (s : State) (pa n : Nat) (m : Bytes) (h : s.memRead (dieOf s.cur.core) pa n = .bytes m) : s.ReadsMem pa n (seen s pa n) := ⟨m, h, by simp [seen, h]⟩
def lPre (s : State) : Nat × Nat := s.launchPre (s.partOf 0) 0 (seen s 0x200000 64)

theorem witness_Launches_checks :
    ¬ s56.Guarded 3 ∧ s56.Guarded 31 ∧ (sJr 0x1004).Has true 5 0x1004 ∧ (0x1004 : W64).toNat % 64 ≠ 0 ∧
    (sLaunch recOk hdrGood).Has true 5 0x1000 ∧ (0x1000 : W64).toNat % 64 = 0 ∧ (sLaunch recOk hdrGood).Maps 0x1000 .r 64 0x200000 ∧ (sLaunch recOk hdrGood).rangeBusy 0 0x200000 64 = false := by
  simp only [State.Has, State.Maps, State.Guarded]; decide +kernel

theorem witness_Launches :
    (lPre (sLaunch recOk hdrGood)).1 = 0 ∧ (lPre (sLaunch (leBytes 8 1 ++ recOk.drop 8) hdrGood)).1 ≠ 0 ∧
    BitVec.ofNat 64 (fieldAt (seen (sLaunch recOk hdrGood) 0x200000 64) 0 8) = 0x1400#64 ∧
    (sLaunch recOk hdrGood).Maps 0x1400 .r 128 0x200400 ∧ (sLaunch recOk hdrGood).rangeBusy 0 0x200400 128 = false ∧
    (sLaunch recOk hdrGood).launchPost 0 0 (seen (sLaunch recOk hdrGood) 0x200000 64) (seen (sLaunch recOk hdrGood) 0x200400 128) = 0 ∧
    (sLaunch recOk []).launchPost 0 0 (seen (sLaunch recOk []) 0x200000 64) (seen (sLaunch recOk []) 0x200400 128) ≠ 0 ∧ (sLaunch recOk hdrGood).Holding := by
  simp only [State.Maps, State.Holding]; decide +kernel

/-- A control core with a record in its scratchpad at 0x100, and the header's page translated; a full scoreboard. -/
def cLaunch (r : Bytes) (full : Bool) : State :=
  { atC { ccore [(5, 0x100)] with spad := Spad.writeN {} 0x100 r } {} with
    dies := ⟨[(0, { view := Memory.writeN [] 0x200400 hdrGood, entries := ⟨if full then (List.range 64).map (fun e => (e, { st := .ready })) else []⟩ })]⟩,
    parts := ⟨[(0, { frames := [0], frmTotal := 1 })]⟩,
    tlbs := [{ core := 128, tlb := 0, fn := 0, pasid := 0, va := 0x1000, size := 4096, pa := 0x200000, p1 := 7, p2 := 7 }] }
def cRec (s : State) : Bytes := s.me.spadRead s.cur.op 0x100 64

theorem witness_Launches_control :
    (cLaunch recOk false).Guarded 31 ∧ (cLaunch recOk false).Has true 5 0x100 ∧ isCtl (cLaunch recOk false).cur.core = true ∧
    (cLaunch recOk false).releaseOk 128 (Max.max 3 (cLaunch recOk false).cur.op.scope) = true ∧
    ((cLaunch recOk false).launchPre 0 0 (cRec (cLaunch recOk false))).1 = 0 ∧ ((cLaunch (leBytes 8 1) false).launchPre 0 0 (cRec (cLaunch (leBytes 8 1) false))).1 ≠ 0 ∧
    (cLaunch recOk false).translate 128 0 (cLaunch recOk false).me.ctl.wqpas 0x1400 .r 128 = .pa 0x200400 ∧
    (cLaunch recOk false).launchPost 0 0 (cRec (cLaunch recOk false)) (seen (cLaunch recOk false) 0x200400 128) = 0 ∧
    (cLaunch recOk false).freeEntry 0 0 = some 0 ∧ (cLaunch recOk true).freeEntry 0 0 = none := by
  simp only [State.Has, State.Guarded]; decide +kernel

/-! Channel table operations -/

/-- The image of channel 0 from core 1 to core 0 of die 0, FP32, a ring of one entry, no spill (R281). -/
def img0 : Bytes := leBytes 8 (1 * 2 ^ 12) ++ List.replicate 56 0
def cChan (e : Option Chan) (v : W64) (o : SlipOp) : State :=
  { atC { ccore [(5, v)] with spad := Spad.writeN {} 0x100 img0 } o with dies := ⟨[(0, { chans := ⟨match e with | some x => [(0, x)] | none => []⟩ })]⟩ }
def e0 : Chan := chanOfImage (leNat ((cChan none 0x100 {}).me.spad.readN 0x100 64))

theorem witness_ChannelOps_open :
    (cChan none 0x100 {}).Has true 5 0x100 ∧ (cChan none 0x100 {}).partOf e0.writer = 0 ∧ (cChan none 0x100 {}).partOf e0.reader = 0 ∧ (cChan none 0x100 {}).partOf 128 = 0 ∧
    ((cChan (some { open_ := true }) 0x100 {}).chan e0.chnum).open_ = true ∧ ((cChan none 0x100 {}).chan e0.chnum).open_ = false ∧
    imageReserved (leNat ((cChan none 0x100 {}).me.spad.readN 0x100 64)) = false ∧ e0.ty < 13 ∧ e0.logring ≤ 8 ∧ e0.writer ≠ e0.reader ∧ chanDie e0.chnum = e0.rdie ∧
    ((cChan none 0x100 {}).die e0.rdie).ringPlace (2 ^ e0.logring) = some (0, 0) ∧ e0.spinit ≤ ((cChan none 0x100 {}).part 0).resFree := by
  simp only [State.Has]; decide +kernel

theorem witness_ChannelOps_close :
    (cChan none 0 {}).Has true 5 0 ∧ ((cChan none 0 {}).chan 0).open_ = false ∧ ((cChan (some { open_ := true, tailw := 1 }) 0 {}).chan 0).tailw ≠ ((cChan (some { open_ := true, tailw := 1 }) 0 {}).chan 0).heado ∧
    ((cChan (some { open_ := true }) 0 {}).chan 0).open_ = true ∧ ((cChan (some { open_ := true }) 0 {}).chan 0).part = 0 ∧
    ((cChan (some { open_ := true }) 0 {}).chan 0).tailw = ((cChan (some { open_ := true }) 0 {}).chan 0).heado ∧ ((cChan (some { open_ := true }) 0 {}).chan 0).reads = [] ∧
    (cChan (some { open_ := true }) 0 { answer := some (some { word := 7, part := 1, open_ := true }) }).cur.op.answer = some (some { word := 7, part := 1, open_ := true }) ∧ (1 : Nat) ≠ (cChan none 0 {}).partOf 128 ∧
    (0 : W64).toNat < 4096 := by
  simp only [State.Has]; decide +kernel

/-- Work queue 0 of partition 0 on die 0: not enabled, enabled and empty, and with a packet of PASID 0, which the PASID table at 0x12000 holds. -/
def cWq (en pkt : Bool) : State :=
  { atC (ccore [(5, 0x40000)]) {} with
    wqs := ⟨[(0, { w0 := if en then 1 else 0, ring := 0x20000, clks := if pkt then [0] else [], wpos := if pkt then 1 else 0 })]⟩,
    fns := ⟨[(0, { pastab := 0x12000 })]⟩, dies := ⟨[(0, { view := Memory.writeN [] 0x12000 [1] })]⟩ }

theorem witness_SchedulerOps :
    (cWq false false).Has true 5 0x40000 ∧ (0x40000 : W64).toNat < 2 ^ 30 ∧ (0x40000 : W64).toNat / 2 ^ 10 % 64 = 0 ∧ (0x40000 : W64).toNat % 1024 = 0 ∧ (0x40000 : W64).toNat / 65536 * 64 + 64 ≤ 1047552 ∧
    (cWq false false).bound 0 0 0 = false ∧ (cWq true false).bound 0 0 0 = true ∧ (cWq true false).hasPacket 0 0 = false ∧ (cWq true true).hasPacket 0 0 = true ∧
    fieldAt (seen (cWq true true) (((cWq true true).wq 0).slot ((cWq true true).wq 0).rpos) 72) 64 4 % 2 ^ 20 = 0 ∧ leNat (seen (cWq true true) 0x12000 8) % 2 = 1 ∧
    isCtl s56.cur.core = false := by
  simp only [State.Has]; decide +kernel

/-- A post record that names core 0, deadline 9; one with a reserved flag set. -/
def postOk : Bytes := leBytes 8 9 ++ leBytes 4 1 ++ List.replicate 52 0
def cPost (b : Bytes) (en : Bool) : State := { atC { ccore [(5, 0x100)] with spad := Spad.writeN {} 0x100 b } { answer := some (some { word := 0, part := 3, writer := 0x4000 }) } with fns := ⟨[(0, { fence := if en then 1 else 0 })]⟩ }

theorem witness_SchedulerOps_records :
    (cPost postOk true).Has true 5 0x100 ∧ ((cPost postOk false).fn 0).fence.getLsbD 0 = false ∧ ((cPost postOk true).fn 0).fence.getLsbD 0 = true ∧
    (cPost postOk true).cur.op.answer = some (some { word := 0, part := 3, writer := 0x4000 }) ∧ recPostBad ((cPost postOk true).me.spadRead {} 0x100 64) = false ∧
    recPostBad ((cPost (List.replicate 24 0 ++ [4]) true).me.spadRead {} 0x100 64) = true ∧
    (∀ c ∈ recCores ((cPost postOk true).me.spadRead {} 0x100 64), (cPost postOk true).partOf c = 0) ∧ fieldAt ((cPost postOk true).me.spadRead {} 0x100 64) 0x18 1 = 0 := by
  simp only [State.Has]; decide +kernel

/-- An image of one column that the KNLOAD check takes (R347); a binding record of one stock column: view 0x40000000, store 0x60000000, 128 records (R353). -/
def kimg : Bytes := leBytes 4 0x474E444B ++ leBytes 2 1 ++ [1, 0] ++ List.replicate 32 0 ++ leBytes 4 64 ++ List.replicate 20 0
def krec : Bytes := leBytes 8 0x2000000 ++ leBytes 8 0x4000000 ++ leBytes 4 128 ++ leBytes 2 576 ++ leBytes 2 1088 ++ [4, 0] ++ List.replicate 38 0
/-- A control core whose partition maps its first GiB onto itself: a root of both stages at 0x10000, PASID 0 at 0x12000. -/
def cKn (b : Bytes) (x : Array8) (v : W64) : State :=
  { atC { ccore [(5, v)] with spad := Spad.writeN {} 0x100 b } {} with
    arrays := ⟨[(0, x)]⟩, fns := ⟨[(0, { s2root := 0x10001, pastab := 0x12000 })]⟩,
    dies := ⟨[(0, { view := ((Memory.writeN [] 0x10000 (leBytes 8 0x11001)).writeN 0x11000 (leBytes 8 0x1F)).writeN 0x12000 (leBytes 8 0x10001) })]⟩ }
def kb (s : State) : Option Binding := bindRecord (s.me.spadRead s.cur.op 0x100 64) (s.arr 0).slots

theorem witness_KneadControl_load :
    (cKn kimg {} 0x100).Has true 5 0x100 ∧ (cKn kimg {} 0x100).me.spadRead {} 0x100 1 = [0x4B] ∧ ((cKn kimg {} 0x100).arr 0).loading = false ∧ ((cKn kimg { slots := ⟨[(0, { st := .loading })]⟩ } 0x100).arr 0).loading = true ∧
    (∀ e ∈ ((cKn kimg {} 0x100).arr 0).binds.l, e.2.st = .free ∨ e.2.slot ≠ 1) ∧ ((cKn kimg {} 0x100).arr 0).dictPart = none ∧ kHeader ((cKn kimg {} 0x100).me.spadRead {} 0x100 64) = none ∧
    leNat ((((cKn kimg {} 0x100).me.spadRead {} 0x100 64).drop 40).take 4) = 64 := by
  simp only [State.Has]; decide +kernel

theorem witness_KneadControl_bind :
    (∃ b, kb (cKn krec {} 0x100) = some b ∧ b.slot = 4 ∧ (∀ y ∈ ((cKn krec {} 0x100).arr 0).binds.l, y.2.st = .free ∨ overlaps b.first b.n y.2.first y.2.n = false) ∧
      ∃ v s, (cKn krec {} 0x100).bindRanges 0 0 b = some (v, s)) ∧
    (List.range 8).find? (fun e => (((cKn krec {} 0x100).arr 0).binds.get e {}).st == .free) = some 0 := by
  refine ⟨⟨(kb (cKn krec {} 0x100)).getD {}, by decide +kernel, by decide +kernel, by decide +kernel, 0x2000000, 0x4000000, by decide +kernel⟩, by decide +kernel⟩

theorem witness_KneadControl_unbind :
    (cKn krec {} 7).Has true 5 7 ∧ (7 : W64).toNat < 8 ∧ (((cKn krec {} 7).arr 0).binds.get 7 {}).st = .free ∧
    (let x : Array8 := { binds := ⟨[(7, { st := .active, part := 1 })]⟩ }
     ((cKn krec x 7).arr 0).binds.get 7 {} = { st := .active, part := 1 } ∧ (1 : Nat) ≠ (cKn krec x 7).partOf 128) ∧
    (let x : Array8 := { binds := ⟨[(7, { st := .active })]⟩ }
     (((cKn krec x 7).arr 0).binds.get 7 {}).st = .active ∧ (((cKn krec x 7).arr 0).binds.get 7 {}).part = (cKn krec x 7).partOf 128) := by
  simp only [State.Has]; decide +kernel

theorem witness_Launches_reads :
    (sLaunch recOk hdrGood).ReadsMem 0x200000 64 (seen (sLaunch recOk hdrGood) 0x200000 64) ∧ (sLaunch recOk hdrGood).ReadsMem 0x200400 128 (seen (sLaunch recOk hdrGood) 0x200400 128) ∧
    (cLaunch recOk false).ReadsMem 0x200400 128 (seen (cLaunch recOk false) 0x200400 128) ∧ (cWq true true).ReadsMem 0x20000 72 (seen (cWq true true) 0x20000 72) ∧
    (cWq true true).ReadsMem 0x12000 8 (seen (cWq true true) 0x12000 8) := by
  refine ⟨seen_reads _ _ _ (recOk) (by decide +kernel), seen_reads _ _ _ (hdrGood) (by decide +kernel), seen_reads _ _ _ hdrGood (by decide +kernel),
    seen_reads _ _ _ (List.replicate 72 0) (by decide +kernel), seen_reads _ _ _ [1, 0, 0, 0, 0, 0, 0, 0] (by decide +kernel)⟩

/-- The launching core in handler mode, its op with a ticket; the control core's launch with a write on its way, past the scratchpad, and of a header that faults. -/
def sLaunchH : State := { sLaunch recOk hdrGood with cur := { core := 0, slot := 0, op := { seq := 1, tk := some 3 } } }.modCore 0 (fun k => { k with handler := true })
def cLaunchX (f : Core → Core) : State := { (cLaunch recOk false).modCore 128 f with tlbs := [{ core := 128, tlb := 0, fn := 0, pasid := 0, va := 0x1000, size := 4096, pa := 0x200000, p1 := 2, p2 := 7 }] }

theorem witness_Launches_paths :
    ¬ sLaunchH.Holding ∧ sLaunchH.me.loadsBefore (sLaunchH.cur.op.place sLaunchH.me) = false ∧ sLaunchH.releaseOk 0 (Max.max 3 sLaunchH.cur.op.scope) = true ∧ sLaunchH.cur.op.tk.isSome = true ∧
    (cLaunchX (fun k => { k with sent := [{ id := 1, kind := 1, scope := 3 }] })).releaseOk 128 3 = false ∧
    (cLaunchX (fun k => { k with regs := ⟨[(5, 0xFFBC0)]⟩ })).Has true 5 0xFFBC0 ∧ 1047552 < (0xFFC00 : W64).toNat + 64 ∧
    (cLaunchX id).translate 128 0 (cLaunchX id).me.ctl.wqpas 0x1400 .r 128 = .fault 0x0D 0 ∧
    (cLaunch recOk false).launchPost 0 0 (cRec (cLaunch recOk false)) [] ≠ 0 := by
  simp only [State.Holding, State.Has]; decide +kernel

/-- A channel of another partition. -/
theorem witness_ChannelOps_status :
    (let s := { cChan none 0x100 {} with layout := { State.reset.layout with now := { splitLayout with quad := [1, 0] ++ List.replicate 14 0 } } }; s.partOf e0.writer ≠ s.partOf 128 ∨ s.partOf e0.reader ≠ s.partOf 128) ∧
    ((cChan (some { open_ := true, part := 1 }) 0 {}).chan 0).part ≠ (cChan none 0 {}).partOf 128 ∧ (cChan none 0x101 {}).Has true 5 0x101 ∧ (cChan none 0xFFFC0 {}).Has true 5 0xFFFC0 ∧
    1047552 < (0xFFFC0 : W64).toNat + 64 ∧ (cChan none 4096 {}).Has true 5 4096 ∧ (cChan none 0 {}).cur.op.answer = none ∧ (cChan none 0 { answer := some none }).cur.op.answer = some none := by
  simp only [State.Has]; decide +kernel

/-- WQTAKE with any operand: a reserved bit, a destination past the scratchpad, any queue. -/
def cWqV (en pkt : Bool) (v : W64) (pt : W64) : State := { (cWq en pkt).modCore 128 (fun k => { k with regs := ⟨[(5, v)]⟩ }) with fns := ⟨[(0, { pastab := pt })]⟩ }

theorem witness_SchedulerOps_takes :
    (cWqV true true 0x400 0).Has true 5 0x400 ∧ (0x400 : W64).toNat / 2 ^ 10 % 64 ≠ 0 ∧ (cWqV true true 0x3FFF0000 0).Has true 5 0x3FFF0000 ∧ 1047552 < (0x3FFF0000 : W64).toNat / 65536 * 64 + 64 ∧
    (cWqV true true 0 0).pickQueue 128 true 0 = some 0 ∧ (cWqV true false 0 0).pickQueue 128 true 0 = none ∧ (cWqV true true 0 0).pickQueue 128 false 0 = some 0 ∧
    (cWqV true false 0 0).pickQueue 128 false 0 = none ∧ ((cWqV true true 0 0x13000).fn 0).pastab = 0x13000 ∧ leNat (seen (cWqV true true 0 0x13000) 0x13000 8) % 2 = 0 := by
  simp only [State.Has]; decide +kernel

/-- FENCEREC before its first answer, with fence slots at 0, and with a write still on its way; PEELPOST records of each kind. -/
def cFence (sent : List SentRec) : State := { atC { ccore [(5, 0x100)] with sent := sent } {} with fns := ⟨[(0, { fence := 1 })]⟩ }
def postKind (n : BitVec 8) : Bytes := leBytes 8 (if n = 2 then 0 else 9) ++ leBytes 4 1 ++ List.replicate 12 0 ++ [n] ++ List.replicate 39 0

theorem witness_SchedulerOps_fence :
    (cFence []).cur.op.answer = none ∧ (cFence []).releaseOk 128 4 = true ∧ (cFence []).memRead 0 0 64 = .bytes (List.replicate 64 0) ∧ (cFence []).memRead 0 16384 64 = .bytes (List.replicate 64 0) ∧
    (cFence [{ id := 1, kind := 1, scope := 3 }]).releaseOk 128 4 = false ∧ (0x100 : W64).toNat % 64 = 0 ∧ (0x100 : W64).toNat + 448 ≤ 1047552 ∧ ((cFence []).fn 0).fence.getLsbD 0 = true := by decide +kernel

theorem witness_SchedulerOps_posts :
    recPostBad (postKind 1) = false ∧ recPostBad (postKind 2) = false ∧ fieldAt (postKind 1) 0x18 1 = 1 ∧ fieldAt (postKind 2) 0x18 1 = 2 ∧
    (cPost (postKind 2) true).me.spadRead (cPost (postKind 2) true).cur.op 0x100 64 = postKind 2 ∧ recCores (postKind 2) = [0] ∧
    (let s := { cPost postOk true with layout := { State.reset.layout with now := { splitLayout with quad := [1, 0] ++ List.replicate 14 0 } } }; ¬ ∀ x ∈ recCores postOk, s.partOf x = s.partOf 128) := by decide +kernel

theorem witness_KneadControl_rest :
    (let s := cKn kimg { dictPart := some 1 } 0x100; ∃ y, (s.arr 0).dictPart = some y ∧ y ≠ s.partOf 128) ∧
    (let s := cKn (1 :: kimg.drop 1) {} 0x100; kHeader (s.me.spadRead {} 0x100 64) ≠ none ∧ s.me.ctl.running = true) ∧
    (let s := cKn [] {} 0x100; bindRecord (s.me.spadRead {} 0x100 64) (s.arr 0).slots = none) ∧ (cKn [] {} 8).Has true 5 8 ∧ (cKn [] {} 0x140).Has true 5 0x140 ∧
    1047552 < (0xFFC00 : W64).toNat + 2048 ∧ (0x140 : W64).toNat % 64 = 0 ∧ (0x141 : W64).toNat % 64 ≠ 0 ∧
    (let x : Array8 := { binds := ⟨[(7, { st := .pending })]⟩ }; (((cKn krec x 7).arr 0).binds.get 7 {}).st = .pending) ∧
    (let x : Array8 := { binds := ⟨[(0, { st := .active, slot := 1 })]⟩ }; ∃ e ∈ ((cKn kimg x 0x100).arr 0).binds.l, e.2.st ≠ .free ∧ e.2.slot = 1) := by
  simp only [State.Has]
  refine ⟨⟨1, by decide +kernel⟩, by decide +kernel⟩

/-! ## Hypotheses that can be met: vector ops -/

def present : Entry := { st := .present, pres := true }
/-- A tile core with queues 1, 2 and 3 of a type, each with its first eight entries present and queue 4 of another type. -/
def kV (ty td : Nat) : Core :=
  let q (b t : Nat) : Queue := { en := true, ty := t, logc := 6, base := b, tail := 40, ents := ⟨(List.range 40).map (fun j => (j, present))⟩ }
  { tcore [(5, 0x100)] with queues := ⟨[(1, q 64 ty), (2, q 128 ty), (3, q 192 ty), (4, q 256 td)]⟩ }
def sV (ty td : Nat) : State := at0 (kV ty td) { seq := 1 }
def qs (q : BitVec 3) : QSpec := { b := true, q := q, k := 0 }
def oVT : VT := { q := 1, a := qs 2, b := qs 3, g := 31 }
def oVU : VU := { q := 1, a := qs 2, g := 31 }
def oVN : VN := { q := 1, s := 5, bs := true, g := 31 }
def oVS : VS := { q := 1, a := qs 2, s := 5, bs := true, g := 31 }
def oVW : VW := { a := qs 2, s := 5, bs := true, g := 31 }
def oVC : VC := { q := 4, a := qs 2, usrc := false, udst := false, g := 31 }
def zeros : Bytes := List.replicate 256 0

theorem witness_VectorFloatResults :
    (sV 8 8).me.clsF [oVT.q, oVT.a.q, oVT.b.q] = true ∧ (sV 8 8).Reads oVT.a zeros ∧ (sV 8 8).Reads oVT.b zeros ∧ (sV 8 8).me.clsF [oVT.q, oVT.a.q, oVT.b.q, (qs 1).q] = true ∧
    (sV 8 8).Reads (qs 1) zeros ∧ (sV 8 8).me.clsF [oVU.q, oVU.a.q] = true := by
  simp only [State.Reads]; decide +kernel

theorem witness_VectorIntegerResults :
    (sV 3 3).Reads oVT.a zeros ∧ (sV 3 3).Reads oVT.b zeros ∧ (sV 3 3).me.clsX [oVT.q, oVT.a.q, oVT.b.q] = true ∧ (sV 3 3).me.clsI [oVT.q, oVT.a.q, oVT.b.q] = true ∧
    tyInt ((sV 3 3).me.qTy oVT.b.q) = true ∧ (sV 3 3).me.clsX [oVS.q, oVS.a.q] = true ∧ (sV 3 3).Has oVS.bs oVS.s 0x100 ∧ (sV 3 3).me.clsX [oVN.q] = true ∧
    (sV 3 3).me.clsI [oVN.q] = true := by
  simp only [State.Reads, State.Has]; decide +kernel

theorem witness_VectorComparesAndConversions :
    (sV 8 8).me.clsF [(qs 2).q, (qs 3).q] = true ∧ (sV 3 3).me.clsI [(qs 2).q, (qs 3).q] = true ∧ (sV 8 8).Reads (qs 2) zeros ∧ (sV 8 8).Reads (qs 3) zeros ∧
    (sV 8 8).Free (.pred 4) ∧ enabled ((sV 3 3).maskOf 31) 32 ≠ [] ∧ enabled ((sV 3 3).maskOf 3) 32 = [] ∧ (sV 3 3).Reads oVU.a zeros ∧ (sV 3 3).me.clsI [oVU.q, oVU.a.q] = true := by
  simp only [State.Reads, State.Free]; decide +kernel

theorem witness_VectorComparesAndConversions_conv :
    (sV 8 3).me.qOn oVC.a.q = true ∧ (sV 8 3).me.qOn oVC.q = true ∧ cvtOk 0 8 8 oVC = true ∧ cvtOk 1 8 3 oVC = true ∧ cvtOk 3 6 8 oVC = true ∧ cvtOk 2 8 6 oVC = true ∧
    (sV 8 6).me.qTy oVC.a.q = 8 ∧ (sV 8 6).me.qTy oVC.q = 6 ∧ oVC.a.k.toNat + tyWidth 8 / tyWidth 6 ≤ 32 ∧ (sV 8 6).me.readEnts (sV 8 6).cur.op oVC.a 2 = .val [zeros, zeros] := by
  decide +kernel

theorem witness_VectorMemory_loads :
    (sV 3 3).me.clsX [oVN.q] = true ∧ (sV 3 3).Has oVN.bs oVN.s 0x100 ∧ (0x100 : W64).toNat % (tyWidth 3 / 8) = 0 ∧ (0x100 : W64).toNat + 256 ≤ (sV 3 3).me.limSpad ∧
    (∀ i ∈ enabled ((sV 3 3).maskOf oVN.g) (tyWidth 3), (sV 3 3).me.gated ((0x100 : W64).toNat + i * 4) 4 = false) ∧ (sV 3 3).me.storeWait (sV 3 3).cur.op 0x100 256 = false ∧
    (∀ i ∈ enabled ((sV 3 3).maskOf oVS.g) (tyWidth 3), (0x100 : W64).toNat + elemAt 3 zeros i * 4 + 4 ≤ (sV 3 3).me.limSpad ∧ (sV 3 3).me.gated ((0x100 : W64).toNat + elemAt 3 zeros i * 4) 4 = false ∧
      (sV 3 3).me.storeWait (sV 3 3).cur.op ((0x100 : W64).toNat + elemAt 3 zeros i * 4) 4 = false) := by
  simp only [State.Has]; decide +kernel

theorem witness_VectorMemory_stores :
    (sV 3 3).Reads oVW.a zeros ∧ (sV 3 3).cur.op.srcs = [] ∧ (sV 3 3).Holding ∧ ¬ (at0 { kV 3 3 with handler := true } {}).Holding ∧
    (sV 3 3).me.entryCount + (linesOf (storeCells ((sV 3 3).maskOf oVW.g) 3 zeros (fun i => (0x100 : W64).toNat + i * 4))).length ≤ 256 ∧
    (sV 3 3).Reads { b := true, q := oVS.q, k := 0 } zeros := by
  simp only [State.Reads, State.Holding]; decide +kernel

/-- s5 names row 31, second half, of tile 511. -/
def sAcc : State := at0 { kV 8 8 with regs := ⟨[(5, 0x7FFF)]⟩ } { seq := 1 }
theorem witness_VectorMemory_stripes :
    (0x7FFF : W64).toNat < 2 ^ 15 ∧ (0x7FFF : W64).toNat / 64 < sAcc.me.limNacc ∧ sAcc.me.qOn oVN.q = true ∧ sAcc.me.qTy oVN.q = 8 ∧ sAcc.Has oVN.bs oVN.s 0x7FFF ∧
    sAcc.me.tileBusy sAcc.cur.op 511 = false ∧ sAcc.me.qTy oVW.a.q = 8 ∧ sAcc.Reads oVW.a zeros ∧ enabled (sAcc.maskOf 3) 32 = [] ∧ enabled (sAcc.maskOf 31) 32 ≠ [] ∧
    (sAcc.me.shadowTile sAcc.cur.op 511).isSome = true := by
  simp only [State.Has, State.Reads]; decide +kernel

/-- The same state with another base address, in handler mode, and with a full buffer. -/
def sVx (ty : Nat) (v : W64) (f : Core → Core) : State := at0 (f { kV ty ty with regs := ⟨[(5, v)]⟩ }) { seq := 1 }
def toHandler (k : Core) : Core := { k with handler := true }
def withFull (k : Core) : Core := { k with items := (List.range 256).map (fun j => { seq := 1, ival := 0, pc := 0, slot := 0, scope := 0, rel := false, kind := .store false (100 + j) [] [] [] }) }

theorem witness_VectorMemory_checks :
    (sVx 3 0x102 id).Has true 5 0x102 ∧ (0x102 : W64).toNat % (tyWidth 3 / 8) ≠ 0 ∧ (sVx 3 0x3FFF80 id).Has true 5 0x3FFF80 ∧ 4194304 < (0x3FFF80 : W64).toNat + 256 ∧
    (sVx 3 0x3FFF00 id).Has true 5 0x3FFF00 ∧ (0x3FFF00 : W64).toNat + 256 ≤ 4194304 ∧ (sVx 3 0x3FFF00 id).me.limSpad < (0x3FFF00 : W64).toNat + 256 ∧
    (sV 3 3).me.unfilled (sV 3 3).cur.op.seq 0x100 256 = false ∧ tyWidth 1 = 8 ∧ (sV 1 1).me.clsX [oVS.q, oVS.a.q] = true ∧
    (sVx 3 0x400000 id).Has true 5 0x400000 ∧ 4194304 < (0x400000 : W64).toNat + elemAt 3 zeros 0 * 4 + 4 ∧ 0 ∈ enabled ((sVx 3 0x400000 id).maskOf oVS.g) 32 := by
  simp only [State.Has]; decide +kernel

theorem witness_VectorMemory_room :
    (sV 3 3).RoomFor false (storeCells ((sV 3 3).maskOf oVW.g) 3 zeros (fun i => (0x100 : W64).toNat + i * 4)) ∧
    ¬ (sVx 3 0x100 withFull).RoomFor false (storeCells ((sVx 3 0x100 withFull).maskOf oVW.g) 3 zeros (fun i => (0x100 : W64).toNat + i * 4)) ∧
    (sVx 3 0x100 withFull).Holding ∧ (sVx 3 0x100 withFull).Reads oVW.a zeros ∧ (sVx 3 0x100 withFull).Has true 5 0x100 ∧ ¬ (sVx 3 0x100 toHandler).Holding ∧ (sVx 3 0x100 toHandler).Reads oVW.a zeros := by
  simp only [State.RoomFor, State.Holding, State.Reads, State.Has]; decide +kernel

/-- Accumulator tile 0 with a write in progress. -/
def kBusy (k : Core) : Core := { k with jobs := [{ tile := 0, seq := 0, ival := 0 }] }
theorem witness_VectorMemory_stripes_other :
    (sVx 8 0x8000 id).Has true 5 0x8000 ∧ 2 ^ 15 ≤ (0x8000 : W64).toNat ∧ (sVx 8 0 (fun k => { k with sys := { k.sys with lima := 0 } })).me.limNacc ≤ 0 ∧
    (sVx 8 0 (fun k => { k with sys := { k.sys with lima := w64 1 } })).me.shadowTile { seq := 1 } 0 = none ∧ 0 < (sVx 8 0 (fun k => { k with sys := { k.sys with lima := w64 1 } })).me.limNacc ∧
    (sVx 8 0 id).Has true 5 0 ∧ (sVx 8 0 kBusy).me.tileBusy { seq := 1 } 0 = true := by
  simp only [State.Has]; decide +kernel

/-! ## Hypotheses that can be met: matrix ops, copy commands, Knead cells -/

/-- A layout whose partition 0 has a weight-store window on die 0, of 1 GiB. -/
def wsLayout : LayoutRec := { LayoutRec.reset with ws := (0, 16384) :: List.replicate 63 (0, 0) }
def withWs (s : State) : State := { s with layout := { s.layout with now := wsLayout } }
def sM (ty td : Nat) (rep : Rep) : State := withWs (at0 { kV ty td with regs := ⟨[(5, 0x100), (6, 3)]⟩ } { seq := 1, rep := rep })

theorem witness_MatrixOps_tiles :
    (sM 9 9 {}).me.stageGuard {} 0 = true ∧ (sM 9 9 {}).me.stageGuard {} 8 = false ∧ (sM 9 9 {}).TileFree 511 ∧ (sM 9 9 {}).MatOk (.mzero 511 0) 0 ∧ (sM 9 9 {}).MatOk (.msetx 3 511 0) 0 ∧
    (sM 9 9 {}).MatOk (.mscl 3 511 0) 0 ∧ (sM 9 9 {}).MatOk (.macccp 4 511 0) 0 ∧ (sM 9 9 {}).me.tileBusy (sM 9 9 {}).cur.op 4 = false ∧ (sM 9 9 { n := 2, step := 1 }).me.stream = none ∧
    (∀ i ∈ [Instr.mmul (qs 2) 4 0 0, .mmac (qs 2) 4 0 0, .mzero 4 0, .msetx 3 4 0, .mscl 3 4 0, .mrdout 1 4 0], (shapeOf (sM 9 9 { n := 2, step := 1 }).me (sM 9 9 { n := 2, step := 1 }).cur.op.rep i).tyOk = true) := by
  simp only [State.TileFree, State.MatOk]; decide +kernel

theorem witness_MatrixOps_loads :
    (sM 9 9 {}).MatOk (.mldb (qs 2) 1 0) 0 ∧ (sM 9 9 {}).me.loadReady 1 = true ∧ ((sM 9 9 {}).me.bank 1).rdi = false ∧ ((at0 { kV 9 9 with banks := ⟨[(1, { rdi := true })]⟩ } {}).me.bank 1).rdi = true ∧
    (sM 9 9 {}).MatOk (.mldbw true 5 9 1 0) 0 ∧ (sM 9 9 {}).Has true 5 0x100 ∧ (sM 9 9 {}).Has true 6 3 ∧ (3 : W64).toNat % 256 ≠ 0 ∧
    (0x100 : W64).toNat + wsTileSize 9 ≤ ((sM 9 9 {}).layout.now.ws.getD (4 * (sM 9 9 {}).partOf 0 + dieOf 0) (0, 0)).2 * 65536 ∧
    (sJr 0x40000000).Has true 5 0x40000000 ∧ ((sM 9 9 {}).layout.now.ws.getD (4 * (sM 9 9 {}).partOf 0 + dieOf 0) (0, 0)).2 * 65536 < (0x40000000 : W64).toNat + wsTileSize 9 := by
  simp only [State.Has, State.MatOk]; decide +kernel

/-- The packed tile of nine entries of queue 2, and four B entries' worth. -/
def nines (n : Nat) : List Bytes := List.replicate n zeros
theorem witness_MatrixOps_reads :
    (sM 9 9 {}).me.readEnts (sM 9 9 {}).cur.op (qs 2) ((bTile 9).getD 0) = .val (nines 36) ∧ (sM 9 9 {}).me.readEnts (sM 9 9 {}).cur.op (qs 2) ((aTile 9).getD 0) = .val (nines 9) ∧
    (sM 9 9 {}).me.readEnts (sM 9 9 {}).cur.op (qs 2) ((aTile 9).getD 0 + 1) = .val (nines 10) ∧ (sM 9 9 {}).MatOk (.mmul (qs 2) 4 1 0) 0 ∧ (sM 9 9 {}).MatOk (.mmac (qs 2) 4 1 0) 0 ∧
    (sM 9 9 {}).me.mulReady (sM 9 9 {}).cur.op 4 1 1 = true ∧ ((sM 9 9 {}).me.shadowTile (sM 9 9 {}).cur.op 4).isSome = true ∧ (sM 9 9 {}).me.convBusy = false ∧
    (sM 9 9 {}).MatOk (.mrdout 1 4 0) 0 ∧ (sM 9 8 {}).MatOk (.mcvt (qs 2) 4 0) 0 ∧ (sM 9 9 {}).MatOk (.mreq (qs 2) 1 true 0) 0 ∧ (sM 9 9 {}).MatOk (.mtrn (qs 2) 1 0) 0 := by
  simp only [State.MatOk]; decide +kernel

/-! Copy commands -/

/-- A layout record of rank 1: FP32, base 0x1000, extent 64, stride 4, window 64 (R298). -/
def lay64 : BitVec 768 := BitVec.ofNat 768 (0x1000 + 8 * 2 ^ 64 + 64 * 2 ^ 128 + 4 * 2 ^ 160 + 64 * 2 ^ 208)
def sCopy (regs : List (Nat × W64)) : State :=
  { withWs (at0 { kV 8 8 with regs := ⟨regs⟩, lays := ⟨[(0, lay64), (1, lay64)]⟩ } { seq := 1 }) with
    tlbs := [1, 2].map (fun t => { core := 0, tlb := t, fn := 0, pasid := 0, va := 0x1000, size := 4096, pa := 0x200000, p1 := 7, p2 := 7 }) }
def oCQ : CQ := { l := 0, q := 1, s := 8, c := 0, acq := false, rel := false, np := true, sg := 0 }
def oCN : CN := { l := 0, s := 8, c := 0, acq := false, rel := false, np := true, sg := 0 }

theorem witness_CopyCommands_queues :
    (sCopy []).CopyOk (.cldq oCQ) oCQ.sg oCQ.l oCQ.s.toNat 0 [0] ∧ (sCopy []).CopyOk (.cstq oCQ) oCQ.sg oCQ.l oCQ.s.toNat 0 [0] ∧ (sCopy []).CopyOk (.cred oCQ) oCQ.sg oCQ.l oCQ.s.toNat 0 [0] ∧
    (sCopy []).me.readEnts (sCopy []).cur.op { b := true, q := 1, k := 0 } 1 = .val [zeros] ∧ (layEntries ((sCopy []).me.layOf (sCopy []).cur.op 0)).getD 0 = 1 ∧
    (sCopy []).CopyOk (.ccpy oCQ) oCQ.sg oCQ.l oCQ.s.toNat (layRank lay64) [0, 0] := by
  have h1 : ∀ (j : Nat) (v : W64), ([0] : List W64)[j]? = some v → (sCopy []).me.readReg (sCopy []).cur.op true (oCQ.s.toNat + j) = .val v := by
    intro j v h; match j with
    | 0 => cases h; decide +kernel
    | j + 1 => cases h
  have h2 : ∀ (j : Nat) (v : W64), ([0, 0] : List W64)[j]? = some v → (sCopy []).me.readReg (sCopy []).cur.op true (oCQ.s.toNat + j) = .val v := by
    intro j v h; match j with
    | 0 => cases h; decide +kernel
    | 1 => cases h; decide +kernel
    | j + 2 => cases h
  refine ⟨⟨?_, ?_, ?_, h1⟩, ⟨?_, ?_, ?_, h1⟩, ⟨?_, ?_, ?_, h1⟩, ?_, ?_, ⟨?_, ?_, ?_, h2⟩⟩ <;> decide +kernel

theorem witness_CopyCommands_windows :
    (∀ i ∈ [Instr.clds oCN, .csts oCN, .cbcast oCN, .cws oCN], (sCopy []).CopyOk i oCN.sg oCN.l oCN.s.toNat 1 [0, 0]) ∧
    (∀ i ∈ [Instr.cpref oCN, .czero oCN], (sCopy []).CopyOk i oCN.sg oCN.l oCN.s.toNat 0 [0]) ∧
    (0 % imageAlign lay64 = 0 ∧ 0 + imageSize lay64 ≤ spadSize 0 ∧ 0 + imageSize lay64 ≤ (sCopy []).me.limSpad ∧ (sCopy []).me.gated 0 (imageSize lay64) = false) ∧
    oCN.np = true ∧ 0 + layBytes lay64 ≤ ((sCopy []).wsWindow ((sCopy []).partOf 0) (dieOf 0)).2 * 65536 := by
  have h1 : ∀ (j : Nat) (v : W64), ([0] : List W64)[j]? = some v → (sCopy []).me.readReg (sCopy []).cur.op true (oCN.s.toNat + j) = .val v := by
    intro j v h; match j with
    | 0 => cases h; decide +kernel
    | j + 1 => cases h
  have h2 : ∀ (j : Nat) (v : W64), ([0, 0] : List W64)[j]? = some v → (sCopy []).me.readReg (sCopy []).cur.op true (oCN.s.toNat + j) = .val v := by
    intro j v h; match j with
    | 0 => cases h; decide +kernel
    | 1 => cases h; decide +kernel
    | j + 2 => cases h
  have g1 : ∀ i ∈ [Instr.clds oCN, .csts oCN, .cbcast oCN, .cws oCN], (sCopy []).me.copyCheck i = none := by decide +kernel
  have g2 : ∀ i ∈ [Instr.cpref oCN, .czero oCN], (sCopy []).me.copyCheck i = none := by decide +kernel
  refine ⟨fun i hi => ⟨by decide +kernel, fun _ => g1 i hi, by decide +kernel, h2⟩, fun i hi => ⟨by decide +kernel, fun _ => g2 i hi, by decide +kernel, h1⟩, ?_⟩
  decide +kernel

/-- What a command asks of its port, for a command that is held (a store of the window) and for one that is not. -/
theorem witness_CopyCommands_ports :
    (sCopy []).me.portLoad 1 < Config.portStarted ∧
    (let m : CopyCmd := { (sCopy []).cmdOf .csts true false false none lay64 with org := [0], a0 := 0 }
     (match (sCopy []).preCheck 0 m m.count 0 [] with | .ok _ => true | _ => false) = true ∧
     ((sCopy []).me.ports.filter (fun x => x.held && x.ival == m.ival && x.port == m.port)).length < Config.portHeld) := by decide +kernel

/-- A remote write to core 1 at 0x100; a fabric reduction whose group 0 is on, of one entry of FP32. -/
def sRemote : State := sCopy [(8, 0x800100)]
theorem witness_CopyCommands_remote :
    sRemote.Has true 8 0x800100 ∧ (0x800100 : W64).toNat < 2 ^ 30 ∧ (0x800100 : W64).toNat % 256 = 0 ∧ (0x800100 : W64).toNat / 2 ^ 23 % 128 = 1 ∧ (1 : Nat) ≠ sRemote.cur.core ∧
    sRemote.partOf 1 = sRemote.partOf 0 ∧ sRemote.me.qOn 1 = true ∧ sRemote.me.readEnts sRemote.cur.op { b := true, q := 1, k := 0 } 1 = .val [zeros] := by
  simp only [State.Has]; decide +kernel

/-- A partition whose fabric group 1 is enabled: FP32, one entry, member 0 of one, port 0. -/
def sFab : State := { sCopy [(8, 0x10000000100)] with fns := ⟨[(0, { fgrp := ⟨[(2, BitVec.ofNat 64 (1 + 8 * 2 ^ 28)), (3, 1)]⟩ })]⟩ }
theorem witness_CopyCommands_fabric :
    sFab.Has true 8 0x10000000100 ∧ (0x10000000100 : W64).toNat < 2 ^ 46 ∧ (0x10000000100 : W64).getLsbD 23 = false ∧ (0x10000000100 : W64).toNat / 2 ^ 40 % 64 = 1 ∧
    sFab.grpOn (sFab.fgrp (sFab.partOf 0) 1) = true ∧ 0 = (sFab.fgrp 0 1).1 / 2 ^ 21 % 8 ∧ sFab.me.qTy 1 = (sFab.fgrp 0 1).1 / 2 ^ 28 % 16 ∧ 0x100 % 256 = 0 ∧
    0x100 + 256 * 1 ≤ sFab.me.limSpad ∧ sFab.me.readEnts sFab.cur.op { b := true, q := 1, k := 0 } 1 = .val [zeros] := by
  simp only [State.Has]; decide +kernel

/-- A cell that holds a flit, for an op that writes its register and its output. -/
def loc0 : CellLoc := { arr := 0, col := 0, row := 0 }
def cw0 : CellWord := decCellFields 0
def sCell : State := { State.reset with arrays := ⟨[(0, { cells := ⟨[(0, { inp := some { data := 5, tag := 0, ctl := false } })]⟩ })]⟩ }
theorem witness_KneadCellOps :
    sCell.CellReady loc0 cw0 3 { data := 5, tag := 0, ctl := false } ∧ (sCell.cell loc0).src cw0 { data := 5, tag := 0, ctl := false } cw0.sa < 2 ^ 512 ∧ cw0.mode.toNat < 2 := by
  simp only [State.CellReady]; decide +kernel

/-- Entry 0 of queue 2 is still to come; the ops of one that names it with and without its block bit. -/
def sMw (o : SlipOp) : State := (sM 9 9 {}).modCore 0 (fun k => k.setQueue 2 ((k.queue 2).setEnt 0 { st := .reserved })) |> fun s => { s with cur := { core := 0, slot := 3, op := o } }
def qn : QSpec := { b := false, q := 2, k := 0 }
theorem witness_MatrixOps_waits :
    (sMw { seq := 1, single := false }).me.readEnts (sMw { seq := 1, single := false }).cur.op (qs 2) ((aTile 9).getD 0) = .wait ∧
    (sMw { seq := 1, single := false }).me.readEnts (sMw { seq := 1, single := false }).cur.op qn ((aTile 9).getD 0) = .fault 0x06 2 ∧
    (sMw { seq := 1, single := false }).me.readEnts (sMw { seq := 1, single := false }).cur.op qn ((bTile 9).getD 0) = .fault 0x06 2 ∧ (sMw { seq := 1 }).MatOk (.mldb qn 1 0) 0 ∧
    (sMw { seq := 1 }).MatOk (.mmul qn 4 1 0) 0 ∧ (sMw { seq := 1 }).MatOk (.mtrn qn 1 0) 0 ∧ (sMw { seq := 1 }).me.loadReady 1 = true ∧ (sMw { seq := 1 }).me.mulReady (sMw { seq := 1 }).cur.op 4 1 1 = true := by
  simp only [State.MatOk]; decide +kernel

/-- The engine's parts busy: a bank loading, both lanes computing, the conversion unit converting, a tile's write in progress; no shadow left; tile 4 dirty. -/
def sMb (f : Core → Core) : State := (sM 9 9 {}).modCore 0 f
theorem witness_MatrixOps_busy :
    (sMb (fun k => { k with banks := ⟨[(1, { st := .loading })]⟩ })).me.loadReady 1 = false ∧ (sMb (fun k => { k with banks := ⟨[(1, { st := .computing })]⟩ })).me.mulReady { seq := 1 } 4 1 1 = false ∧
    (sMb (fun k => { k.setQueue 2 ((k.queue 2).setEnt 0 { st := .reserved }) with conv := some (2, 0, 0) })).me.convBusy = true ∧ (sMb kBusy).me.tileBusy { seq := 1 } 0 = true ∧
    (sMb (fun k => { k with sys := { k.sys with lima := w64 512 } })).me.shadowTile { seq := 1 } 4 = none ∧ (sMb (fun k => { k with sys := { k.sys with lima := w64 512 } })).MatOk (.mzero 4 0) 0 ∧
    (sMb (fun k => { k with sys := { k.sys with lima := w64 512 } })).me.mulReady { seq := 1 } 4 1 1 = true ∧ (sMb kBusy).MatOk (.macccp 0 4 0) 0 ∧
    (sM 9 9 {}).me.stageGuard (sM 9 9 {}).cur.op 8 = false := by
  simp only [State.MatOk]; decide +kernel

/-! Copy commands that fail, wait or are turned back -/

theorem witness_CopyCommands_stage : (sCopy []).me.stageGuard (sCopy []).cur.op 8 = false ∧ (sCopy []).cur.op.lays = [] := by decide +kernel
theorem witness_CopyCommands_records :
    (sCopy []).me.copyCheck (.cldq { oCQ with l := 2 }) ≠ none ∧ (sCopy []).me.copyCheck (.ccpy { oCQ with q := 2 }) ≠ none ∧ (sCopy []).me.copyCheck (.clds { oCN with l := 2 }) ≠ none ∧
    (sCopy []).me.copyCheck (.czero { oCN with l := 2 }) ≠ none := by decide +kernel

theorem witness_CopyCommands_images :
    (1 : W64).toNat % imageAlign lay64 ≠ 0 ∧ (0x400000 : W64).toNat % imageAlign lay64 = 0 ∧ spadSize 0 < (0x400000 : W64).toNat + imageSize lay64 ∧
    (0x3FFF00 : W64).toNat % imageAlign lay64 = 0 ∧ (0x3FFF00 : W64).toNat + imageSize lay64 ≤ spadSize 0 ∧ (sCopy []).me.limSpad < (0x3FFF00 : W64).toNat + imageSize lay64 ∧
    (sCopy []).me.imageGated lay64 [0] 0 = false ∧
    ((sCopy []).modCore 0 (fun k => { k with rts := ⟨[(0, { valid := true, start := 0, len := 256 })]⟩ })).me.imageGated lay64 [0] 0 = true := by decide +kernel

theorem witness_CopyCommands_weights :
    isCtl (sCopy []).cur.core = false ∧ ({ oCN with np := false } : CN).np = false ∧ (1 : W64).toNat % 256 ≠ 0 ∧ (0x40000000 : W64).toNat % 256 = 0 ∧
    ((sCopy []).wsWindow ((sCopy []).partOf 0) (dieOf 0)).2 * 65536 < (0x40000000 : W64).toNat + layBytes lay64 := by decide +kernel

/-- A held command whose page faults, whose page is not there, and whose port is full; and one that begins at once at a port with 16 started ones. -/
def cmdSt (s : State) : CopyCmd := { s.cmdOf .csts true false false none lay64 with org := [0], a0 := 0 }
def sCopyT (p1 : Nat) (t : List TlbEnt) : State := { sCopy [] with tlbs := t ++ [1, 2].map (fun t => { core := 0, tlb := t, fn := 0, pasid := 0, va := 0x1000, size := 4096, pa := 0x200000, p1 := p1, p2 := 7 }) }
def preOf (s : State) : Except (W64 × Tr) (List (Nat × Nat)) := s.preCheck 0 (cmdSt s) (cmdSt s).count 0 []
def isFault {α : Type} : Except (W64 × Tr) α → Bool
  | .error (_, .fault _ _) => true
  | _ => false
def isMiss {α : Type} : Except (W64 × Tr) α → Bool
  | .error (_, .miss) => true
  | _ => false
def sCopyF (n : Nat) (held : Bool) : State := (sCopy []).modCore 0 (fun k => { k with ports := (List.range n).map (fun j => { cmdSt (sCopy []) with id := j, sent := !held, held := held }) })
theorem witness_CopyCommands_pages :
    isFault (preOf (sCopyT 1 [])) = true ∧ isMiss (preOf { sCopy [] with tlbs := [] }) = true ∧ (cmdSt (sCopy [])).held = true ∧
    Config.portHeld ≤ ((sCopyF 32 true).me.ports.filter (fun x => x.held && x.ival == (cmdSt (sCopy [])).ival && x.port == (cmdSt (sCopy [])).port)).length ∧
    Config.portStarted ≤ (sCopyF 16 false).me.portLoad (cmdSt (sCopy [])).port := by decide +kernel

theorem witness_CopyCommands_remote_faults :
    (sCopy [(8, 0x800101)]).Has true 8 0x800101 ∧ (0x800101 : W64).toNat % 256 ≠ 0 ∧ (sCopy [(8, 0x40000000)]).Has true 8 0x40000000 ∧ 2 ^ 30 ≤ (0x40000000 : W64).toNat ∧
    (sCopy [(8, 0x100)]).Has true 8 0x100 ∧ (0x100 : W64).toNat / 2 ^ 23 % 128 = (sCopy []).cur.core ∧
    (let s := { sCopy [(8, 0x4800100)] with layout := { State.reset.layout with now := splitLayout } }; (0x4800100 : W64).toNat / 2 ^ 23 % 128 = 9 ∧ s.partOf 9 ≠ s.partOf 0) := by
  simp only [State.Has]; decide +kernel

theorem witness_CopyCommands_fabric_faults :
    (0x10000800100 : W64).getLsbD 23 = true ∧ 0x180 % 256 ≠ 0 ∧ 4194304 < 0x400000 + 256 * 1 ∧ sFab.me.limSpad < 0x3FFF00 + 256 * 1 ∧ 0x3FFF00 + 256 * 1 ≤ 4194304 ∧
    sFab.grpOn (sFab.fgrp 0 2) = false ∧ (sFab.modCore 0 (fun k => k.setQueue 1 ((k.queue 1).setEnt 0 { st := .reserved }))).me.readEnts {} { b := true, q := 1, k := 0 } 1 = .wait := by decide +kernel

theorem witness_KneadCellOps_ready : sCell.CellReady loc0 cw0 1 { data := 5, tag := 0, ctl := false } ∧ (2 ≤ (decCellFields 2).mode.toNat ∨ cw0.mode.toNat < 2) := by
  simp only [State.CellReady]; decide +kernel

/-! ## Hypotheses that can be met: what is in flight lands -/

/-- Core 0 with an entry of queue 1 reserved at place 4, or drained meanwhile with a reader left or none. -/
def kEnt (e : Entry) : Core := { kQ 10 with queues := ⟨[(1, { en := true, ty := 0, logc := 4, base := 16, tail := 1, ents := ⟨[(0, e)]⟩ })]⟩ }
def arr0 : QArr := { core := 0, q := 1, idx := 0, data := some zeros, flags := 0, seq := 4 }

theorem witness_ArrivalsAndPosts_core :
    (((kEnt { st := .reserved, seq := 4 }).queue 1).ent arr0.idx).seq = arr0.seq ∧ (((kEnt { st := .reserved, seq := 4 }).queue 1).ent arr0.idx).st = .reserved ∧
    (((kEnt { st := .draining, seq := 4, readers := 1 }).queue 1).ent 0).readers ≠ 0 ∧ (((kEnt { st := .draining, seq := 4 }).queue 1).ent 0).readers = 0 ∧
    (kEnt { st := .reserved, seq := 4 }).spad.cells.wf = true ∧
    (let p : Pend := { tk := 1, dst := .reg 5, vis := 0, fe := true, val := none, ival := 0 }
     p ∈ (sWait.core 0).pend ∧ (∀ q ∈ (sWait.core 0).pend, q.dst = p.dst → q = p) ∧ p.vis ≤ (sWait.core 0).bundleNo) ∧
    (∀ q ∈ (sWait.core 0).pend, q.dst ≠ .reg 6) := by decide +kernel

/-- An op of two entries, one of them still to come; an op of a closed interval. -/
def kEnt2 : Core := { kQ 10 with ival := 3, queues := ⟨[(1, { en := true, ty := 0, logc := 4, base := 16, tail := 2, ents := ⟨[(0, { st := .reserved, seq := 4, ival := 1 }), (1, { st := .reserved, seq := 4, ival := 1 })]⟩ })]⟩ }
def leftOf (s : State) : Bool := match exec (.queueEntryArrival arr0) s with
  | .next t => (t.core 0).queues.l.any (fun q => q.2.ents.l.any (fun e => e.2.seq == 4 && !e.2.pres && (e.2.st == .reserved || e.2.st == .draining)))
  | _ => false

theorem witness_ArrivalsAndPosts_flags :
    leftOf (at0 kEnt2 {}) = true ∧ leftOf (at0 (kEnt { st := .reserved, seq := 4 }) {}) = false ∧ ((kEnt2.queue 1).ent 0).ival < kEnt2.ival ∧ ((kEnt2.queue 1).ent 0).seq = arr0.seq ∧
    (let p : Pend := { tk := 1, dst := .reg 5, vis := 0, fe := true, val := none, ival := 0 }
     p ∈ tkWait.pend ∧ p.fin = false ∧ p.dead = false ∧ p.ival < ({ tkWait with ival := 2 } : Core).ival) := by decide +kernel

/-- Core 0 with bank 1 loading, bank 2 computing on streamed tile 1, a write of tile 4, and a repeated MZERO of three tiles, at its first or its last one. -/
def kMx (j : Nat) : Core :=
  { tcore [] with banks := ⟨[(1, { st := .loading, incoming := some (11, zeros, 0, 0) }), (2, { st := .computing })]⟩, bankJobs := [(2, 1)], jobs := [{ tile := 4, seq := 1, ival := 0 }],
                  stream := some { op := { op := .mzero 8 0, seq := 2, rep := { n := 3, step := 2 } }, j := j } }
/-- The same in the window in which bank group 0 is refreshed, with the bank's tile from there. -/
def sRef : State := { at0 { kMx 0 with banks := ⟨[(1, { st := .loading, incoming := some (11, zeros, 0, 0), wsOff := some (0, 9) })]⟩ } {} with clk := { refresh := some 0 } }

theorem witness_EnginesProgress_matrix :
    ((kMx 0).bank 1).incoming = some (11, zeros, 0, 0) ∧ (at0 (kMx 0) {}).loadRefresh 0 ((kMx 0).bank 1) = false ∧ (kMx 0).bankJobs.find? (fun j => j.1 == 2) = some (2, 1) ∧
    (∀ j ∈ (kMx 0).bankJobs.erase (2, 1), j.2 ≠ 1) ∧ ((kMx 0).jobs.find? (fun x => x.tile == 4)).isSome = true ∧
    (∃ st, (kMx 0).stream = some st ∧ st.op.op = .mzero 8 0 ∧ st.running = true ∧ st.na = 0 ∧ (kMx 0).trap = none ∧ (kMx 0).tileBusy st.op (8 + 0 * 2) = false ∧
      ((kMx 0).shadowTile st.op 8).isSome = true ∧ st.j + 1 < st.op.rep.n) ∧
    (∃ st, (kMx 2).stream = some st ∧ (kMx 2).tileBusy st.op (8 + st.j * st.op.rep.step) = false ∧ st.op.rep.n ≤ st.j + 1) ∧ sRef.loadRefresh 0 ((sRef.core 0).bank 1) = true := by
  refine ⟨by decide +kernel, by decide +kernel, by decide +kernel, by decide +kernel, by decide +kernel, ⟨_, rfl, by decide +kernel⟩, ⟨_, rfl, by decide +kernel⟩, by decide +kernel⟩

/-- A streamed repeat whose last iteration has started and whose tile the last of two banks has read, or one bank still reads. -/
def kPop (jobs : List (Nat × Nat)) : Core :=
  { kMx 0 with ival := 2, bankJobs := jobs, stream := some { op := { op := .mmul (qs 2) 4 1 0, seq := 2, ival := 1, rep := { n := 1, step := 0 } }, j := 1, running := false, na := 1, q := 1 } }
theorem witness_EnginesProgress_pops :
    (∃ st, (kPop [(2, 1)]).stream = some st ∧ (∀ j ∈ (kPop [(2, 1)]).bankJobs.erase (2, 1), j.2 ≠ 1) ∧ st.op.ival < (kPop [(2, 1)]).ival ∧ st.running = false ∧ st.popped + 1 = st.tiles st.j) ∧
    (∃ j ∈ (kPop [(2, 1), (3, 1)]).bankJobs.erase (2, 1), j.2 = 1) ∧
    (∃ st, (kMx 0).stream = some st ∧ ({ kMx 0 with jobs := [{ tile := 8, seq := 1, ival := 0 }] } : Core).tileBusy st.op 8 = true) := by
  refine ⟨⟨_, rfl, by decide +kernel⟩, ⟨(3, 1), by decide +kernel⟩, ⟨_, rfl, by decide +kernel⟩⟩

/-- A command of the layout lay64, in a phase, at a window element. -/
def cmd (k : CopyKind) (ph e : Nat) : CopyCmd :=
  { (sCopy []).cmdOf k false false false (some 3) lay64 with id := 1, org := [0], a0 := 0, phase := ph, next := e }
def sCmd (m : CopyCmd) : State := (sCopy []).modCore 0 (fun k => { k with ports := [m] })
/-- A window that begins one element before the tensor: its first element reads as the fill value, where the record has one, and as nothing else. -/
def cmdOut (fill : Bool) : CopyCmd := { cmd .clds 1 0 with org := [-1], lay := BitVec.ofNat 768 (lay64.toNat + (if fill then 2 ^ 71 else 0)) }

theorem witness_EnginesProgress_copy :
    ((sCmd (cmd .clds 0 0)).core 0).cmd 1 = some (cmd .clds 0 0) ∧ (cmd .clds 0 0).stopped = false ∧ (cmd .clds 0 0).acq = false ∧
    0 < (cmd .clds 1 0).count ∧ elemVa lay64 [0] 0 = some 0x1000 ∧ ((sCmd (cmd .clds 1 0)).copyParts 0 (cmd .clds 1 0) 0x1000 .r 4).toOption = some [(0, 4, 0x200000)] ∧
    (cmd .clds 0 0).count = 64 ∧ elemVa (cmdOut true).lay (cmdOut true).org 0 = none ∧ layFillen (cmdOut true).lay = true ∧ layFillen (cmdOut false).lay = false ∧
    elemVa (cmdOut false).lay (cmdOut false).org 0 = none ∧ ((sCmd (cmdOut true)).core 0).spad.cells.wf = true  := by decide +kernel

theorem witness_EnginesProgress_ends :
    0 + 1 < (cmd .csts 1 0).count ∧ ((sCmd (cmd .csts 1 0)).copyParts 0 (cmd .csts 1 0) 0x1000 .w 4).toOption = some [(0, 4, 0x200000)] ∧ (cmd .cldq 1 64).count ≤ (cmd .cldq 1 64).next ∧
    (cmd .cldq 1 64).rds = [] ∧ (cmd .clds 3 64).phase = 3 ∧ (cmd .clds 3 64).failed = [] ∧ (∀ w ∈ (cmd .clds 3 64).wrs, ∀ r ∈ ((sCmd (cmd .clds 3 64)).core 0).sent, r.id ≠ w) ∧
    (cmd .clds 3 64).rel = false ∧ (cmd .clds 3 64).post = some 3 ∧ (let m : CopyCmd := { cmd .clds 1 2 with rds := [(9, 0, 4)] }
      m.rds.find? (fun x => x.1 == 9) = some (9, 0, 4) ∧ m.next < m.count) ∧
    (sCmd { cmd .clds 0 0 with acq := true }).acquireReady 0 0 (some 0) = true ∧ (∀ r ∈ ((sCmd { cmd .clds 0 0 with acq := true }).core 0).sent, r.kind = 2) ∧
    (∀ x ∈ ((sCmd { cmd .clds 0 0 with acq := true }).core 0).ports, x.sent = true → x.id = 1 ∨ 0 ≤ x.seq ∨ 3 ≤ x.phase) := by decide +kernel

/-- A page that may not be read, and no page. -/
def sCmdT (p1 : Nat) (t : List Nat) (m : CopyCmd) : State :=
  { sCmd m with tlbs := t.map (fun t => { core := 0, tlb := t, fn := 0, pasid := 0, va := 0x1000, size := 4096, pa := 0x200000, p1 := p1, p2 := 7 }) }
theorem witness_EnginesProgress_waits :
    State.acquireReady ((sCmd { cmd .clds 0 0 with acq := true, seq := 1 }).modCore 0 (fun k => { k with outs := [3] })) 0 0 (some 1) = false ∧
    isFault ((sCmdT 2 [1, 2] (cmd .cldq 1 0)).copyParts 0 (cmd .cldq 1 0) 0x1000 .r 4) = true ∧ isMiss ((sCmdT 7 [] (cmd .cbcast 1 0)).copyParts 0 (cmd .cbcast 1 0) 0x1000 .r 4) = true ∧
    isFault ((sCmdT 2 [1, 2] (cmd .cpref 1 0)).copyParts 0 (cmd .cpref 1 0) 0x1000 .r 4) = true ∧ (cmd .cpref 1 0).next + 1 < (cmd .cpref 1 0).count ∧
    (cmd .csts 2 64).count ≤ (cmd .csts 2 64).next ∧
    (let m : CopyCmd := { cmd .ccpy 1 64 with rds := [(9, 0, 4)] }
     m.count ≤ m.next ∧ m.rds.filter (fun x => x.1 ≠ 9) = [] ∧ m.stopped = false ∧ m.phase = 1 ∧ ((sCmd m).core 0).spad.cells.wf = true) ∧
    ({ cmd .clds 1 64 with rds := [(9, 0, 4), (10, 4, 4)] } : CopyCmd).rds.filter (fun x => x.1 ≠ 9) ≠ [] ∧
    (let s := (sCmd { cmd .csts 3 64 with wrs := [5] }).modCore 0 (fun k => { k with sent := [{ id := 5, kind := 1, scope := 0 }] })
     ∃ w ∈ ({ cmd .csts 3 64 with wrs := [5] } : CopyCmd).wrs, ∃ r ∈ (s.core 0).sent, r.id = w) ∧
    (let m : CopyCmd := { cmd .csts 3 64 with rel := true }
     ((sCmd m).modCore 0 (fun k => { k with sent := [{ id := 5, kind := 1, scope := 0 }] })).releaseOk 0 m.scope = false) ∧
    ({ cmd .clds 3 64 with stopped := true } : CopyCmd).stopped = true ∧ ({ cmd .clds 3 64 with failed := [(0, 0x1000, 0x250C)] } : CopyCmd).failed ≠ [] := by decide +kernel

/-- Posts of two bytes to counter 6 of core 0, from core 1 and from itself; the counter SHARED, waiting for two. -/
def post2 (src : Nat) : Post := { tgt := 0, ctr := 6, n := 2, src := src, tent := false, ival := 0, seq := 0, id := 9, part := 0, pasid := 0, pc := 0, slot := 0, addr := 0 }
def sPost (e : Nat) : State := at0 { kCtr with ctrs := ⟨[(6, { expect := e, count := 2, shared := true })]⟩ } {}
def rw0 (post : Option (Nat × Nat)) : RWrite := { bc := false, tgt := 0, src := 1, id := 9, data := [(0x100, 7)], post := post, part := 0, pasid := 0, pc := 0, slot := 0, addr := 0 }

theorem witness_ArrivalsAndPosts_posts :
    (post2 1).src ≠ (post2 1).tgt ∧ (sPost 4).accepts 0 1 0 = false ∧ (sPost 4).accepts 0 0 0 = true ∧ (post2 1).ctr < ((sPost 4).core 0).limNctr ∧
    ((sPost 4).core 0).postFault (isCtl 0) (post2 1) = none ∧ ((((sPost 4).core 0).ctrs.get 6 {}).post 2).isSome = true ∧ (((sPost 3).core 0).postFault (isCtl 0) (post2 1)).isSome = true ∧
    ((sPost 4).core 0).spad.cells.wf = true ∧ (∀ c ∈ (rw0 none).data, c.1 < ((sPost 4).core 0).limSpad) ∧ (rw0 (some (6, 2))).post = some (6, 2) ∧ 6 < ((sPost 4).core 0).limNctr ∧
    (((sPost 4).core 0).ctrs.get 6 {}).shared = true ∧ (rw0 none).src ≠ (rw0 none).tgt := by decide +kernel

theorem witness_ArrivalsAndPosts_rejected :
    ((sPost 4).core 0).limNctr ≤ ({ post2 0 with ctr := 64 } : Post).ctr ∧ isCtl 0 = false ∧
    ((((sPost 4).modCore 0 (fun k => { k with ctrs := ⟨[(6, { expect := 4, count := 2 })]⟩ })).core 0).postFault false (post2 1)).isSome = true ∧
    (let s := (sPost 4).modCore 0 (fun k => { k with ival := 2, ctrs := ⟨[(6, { expect := 4, count := 2 })]⟩ })
     (s.core 0).postFault false (post2 0) = none ∧ (((s.core 0).ctrs.get 6 {}).shared = false ∧ (post2 0).ival < (s.core 0).ival)) ∧
    (sPost 4).accepts 0 (rw0 none).part 1 = false ∧ (sPost 4).accepts 0 (rw0 none).part (rw0 none).pasid = true ∧ ¬ (0x400000 : Nat) < ((sPost 4).core 0).limSpad ∧
    ¬ (64 : Nat) < ((sPost 4).core 0).limNctr ∧
    (let w : RWrite := { rw0 none with data := (List.range 8).map (fun i => (0x100 + i, 1)) }
     ∀ i, i < 8 → ∃ c ∈ w.data, c.1 = 8 * 0x20 + i) := by decide +kernel

/-- A fabric packet for core 0 at 0x100 and its counter 6, whose group is the partition's group 1, and a CFRED of core 0 of that group that waits for its completion. -/
def fp0 : FabPkt :=
  { kind := 0, owner := false, swgrp := 0, src := 0, dst := 0, epoch := 0, chunk := 0, rank := 0, nm := 0, op := 0, dtype := 8, token := 0x180000100, data := [1, 2] }
def sFabRes : State := { sPost 4 with fns := ⟨[(0, { fgrp := ⟨[(2, 1), (3, 1)]⟩ })]⟩ }
def sFabDone : State := sFabRes.modCore 0 (fun k => { k with ports := [{ cmd .cfred 3 0 with v := 0x10000000100 }] })

theorem witness_ArrivalsAndPosts_fabric :
    (sFabRes.core 0).item.isSome = true ∧ (sFabRes.groupOf 0 0).isSome = true ∧ (sFabRes.core 0).spad.cells.wf = true ∧ fp0.token.toNat.testBit 36 = false ∧
    32 * bitsAt fp0.token.toNat 28 2 + bitsAt fp0.token.toNat 23 5 = 0 ∧ bitsAt fp0.token.toNat 30 6 = 6 ∧ (((sFabRes.core 0).ctrs.get 6 {}).post fp0.data.length).isSome = true ∧
    ((sFabDone.core 0).ports.find? (fun m => m.kind == .cfred && decide (3 ≤ m.phase) && bitsAt m.v.toNat 32 8 == fp0.epoch && bitsAt m.v.toNat 24 8 == fp0.chunk &&
      bitsAt (sFabDone.fgrp (sFabDone.partOf 0) (bitsAt m.v.toNat 40 6)).1 48 16 == fp0.swgrp)).isSome = true := by decide +kernel

/-! ## Hypotheses that can be met: placement, start and end of work items, contexts -/

/-- Die 0 with one launch entry, and one frame. -/
def sEnt (x : LEntry) : State :=
  { State.reset with dies := ⟨[(0, { entries := ⟨[(0, x)]⟩, order := 1 })]⟩, parts := ⟨[(0, { frames := [0], frmTotal := 1 })]⟩ }
def entReady (aged : Bool) : LEntry := { st := .ready, record := recOk, hdr := hdrGood, hdrVa := 0x1400, total := 1, aged := aged, deps := [true, true, true, true] }
/-- An entry that waits for channel 5 to be open, which it is. -/
def recDepCh : Bytes := recOk.take 48 ++ leBytes 2 0x8005 ++ recOk.drop 50
def sDep : State := { sEnt { st := .waiting, record := recDepCh, deps := [false, true, true, true] } with
  dies := ⟨[(0, { entries := ⟨[(0, { st := .waiting, record := recDepCh, deps := [false, true, true, true] })]⟩, chans := ⟨[(5, { open_ := true, tailo := 1, spfirst := 0xFFFF })]⟩ })]⟩ }

/-- The same when its age limit has come; and with no frame left. -/
def sAged (frames : List Nat) : State := { sEnt (entReady false) with clk := { cyc := 65536 }, parts := ⟨[(0, { frames := frames, frmTotal := 1 })]⟩ }
/-- A parked group of one item, that waits to be resumed. -/
def sResume : State :=
  { State.reset with groups := [{ id := 7, st := .parked, path := .disc, conv := 0, part := 0, die := 0, n := 1,
                                  parked := [{ core := 0, item := fetchItem State.reset 0, save := none, ends := ⟨[]⟩, async := [] }] }] }

theorem witness_PlacementAndStart :
    (sEnt (entReady true)).diePartList 0 = [0] ∧ gangSize recOk hdrGood = 1 ∧ (sAged [0]).diePartList 0 = [0] ∧ State.reset.cands 0 0 = [] ∧
    (sAged [0]).cands 0 0 = [{ c := .entry 0, order := 0, cls := recClass recOk, n := 1, aged := true }] ∧
    (sEnt (entReady false)).cands 0 0 = [{ c := .entry 0, order := 0, cls := recClass recOk, n := 1, aged := false }] ∧
    (sAged []).candFits 0 0 { c := .entry 0, order := 0, cls := recClass recOk, n := 1, aged := true } = false ∧ (sAged []).cands 0 0 = (sAged [0]).cands 0 0 ∧
    (((sAged [0]).die 0).entries.get 0 {}).part = 0 ∧ (sAged [0]).fits 0 0 1 = true ∧ (sAged [0]).pickCores 0 0 1 = some [0] ∧
    (sEnt (entReady true)).fits 0 0 1 = true ∧ (sEnt (entReady true)).pickCores 0 0 1 = some [0] ∧ ((State.die (sEnt (entReady false)) 0).sel.get 0 {}).cls = recClass recOk ∧
    1 ≤ ((State.die (sEnt (entReady false)) 0).sel.get 0 {}).def_.getD 0 0 ∧
    sResume.cands 0 0 = [{ c := .group 7, order := 0, cls := 0, n := 1, aged := false }] ∧ sResume.candFits 0 0 { c := .group 7, order := 0, cls := 0, n := 1, aged := false } = true ∧
    sResume.diePartList 0 = [0] ∧ ((State.die sResume 0).sel.get 0 {}).cls = 0 ∧ 1 ≤ ((State.die sResume 0).sel.get 0 {}).def_.getD 0 0 := by decide +kernel

theorem witness_PlacementAndStart_entries :
    (let s : State := { sEnt (entReady false) with clk := { cyc := 65536 } }
     ((s.die 0).entries.get 0 {}).st = .ready ∧ ((s.die 0).sel.get 0 {}).scage ≠ 0 ∧ ((s.die 0).sel.get 0 {}).scage ≤ s.cyc - ((s.die 0).entries.get 0 {}).readyAt) ∧
    ((sDep.die 0).entries.get 0 {}).st = .waiting ∧ sDep.depNow 0 0 0 = true ∧
    (let k : Core := { tk56 with item := tk56.item.map (fun w => { w with started := false }) }
     (k.item.map (fun w => w.started)) = some false) ∧
    (let i : Item := { seq := 1, ival := 0, pc := 0, slot := 0, scope := 0, rel := true, kind := .launch hdrGood recOk 0 0x1400 }
     let s : State := at0 { tk56 with subm := [i] } {}
     (s.core 0).subm = [i] ∧ (s.core 0).item.isSome = true ∧ s.freeEntry 0 0 = some 0) ∧
    (cLaunch recOk true).freeEntry 0 0 = none := by decide +kernel

/-- A work item of partition 1 on a core whose last item was partition 0's. -/
theorem witness_PlacementAndStart_owner :
    ({ tk56 with clean := true } : Core).clean = true ∧ tk56.clean = false ∧ (∀ o, ({ tk56 with lastOwner := some (1, 0) } : Core).lastOwner = some o → o = (1, 0)) ∧
    ({ tk56 with lastOwner := some (0, 0) } : Core).lastOwner = some (0, 0) ∧ ((0, 0) : Nat × Nat) ≠ (1, 0) ∧ hdrLogc (hdrGood.take 24 ++ [1] ++ hdrGood.drop 25) 0 ≠ 0 ∧ hdrLogc hdrGood 0 = 0 := by
  refine ⟨by decide +kernel, by decide +kernel, fun o h => (Option.some.inj h).symm, by decide +kernel⟩

def kHalt (done : Bool) : Core := { tk56 with halting := true, items := if done then [] else [{ seq := 1, ival := 0, pc := 0, slot := 0, scope := 0, rel := true, kind := .fence }] }
/-- A record whose DONE field names counter 5 (R202); the entry's state, with the die's control core running and that counter waiting for two. -/
def recPost : Bytes := recOk.take 58 ++ [0x85] ++ recOk.drop 59
def sDone (x : LEntry) : State :=
  { sEnt x with cores := ⟨[(128, { ccore [] with ctrs := ⟨[(5, { expect := 2, count := 0 })]⟩ })]⟩ }
theorem witness_WorkItemEnds :
    ((at0 (kHalt true) {}).core 0).item.isSome = true ∧ (kHalt true).halting = true ∧ (at0 (kHalt true) {}).haltDone 0 = true ∧ (at0 (kHalt false) {}).haltDone 0 = false ∧
    (((at0 (kHalt true) {}).die 0).entries.get 0 {}).st ≠ .ready ∧
    (let s := sEnt { st := .running, record := recOk, total := 1, ended := 1 }
     (s.die 0).entries = ⟨[(0, { st := .running, record := recOk, total := 1, ended := 1 })]⟩ ∧ (recDone recOk).testBit 7 = false ∧ (s.core (32 * 0)).item = none) ∧
    (let w := fetchItem State.reset 0
     let s : State := { at0 (kHalt true) {} with dies := ⟨[(w.die, { entries := ⟨[(w.entry, { st := .ready, record := recOk, total := 4, ended := 1 })]⟩ })]⟩ }
     (s.core 0).item = some w ∧ ((s.die w.die).entries.get w.entry {}).st = .ready ∧ ∀ y ∈ (s.die w.die).entries.l, y.1 = w.entry → y.2 = (s.die w.die).entries.get w.entry {}) ∧
    (let x : LEntry := { st := .running, record := recPost, total := 1, ended := 1 }
     (recDone recPost).testBit 7 = true ∧ (sDone x).exported [3] = false ∧ (sDone x).exported [] = true ∧ (sDone x).ctlRuns 0 0 = true ∧ ((((sDone x).core 128).ctrs.get (recDone recPost % 64) {}).post 1).isSome = true) ∧
    tk56.ports = [] ∧ ({ tk56 with ports := [cmd .clds 1 0] } : Core).ports ≠ [] ∧
    (let ln : SyncLine := { held := true, g := 2, members := [0, 1], arrived := [1, 0] }
     ln.held = true ∧ ln.arrived.length = ln.g) ∧ ({ kLine with arrived := true } : Core).arrived = true := by decide +kernel

theorem witness_SchedulerContextEvents :
    State.reset.booted = true ∧ (State.reset.fn 0).dies = 0 ∧ (State.fn { State.reset with fns := ⟨[(0, { dies := 15 })]⟩ } 0).dies ≠ 0 ∧ State.reset.layout.now.quad = List.replicate 16 0 ∧
    (∀ x, x < 4 → (State.reset.core (128 + x)).ctl.running = false ∧ (State.reset.die x).ctx = ⟨[]⟩) ∧ (State.reset.fn 1).toStart = 0 ∧ ({} : Fn).sdata = [] ∧
    (let s := atC { ccore [] with slots := ⟨[(0, [{ op := .wqtake 6 5 false true }])]⟩ } {}
     (s.core 128).slots.get 0 [] = [{ op := .wqtake 6 5 false true }]) := by decide +kernel

/-! ## Hypotheses that can be met: issue, queue entries, splices -/

theorem witness_Splices_entries :
    (let e : Entry := { st := .draining, readers := 1, pres := true }
     e.st = .draining ∧ e.readers = 1 ∧ e.pres = true ∧ e.passed = false) ∧
    (((kEnt { st := .reserved }).queue 1).ent ((kEnt { st := .reserved }).queue 1).head).st = .reserved ∧
    (((kEnt present).queue 1).ent 0).st = .present ∧ (((kEnt present).queue 1).ent 0).readers = 0 ∧ (((kEnt { present with readers := 2 }).queue 1).ent 0).readers ≠ 0 ∧
    ((kEnt present).queue 1).spl ≠ 2 := by decide +kernel

/-- Core 0 before code at VA 0x1000: a header and words. -/
def sCode (ws : List Nat) : State :=
  { at0 (tcore [(5, 4), (6, 3)]) {} with
    dies := ⟨[(0, { view := Memory.writeN [] 0x200000 (ws.flatMap (leBytes 4)) })]⟩,
    tlbs := [{ core := 0, tlb := 0, fn := 0, pasid := 0, va := 0x1000, size := 4096, pa := 0x200000, p1 := 7, p2 := 7 }], islands := ⟨[(0, {})]⟩ }
/-- Wide headers with an S word: plain, with CKP, with OPB; a single-op header of the S class (R68, R76). The op is ADD s11, s11, s10, always enabled. -/
def wPlain : State := sCode [0xB0000000, 0x04B172BE]
def wCkp : State := sCode [0xB0010000, 0x04B172BE]
def wOpb : State := sCode [0xB0008000, 0x04B172BE]
def wSingle : State := sCode [0xC0000000, 0x04B172BE]
/-- What the statement asks of a state before its bundle. -/
def canIssue (s : State) (b : Bundle) : Bool :=
  let k := s.core 0
  let ops := b.ops k
  s.mayIssue 0 && !k.serial && k.pend.isEmpty && k.async.isEmpty && k.items.isEmpty && k.chans == ⟨[]⟩ && !k.loop.act && k.target.isNone &&
  ((s.setCore 0 k).syncGate 0 b ops).isNone && !(s.setCore 0 k).bundleWaits 0 b ops && (k.bundleFault false b ops).isNone && k.canReserve (resvList ops) &&
  (ops.findSome? (k.nowCheck b)).isNone && ops.all (fun o => !isBranch o.i && !isSerial o.i && !isSync o.i) && ops.all (fun o => o.en) && (List.range 8).all (fun q => (k.queue q).spl == 0) && ops.length == 1

theorem witness_BundlesIssue :
    (∃ b, (wPlain.setCore 0 (wPlain.core 0)).readBundle 0 (wPlain.core 0).pc = .got b ∧ canIssue wPlain b = true ∧ wPlain.bkind 0 = .wide ∧ b.single = false ∧ b.ckp = false) ∧
    (∃ b, (wCkp.setCore 0 (wCkp.core 0)).readBundle 0 (wCkp.core 0).pc = .got b ∧ canIssue wCkp b = true ∧ wCkp.bkind 0 = .ckpt ∧ b.single = false ∧ b.ckp = true ∧ b.opb = false) ∧
    (∃ b, (wOpb.setCore 0 (wOpb.core 0)).readBundle 0 (wOpb.core 0).pc = .got b ∧ canIssue wOpb b = true ∧ wOpb.bkind 0 = .opb ∧ b.single = false ∧ b.ckp = true ∧ b.opb = true) ∧
    (∃ b, (wSingle.setCore 0 (wSingle.core 0)).readBundle 0 (wSingle.core 0).pc = .got b ∧ canIssue wSingle b = true ∧ wSingle.bkind 0 = .single ∧ b.single = true) ∧
    (wOpb.core 0).item.bind (·.group) = none := by
  refine ⟨⟨_, rfl, by decide +kernel⟩, ⟨_, rfl, by decide +kernel⟩, ⟨_, rfl, by decide +kernel⟩, ⟨_, rfl, by decide +kernel⟩, by decide +kernel⟩

/-- Bundles that a check turns away, wide and single, and one with a FENCE of both kinds. -/
def sBad (h : Nat) : State := sCode [h, 0xFFFFFFFF]
def sFence : State := sCode [0xB0000000, 0x00000603]
theorem witness_BundlesIssue_checks :
    (∃ b, ((sBad 0xB0000000).setCore 0 ((sBad 0xB0000000).core 0)).readBundle 0 ((sBad 0xB0000000).core 0).pc = .got b ∧ b.single = false ∧
      (((sBad 0xB0000000).core 0).bundleFault (isCtl 0) b (b.ops ((sBad 0xB0000000).core 0))).isSome = true ∧ (sBad 0xB0000000).bkind 0 = .wide) ∧
    (∃ b, ((sBad 0xC0000000).setCore 0 ((sBad 0xC0000000).core 0)).readBundle 0 ((sBad 0xC0000000).core 0).pc = .got b ∧ b.single = true ∧
      (((sBad 0xC0000000).core 0).bundleFault (isCtl 0) b (b.ops ((sBad 0xC0000000).core 0))).isSome = true ∧ (sBad 0xC0000000).bkind 0 = .single) ∧
    (∃ b, (sFence.setCore 0 (sFence.core 0)).readBundle 0 (sFence.core 0).pc = .got b ∧ ((sFence.core 0).bundleFault (isCtl 0) b (b.ops (sFence.core 0))).isNone = true ∧
      ((b.ops (sFence.core 0)).any (fun o => o.en && o.acq)) = true ∧ (sFence.setCore 0 (sFence.core 0)).bundleWaits 0 b (b.ops (sFence.core 0)) = false) := by
  refine ⟨⟨_, rfl, by decide +kernel⟩, ⟨_, rfl, by decide +kernel⟩, ⟨_, rfl, by decide +kernel⟩⟩

/-- A message for queue 1 of core 0 from queue 2 of core 1; and core 0's splice record. -/
def sm0 : SplMsg := { core := 0, q := 1, pcore := 1, pq := 2, ty := 0, n := 16, refuse := true }
def rec0 (st : SplSt) : Splice := { st := st, pcore := 1, pq := 2, cred := 1 }
def kShip (st : SplSt) (n : Nat) : Core :=
  { kQ 10 with queues := ⟨[(1, { en := true, ty := 0, logc := 4, base := 16, spl := 1, tail := n, ents := ⟨if n = 0 then [] else [(0, present)]⟩ })]⟩, splices := ⟨[(1, { rec0 st with got := true })]⟩, ival := 1, ckSeq := 5 }

theorem witness_Splices_unit :
    (((sSpl 0 {}).core sm0.core).splice sm0.q).st = .local_ ∧ (((sSpl 0 {}).core 0).splice 1).acc = none ∧ (((sSpl 1 (rec0 .pending)).core 0).splice 1).st = .pending ∧
    (rec0 .pending).pcore = sm0.pcore ∧ (rec0 .pending).pq = sm0.pq ∧ (((sSpl 1 (rec0 .pending)).core 0).queue 1).ty = sm0.ty ∧
    ¬ ((({ st := .pending, pcore := 3 } : Splice).pcore = sm0.pcore)) ∧ (rec0 .closing).st = .closing ∧ sm0.refuse = true ∧ (rec0 .ropen).st = .ropen ∧ (rec0 .accepting).st = .accepting ∧
    (((sSpl 2 (rec0 .ropen)).core 0).queue 1).spl = 2 ∧ sm0.pcore ≠ sm0.core ∧ ((sSpl 2 (rec0 .ropen)).core 0).spad.cells.wf = true ∧ (((sSpl 2 (rec0 .ropen)).core 0).queue 1).tail < 65536 ∧
    (kShip .open_ 1).canShip 1 = true ∧ (kShip .open_ 0).canShip 1 = false ∧ (kShip .closing 0).canClose 1 = true := by decide +kernel

theorem witness_Splices_ends :
    (((sSpl 0 { acc := some (3, 0, 0, 4) }).core 0).splice 1).acc ≠ none ∧ (rec0 .closing).pcore = sm0.pcore ∧ (rec0 .closing).pq = sm0.pq ∧ ({ rec0 .closing with pq := 5 } : Splice).pq ≠ sm0.pq ∧
    (rec0 .ended).st ∈ [SplSt.local_, .pending, .failed, .ended, .closed] ∧ (sSpl 2 (rec0 .ropen)).gateOk ((sSpl 2 (rec0 .ropen)).partOf 0) (nodeOf 1) none = true ∧
    (rec0 .ropen).st ≠ .local_ ∧ (rec0 .closed).st ∈ [SplSt.ropen, .accepting, .closed] ∧ ¬ (((sSpl 1 (rec0 .ropen)).core 0).queue 1).spl = 2 ∧
    (let x : Entry := { st := .draining, readers := 1, pres := true, passed := true }
     x.passed = true ∧ (kShip .open_ 0).canClose 1 = false) := by decide +kernel

/-! ## Hypotheses that can be met: where accesses are performed -/

/-- An access of core 0 to a PA, a read or a write of 8 bytes; and one sent earlier to the same line. -/
def acc (pa : Nat) (wr : Option (List (Nat × BitVec 8))) : Access :=
  { die := 0, core := 0, id := 5, va := 0x1000, pa := pa, len := 8, wr := wr, l1 := true, pc := 0, slot := 0, reply := .scalar 0 1 8 false [] }
def sOrd : State := { s56 with clk := { pending := [.homeSliceAccess { acc 0x200000 none with id := 3 }] } }

theorem witness_HomeSliceAccesses :
    sOrd.lineBusy 0 (0x200000 / 64) 5 = true ∧ s56.lineBusy 0 (0x200000 / 64) 5 = false ∧ (acc 0x200000 none).pa < 2 ^ 52 ∧ (acc 0x200000 none).wr = none ∧ s56.atomLate 0 (0x200000 / 64) = false ∧
    (acc 0x200000 none).len ≤ 64 - (acc 0x200000 none).pa % 64 ∧ isSys 0x200000 = false ∧ isSys (sysBase + 64) = true ∧ sysBase + 64 < 2 ^ 52 ∧ s56.bindingAt 0x200000 = none ∧ s56.lostData 0x200000 = false ∧
    s56.lineBusy 0 (0x200000 / 64) s56.clk.ids = false ∧ s56.hostMem.wf = true ∧ (s56.die 0).view.wf = true ∧ (∀ p ∈ [(0x200000, (7 : BitVec 8))], p.1 / 64 = 0x200000 / 64) ∧
    (s56.die 0).stamp.get 0x200000 0 ≤ s56.ownerPos.get (0x200000 / 64) 0 ∧ (s56.die 0).app.length = 4 ∧ s56.ownerDie 0x200000 = 0 ∧ s56.ownerDie 0x200800 ≠ 0 := by decide +kernel

/-- The same core before a layout whose window holds the PA, where two channels of the PA's group have failed, or a view of array 0 covers it. -/
def sHome (p : Nat) : State := { s56 with layout := { State.reset.layout with now := { LayoutRec.reset with hbm := (List.range p).map (fun _ => (0, 0)) ++ [(0, 2 ^ 30)] } } }
def sLost (pa : Nat) (s : State) : State := { s with hbmFail := [((s.stackOf pa).1, (s.stackOf pa).2), ((s.stackOf pa).1, (s.stackOf pa).2 / 8 * 8 + ((s.stackOf pa).2 + 1) % 8)] }
def sBound (st : BindSt) (wr : Bool) (l2 : Bool) : State :=
  { sHome 0 with arrays := ⟨[(0, { binds := ⟨[(0, { st := st, view := 0x200000, store := 0x400000, nrec := 128, rin := 64, rout := 64, slot := 1, wr := wr })]⟩ })]⟩,
                 dies := ⟨[(0, { viewL2 := ⟨if l2 then [(0x8000, List.replicate 64 9)] else []⟩ })]⟩ }
def gateIn (s : State) : Bool := s.gateOk (s.partOf 0) (s.sliceNode (acc 0x200000 none)) (some 0x200000)

theorem witness_HomeSliceAccesses_where :
    gateIn (sHome 0) = true ∧ gateIn (sHome 1) = false ∧ (sLost 0x200000 (sHome 0)).lostData 0x200000 = true ∧ (sHome 0).lostData 0x200000 = false ∧ (sHome 0).bindingAt 0x200000 = none ∧
    gateIn (sBound .active false true) = true ∧
    ((sBound .active false true).bindingAt 0x200000).map (fun x => (x.1, x.2.1, x.2.2.st, x.2.2.wr)) = some (0, 0, .active, false) ∧
    ((sBound .active false true).die 0).viewL2.find (0x200000 / 64) = some (List.replicate 64 9) ∧ ((sBound .active false false).die 0).viewL2.find (0x200000 / 64) = none ∧
    ((sBound .active true false).bindingAt 0x200000).map (fun x => (x.2.2.st, x.2.2.wr)) = some (.active, true) ∧
    ((sBound .faulted false false).bindingAt 0x200000).map (fun x => x.2.2.st) = some .faulted ∧ ((sBound .draining false false).bindingAt 0x200000).map (fun x => x.2.2.st) = some .draining ∧
    (sBound .active false false).lineBusy 0 (0x200000 / 64) 5 = false ∧ (sBound .active false false).atomLate 0 (0x200000 / 64) = false ∧
    (∀ p ∈ [(0x200000, (7 : BitVec 8))], ((sHome 0).die 0).stamp.get p.1 0 ≤ (sHome 0).ownerPos.get (0x200000 / 64) 0) := by decide +kernel

/-- A read of core 0 for its command 1, that a rejection ends, or not where the command is a prefetch. -/
def accC : Access := { acc 0x200000 none with l1 := false, reply := .copy 0 1 5 }
theorem witness_HomeSliceAccesses_copies :
    (State.accessCmd (sCmd { cmd .clds 1 0 with rds := [(5, 0, 4)] }) accC).map (·.id) = some 1 ∧ ({ cmd .clds 1 0 with rds := [(5, 0, 4)] } : CopyCmd).rds.find? (fun r => r.1 == 5) = some (5, 0, 4) ∧
    (cmd .clds 1 0).kind ≠ .cpref := by decide +kernel

/-- A write of die 0 that stands next for die 1, or one too early; at its owner, or placed by it. -/
def exp0 (n : Nat) (pos : Option Nat) : Export := { src := 0, clk := [n, 0, 0, 0], data := [(0x200800, 7)], pos := pos }
def dir0 (ord : Nat) : Directed := { src := 0, dst := 1, unit := 0, clk := [0, 0, 0, 0], ord := ord, body := .post (post2 1) }

theorem witness_CausalDelivery :
    (s56.die 1).ready (exp0 1 none) = true ∧ (s56.die 1).ready (exp0 1 (some 1)) = true ∧ (s56.die 1).ready (exp0 2 none) = false ∧ (s56.die 1).view.wf = true ∧ (exp0 1 none).src ≠ 1 ∧ (s56.die 1).app.length = 4 ∧
    (s56.dpDone.get ((dir0 0).src * 8192 + (dir0 0).unit) 0 = (dir0 0).ord ∧ ∀ y, y < 4 → (dir0 0).clk.getD y 0 ≤ (s56.die (dir0 0).dst).app.getD y 0) ∧
    s56.dpDone.get ((dir0 1).src * 8192 + (dir0 1).unit) 0 ≠ (dir0 1).ord := by decide +kernel

theorem witness_CausalDelivery_body : ∀ a, (dir0 0).body ≠ .atomg a := by intro a h; cases h

/-- An atomic add at an HBM line, or at core 0's scratchpad at three addresses, from an item of partition 0 or 1. -/
def atm (pa : Nat) (part : Nat) : AtomReq :=
  { core := 1, tgt := 0, id := 5, tk := some 2, pa := pa, ea := BitVec.ofNat 64 pa, aop := 2, size := 6, v := 1, c := 0, pc := 0, slot := 0, part := part, pasid := 0, clk := [0, 0, 0, 0] }
theorem witness_HomeSliceAccesses_atomics :
    s56.bindingAt 0x200000 = none ∧ s56.lostData 0x200000 = false ∧ (s56.die (s56.ownerDie 0x200000)).view.wf = true ∧ 0x200000 % atomBytes 6 = 0 ∧
    (∀ i, i < 8 → (s56.die 0).stamp.get (0x200000 + i) 0 ≤ s56.ownerPos.get (0x200000 / 64) 0) ∧
    s56.accepts 0 (atm 0x100 1).part 0 = false ∧ s56.accepts 0 (atm 0x100 0).part 0 = true ∧ (s56.core 0).limSpad < (atm 4193280 0).ea.toNat + 8 ∧ (atm 0x100 0).ea.toNat + 8 ≤ (s56.core 0).limSpad ∧
    (atm 0x100 0).ea.toNat < 4193280 ∧ (s56.core 0).spad.cells.wf = true ∧
    (let s : State := at0 { tk56 with sys := { tk56.sys with lims := w64 (4194304 * 2 ^ 32) } } {}
     s.accepts 0 0 0 = true ∧ (atm 4193280 0).ea.toNat + 8 ≤ (s.core 0).limSpad ∧ 4193280 ≤ (atm 4193280 0).ea.toNat) := by decide +kernel

def kRel (n : Nat) : Core := { tk56 with relWait := some 2, sent := (List.range n).map (fun i => { id := i, kind := 0, scope := 2 }) }
theorem witness_MemorySystemEvents :
    ((at0 (kRel 0) {}).core 0).relWait = some 2 ∧ ((at0 (kRel 0) {}).core 0).relItem = false ∧ (at0 (kRel 0) {}).releaseOk 0 2 = true ∧ (at0 (kRel 1) {}).releaseOk 0 2 = false ∧
    ((at0 (kRel 0) {}).core 0).items = [] ∧
    (match (cKn krec {} 0).walk 0 0 0 0x1000 with | .ok r => decide (4096 ≤ r.size) | .error _ => false) = true ∧ (match s56.walk 0 0 0 0x1000 with | .ok _ => false | .error _ => true) = true := by
  decide +kernel

def inv0 : InvReq := { kind := 1, pasid := 0, va := 0, logp := 0, ids := 4, seqs := [] }
def sInv (n : Nat) : State := { at0 (kRel n) {} with fns := ⟨[(0, { inv := [inv0] })]⟩ }
/-- The same request, before and after the host's writes have reached every die. -/
def invAt (ph : Nat) (clk : List Nat) : InvReq := { inv0 with phase := ph, clk := clk }
def hostWr : Ev := .homeSliceAccess { acc 0x200000 (some [(0x200000, 7)]) with core := 200, id := 3 }
def sWs (k : Core) : State := { at0 k {} with dies := ⟨[(0, { wqueue := [(0, [(0x100, 7)], none)] })]⟩ }
theorem witness_MemorySystemEvents_host :
    ((sInv 0).fn 0).inv = [inv0] ∧ (sInv 0).invDone 0 inv0 = true ∧ (sInv 1).invDone 0 inv0 = false ∧ ((sWs tk56).die 0).wqueue = [(0, [(0x100, 7)], none)] ∧ (sWs tk56).partRuns 0 0 = true ∧
    (sWs { tk56 with item := none }).partRuns 0 0 = false ∧ (sWs tk56).clk.refresh = none ∧ ((sWs tk56).die 0).ws.wf = true := by decide +kernel

/-- A router with one packet for its port 3, since cycle 0, at a cycle. -/
def pk : Packet := { vc := 0, flits := 2, path := [(0, 1, 3)], since := 0, old := false, payload := .refreshWindowEnd }
def sPk (cyc free : Nat) : State := { State.reset with routers := ⟨[(0, { inq := ⟨[(4, [pk])]⟩, out := ⟨[(3, { freeAt := free })]⟩ })]⟩, clk := { cyc := cyc } }
theorem witness_MemorySystemEvents_packets :
    ((sPk 8 9).router 0).q 1 0 = [pk] ∧ (sPk 8 9).clk.cyc < (((sPk 8 9).router 0).out.get 3 {}).freeAt ∧ (((sPk 8 0).router 0).out.get 3 {}).freeAt ≤ (sPk 8 0).clk.cyc ∧ (sPk 8 0).unitPaused 0 = false ∧
    (((sPk 8 0).arbitrate 0 (((sPk 8 0).router 0).out.get 3 {}) ((sPk 8 0).heads 0 3)).map (·.1)) = some (1, 0, pk) ∧
    promoted 8192 ((sPk 8192 0).nocAgeMax 0) ((sPk 8192 0).heads 0 3) = some (1, 0, pk) ∧ pk.path.length = 1 := by decide +kernel

theorem witness_MemorySystemEvents_invalidate :
    State.hostWrites { sInv 0 with clk := { pending := [hostWr] } } (invAt 0 []) = true ∧ (sInv 0).hostWrites (invAt 0 []) = false ∧ (sInv 0).exported (invAt 1 [1]).clk = false ∧
    (sInv 0).exported (invAt 1 [0, 0, 0, 0]).clk = true ∧ (sInv 0).invDone 0 (invAt 2 []) = true ∧ (sInv 1).invDone 0 (invAt 2 []) = false ∧ (s56.fn 0).inv = [] := by decide +kernel

/-- A walk that shares its page with another core's, one that waits for a walker, and one whose table is lost, or lies in a view that a binding serves. -/
def wk (c : Nat) (va : W64) : WalkReq := { core := c, tlb := 0, fn := 0, pasid := 0, va := va }
def codeOf (s : State) : Nat := match s.walk 0 0 0 0x1000 with | .ok _ => 99 | .error e => e.1
def cBound : State := { cKn krec { binds := ⟨[(0, { st := .active, view := 0x12000, store := 0x400000, nrec := 128, rin := 64, rout := 64, slot := 1 })]⟩ } 0 with cur := {} }
theorem witness_MemorySystemEvents_walks :
    State.walking { s56 with walks := [wk 0 0x1000, wk 1 0x1000] } (wk 0 0x1000) = true ∧
    State.walking { s56 with walks := (List.range 300).map (fun i => wk 0 (BitVec.ofNat 64 (4096 * i))) } (wk 0 (BitVec.ofNat 64 (4096 * 299))) = false ∧
    2 ≤ codeOf s56 ∧ codeOf (sLost 0x12000 (cKn krec {} 0)) = 0 ∧ codeOf cBound = 1 := by decide +kernel

theorem witness_MemorySystemEvents_weights :
    ((sWs tk56).die 0).wqueue ≠ [] ∧ (∀ w ∈ ((sWs tk56).die 0).wqueue, (sWs tk56).partRuns w.1 0 = true) ∧
    (∃ x ∈ [(0x100, (7 : BitVec 8))], (some 1 : Option Nat) = some (x.1 / 256 % 16)) ∧ (s56.die 0).wqueue = [] ∧ ((at0 { kRel 0 with relItem := true } {}).core 0).relItem = true ∧
    ((sPk 0 9).unitPaused 0 = false ∧ ((sPk 0 9).router 0).out.get 3 {} = { freeAt := 9 }) := by decide +kernel

theorem witness_AtomicsArePerformed_views :
    ((sBound .pending false false).bindingAt (atm 0x200000 0).pa).map (fun x => x.2.2.st) = some .pending ∧
    ((sBound .faulted false false).bindingAt (atm 0x200000 0).pa).map (fun x => x.2.2.st) = some .faulted ∧ (sLost 0x200000 (sHome 0)).lostData (atm 0x200000 0).pa = true ∧
    (∀ m ∈ (s56.core (atm 0x200000 0).core).ports, (atm 0x200000 0).id ∉ m.wrs) ∧
    (({ s56 with cores := ⟨[(1, { tk56 with ports := [{ cmd .cred 1 0 with wrs := [5] }] })]⟩ } : State).core 1).ports.find? (fun m => m.wrs.contains 5) ≠ none := by decide +kernel

/-! ## Hypotheses that can be met: channels -/

/-- Core 0 as the writer of channel 0, with room, whose answer says OPEN, FP32, ends and partition. -/
def ansOpen (wr rd : Nat) : Option (Option TableAnswer) := some (some { word := 0x81, open_ := true, part := 0, writer := wr, reader := rd })
def sChw (o : SlipOp) (e : ChanEnd) : State := at0 { kV 8 8 with regs := ⟨[(8, 0)]⟩, chans := ⟨[(0, e)]⟩ } { o with seq := 1 }
def open16 : ChanEnd := { cap := 16 }

theorem witness_ChannelOps :
    (sChw {} open16).me.stageGuard (sChw {} open16).cur.op 8 = false ∧ (sChw {} open16).me.stageGuard (sChw {} open16).cur.op 0 = true ∧ isCtl (sChw {} open16).cur.core = false ∧ isCtl c100.cur.core = true ∧
    c100.me.stageGuard c100.cur.op 0 = true ∧ (sChw {} open16).me.qOn 1 = true ∧ (sChw {} open16).Has true 8 0 ∧ (sChw {} open16).cur.op.answer = none ∧
    (sChw { answer := ansOpen 0 1 } open16).cur.op.answer = ansOpen 0 1 ∧ (1 : Nat) ≠ (sChw {} open16).cur.core ∧
    0 = (sChw {} open16).partOf 0 ∧ (0x81 : W64).toNat / 16 % 16 = (sChw {} open16).me.qTy 1 ∧ (sChw {} open16).me.slots.l.all (fun y => y.2.all (fun o => !isChwr o.op)) = true := by
  simp only [State.Has]; decide +kernel

theorem witness_ChannelOps_room :
    (open16.tailw + open16.wpend + (1 - Min.min 1 (open16.tailw - open16.wpos)) ≤ open16.cap + open16.heado) ∧
    (let e : ChanEnd := { cap := 16, tailw := 16, wpos := 16 }
     e.cap + e.heado < e.tailw + e.wpend + (1 - Min.min 1 (e.tailw - e.wpos))) ∧
    (sChw {} open16).me.readEnts (sChw {} open16).cur.op { b := true, q := 1, k := 0 } 1 = .val [zeros] ∧ (sChw {} open16).Holding ∧ (sChw {} open16).cur.op.ival = (sChw {} open16).me.ival ∧
    (sChw {} open16).me.captured 0 + 1 ≤ 64 ∧
    (let k : Core := { tk56 with items := [{ seq := 1, ival := 0, pc := 0, slot := 4, scope := 0, rel := false, kind := .chwr 1 64 (List.replicate 64 []) }] }
     64 < k.captured 0 + 1) ∧ Tab.findL (sChw { caps := [(65, .val 0)] } open16).cur.op.caps 65 = some (.val 0) := by
  simp only [State.Holding]; decide +kernel

/-- Channel 0 of partition 0, written by core 1 and read by core 0; empty, with all its ring filled, spilled, with a request of position 0. -/
def chn (tail : Nat) : Chan := { open_ := true, wcore := 1, tailw := tail, rtail := min tail 16, ty := 8 }
def sCh (e : Chan) (k : Core) : State := { at0 k {} with dies := ⟨[(0, { chans := ⟨[(0, e)]⟩ })]⟩ }
def app0 (c : Nat) : ChAppend := { core := c, id := 5, ch := 0, ents := [zeros], pc := 0, slot := 4 }
def rd0 (acq : Option Nat) : ChRead := { core := 0, ch := 0, pos := 0, q := 1, idx := 0, acq := acq, seq := 4, pc := 0, slot := 4 }
def eRd (acq : Option Nat) : Chan := { chn 1 with reads := [rd0 acq] }
def kOut : Core := { kEnt { st := .reserved, seq := 4 } with sent := [{ id := 1, kind := 0, scope := 2 }] }

theorem witness_ChannelController :
    ((sCh (chn 0) tk56).chan 0).open_ = true ∧ ((sCh (chn 0) tk56).chan 0).writer = (app0 1).core ∧ ((sCh (chn 0) tk56).chan 0).writer ≠ (app0 0).core ∧ (app0 1).ents = [zeros] ∧
    ((sCh (chn 0) tk56).chan 0).headrWant = [] ∧ ((sCh (chn 0) tk56).chan 0).tailoWant = [] ∧ ((sCh (chn 0) tk56).chan 0).reads = [] ∧ (chn 15).tailw - (chn 15).heado < (chn 15).re ∧
    ¬ ((chn 16).tailw - (chn 16).heado < (chn 16).re) ∧ (chn 16).rtail ≤ (chn 16).tailw ∧
    rd0 none ∈ (eRd none).reads ∧ (rd0 none).pos < (eRd none).tailw ∧ (sCh (eRd (some 2)) kOut).acquireReady 0 2 (some 4) = false ∧ (sCh (eRd (some 2)) tk56).acquireReady 0 2 (some 4) = true ∧
    (((kEnt { st := .reserved, seq := 4 }).queue 1).ent 0).st = .reserved ∧ (((kEnt { st := .reserved, seq := 4 }).queue 1).ent 0).seq = (rd0 none).seq ∧
    ({ chn 17 with spill := true, heado := 1 } : Chan).canRefill = true ∧ ({ chn 17 with spill := true } : Chan).canRefill = false ∧
    (let k : Core := { tk56 with slots := ⟨[(0, [{ op := .chstat 7 6 0, answer := some none, seq := 1 }])]⟩ }
     k.slots.get 0 [] = [{ op := .chstat 7 6 0, answer := some none, seq := 1 }] ∧ chanArg (.chstat 7 6 0) = some (6, 0) ∧ k.readReg { op := .chstat 7 6 0, answer := some none, seq := 1 } true 6 = .val 2) := by
  decide +kernel

/-- A request of two positions at the table; an entry that waits for its writer's report; ends with a report still due from an earlier channel; two draining entries. -/
def ask0 : ChRead := { rd0 none with ask := 2 }
theorem witness_ChannelController_requests :
    ask0.ask ≠ 0 ∧ (rd0 none).ask = 0 ∧ ((sCh (chn 0) tk56).chan 0).reader = ask0.core ∧ ((sCh (chn 0) tk56).chan 0).reader ≠ ({ ask0 with core := 1 } : ChRead).core ∧ (chn 0).tailw ≤ (rd0 none).pos ∧
    (((kEnt { st := .draining, seq := 4, readers := 1 }).queue 1).ent 0).st = .draining ∧ (((kEnt { st := .draining, seq := 4 }).queue 1).ent 0).readers = 0 ∧
    ({ stale := 1 } : ChanEnd).stale ≠ 0 ∧ open16.stale = 0 ∧ (chn 0).heado = 0 ∧ (chn 16).reads = [] ∧
    (∀ p ∈ (tk56.slots.get 0 []).head?, p.answer ≠ some none) := by decide +kernel

/-- A CHWR that the table's answer lets through, where another CHWR is unfinished, its release waits, the channel is closed, or the entries are not there. -/
def chwrBefore : List SlipOp := [{ op := .chwr 0 1 8 false 0, seq := 0 }]
theorem witness_ChannelOps_late :
    (∃ y ∈ ({ tk56 with slots := ⟨[(4, chwrBefore)]⟩ } : Core).slots.l, ∃ o ∈ y.2, isChwr o.op = true ∧ o.seq < SlipOp.place { seq := 1 } tk56) ∧
    ({ open16 with closed := true } : ChanEnd).closed = true ∧ ({ word := 0x80 } : TableAnswer).open_ = false ∧ (4096 : W64).toNat % 4096 = 0 ∧ 4096 ≤ (4096 : W64).toNat ∧
    (sChw { answer := some none } open16).cur.op.answer = some none ∧ (sChw {} open16).me.qOn 6 = false ∧
    (let s := (sChw { answer := ansOpen 0 1 } open16).modCore 0 (fun k => { k with handler := true })
     ¬ s.Holding) ∧ Tab.findL (sChw {} open16).cur.op.caps 65 = none := by
  simp only [State.Holding]
  refine ⟨⟨(4, chwrBefore), by decide +kernel, _, List.mem_singleton.mpr rfl, by decide +kernel⟩, by decide +kernel⟩

/-- Core 0 waits for room in channel 0, which is full and which core 1 reads; core 1 waits for an entry of channel 1, which core 0 writes. -/
def kW : Core := { kV 8 8 with regs := ⟨[(8, 0)]⟩, slots := ⟨[(4, [{ op := .chwr 0 1 8 false 0, answer := ansOpen 0 1, caps := [(8, .val 0)] }])]⟩, chans := ⟨[(0, { cap := 16, tailw := 16, wpos := 16 })]⟩ }
def kR : Core := { kEnt { st := .reserved, seq := 4 } with slots := ⟨[(1, [{ op := .nop, srcs := [(1, 0)] }])]⟩ }
def sDead (cyc free : Nat) : State :=
  { State.reset with
    cores := ⟨[(0, kW), (1, kR)]⟩, clk := { cyc := cyc }, parts := ⟨[(0, { resTotal := free })]⟩,
    dies := ⟨[(0, { chans := ⟨[(0, { open_ := true, rcore := 1, tailw := 16, rtail := 16 }), (1, { open_ := true, rcore := 1, reads := [{ rd0 none with core := 1, ch := 1 }] })]⟩ })]⟩ }

theorem witness_ChannelController_proofer :
    (∀ c, c < 128 → (sDead 8 1).partOf c = 0 → (sDead 8 1).blockedFor c (Max.max 4096 ((sDead 8 1).part 0).prfcfg) = false) ∧
    (sDead 65536 1).partOf 0 = 0 ∧ (sDead 65536 1).partOf 1 = 0 ∧ (sDead 65536 1).blockedFor 0 (Max.max 4096 ((sDead 65536 1).part 0).prfcfg) = true ∧
    (sDead 65536 1).blockedFor 1 (Max.max 4096 ((sDead 65536 1).part 0).prfcfg) = true ∧ (sDead 65536 1).waitEdges 0 = [(true, 0, 1)] ∧ (sDead 65536 1).waitEdges 1 = [(false, 1, 0)] ∧
    ((sDead 65536 1).part 0).reported = [] ∧ (sDead 65536 1).canGrow 0 = true ∧ ((sDead 65536 1).chan 0).open_ = true ∧ (sDead 65536 0).canGrow 0 = false ∧ ((sDead 65536 1).chan 2).open_ = false ∧
    ((sDead 65536 1).part 0).freeQuanta ≠ [] := by decide +kernel

/-- A channel that may no longer grow when its turn comes. -/
theorem witness_ProoferAndGrowth_late :
    ((sDead 65536 0).chan 0).open_ = true ∧ (sDead 65536 0).canGrow 0 = false ∧
    (let s : State := { sDead 65536 1 with cores := ⟨[(0, { kR with slots := ⟨[(1, [{ op := .nop, srcs := [(1, 0)] }])]⟩ }), (1, kR)]⟩,
                                           dies := ⟨[(0, { chans := ⟨[(0, { open_ := true, wcore := 1, rcore := 0, reads := [rd0 none] }), (1, { open_ := true, rcore := 1, reads := [{ rd0 none with core := 1, ch := 1 }] })]⟩ })]⟩ }
     s.waitEdges 0 = [(false, 0, 1)] ∧ s.waitEdges 1 = [(false, 1, 0)] ∧ s.blockedFor 0 (Max.max 4096 (s.part 0).prfcfg) = true ∧ s.blockedFor 1 (Max.max 4096 (s.part 0).prfcfg) = true) := by decide +kernel

/-! ## Hypotheses that can be met: the Peel -/

/-- A post for core 0 with a deadline; core 0 in an operator of a given bound, or in a loop of a kernel that gives its cost. -/
def dl (d : Nat) : PeelPostRec := { id := 3, tk := none, fn := none, part := 0, whole := false, d := d, cores := [0] }
def kOp (bound cost : Nat) : Core :=
  { tk56 with item := tk56.item.map (fun w => { w with hdr := List.replicate 56 0 ++ leBytes 4 bound ++ List.replicate 68 0, costHint := cost }), loop := { act := cost != 0, lc := 9, s := 2, ii := 4 } }
def sPeel (k : Core) (d frames : Nat) : State := { at0 k {} with peelPosts := [dl d], parts := ⟨[(0, { frames := List.range frames, frmTotal := frames })]⟩ }

theorem witness_PeelEvictsAndResumes_decision :
    (let s := sPeel (kOp 50 0) 9000 0
     s.peelPosts = [dl 9000] ∧ (dl 9000).cores = [0] ∧ s.groups = [] ∧ (s.core 0).item.isSome = true ∧ (s.cores.l.filter (fun y => y.2.item.isSome)).map (·.1) = [0] ∧ (∀ y ∈ s.cores.l, y.1 = 0 → y.2 = s.core 0) ∧
     s.tRun 0 = some 50 ∧ (s.pathOf [0] 0 5800).1 = .run) ∧
    (let s := sPeel (kOp 0 6) 9000 4
     s.tRun 0 = none ∧ (s.tCkpt 0).isSome = true ∧ (s.core 0).nf ≤ (s.part 0).frames.length ∧ (s.pathOf [0] 0 5800).1 = .ckpt) ∧
    ((sPeel tk56 9000 4).pathOf [0] 0 5800).1 = .disc ∧ (9 : Nat) < (sPeel tk56 9 4).clk.cyc + 3200 ∧ (∀ x ∈ (sPeel tk56 9 4).peelPosts, x.id ≠ 4) := by decide +kernel

/-- A group of one item, core 0's, in a state of its eviction. -/
def grp (st : GroupSt) (path : PeelPath) (ps : List Parked) : Group := { id := 7, st := st, path := path, conv := 100, part := 0, die := 0, parked := ps, n := 1, newCores := [0] }
def kGrp (parked : Bool) (sent : Nat) : Core :=
  { tk56 with item := tk56.item.map (fun w => { w with group := some 7, parked := parked }), sent := (List.range sent).map (fun i => { id := i, kind := 0, scope := 2 }) }
def sGrp (k : Core) (g : Group) (cyc : Nat) : State := { at0 k {} with groups := [g], clk := { cyc := cyc } }
def parked0 : Parked := { core := 0, item := fetchItem State.reset 0, save := none, ends := ⟨[]⟩, async := [] }

theorem witness_PeelEvictsAndResumes_conversion :
    (sGrp (kGrp false 0) (grp .drain .ckpt []) 100).groups = [grp .drain .ckpt []] ∧ (grp .drain .ckpt []).conv ≤ (sGrp (kGrp false 0) (grp .drain .ckpt []) 100).clk.cyc ∧
    ((0, (sGrp (kGrp false 0) (grp .drain .ckpt []) 100).core 0) ∈ (sGrp (kGrp false 0) (grp .drain .ckpt []) 100).cores.l) ∧ (kGrp false 0).item.bind (·.group) = some 7 ∧
    (sGrp (kGrp false 0) (grp .runb .run []) 99).clk.cyc < (grp .runb .run []).conv := by decide +kernel

theorem witness_PeelEvictsAndResumes_parks :
    (let s := sGrp (kGrp true 0) (grp .runb .run []) 0
     (s.core 0).items = [] ∧ (s.core 0).item.map (·.parked) = some true ∧ s.peelPosts = [] ∧ (∀ y ∈ s.cores.l, y.1 ≠ 0 → y.2.item = none) ∧ (s.core 0).halting = false ∧ s.settled 0 = true) ∧
    (sGrp (kGrp true 1) (grp .runb .run []) 0).settled 0 = false ∧ (sGrp (kGrp false 0) (grp .drain .ckpt []) 0).settled 0 = true ∧ (sGrp (kGrp false 0) (grp .drain .ckpt []) 0).splicesMove 0 = false ∧
    (sGrp (kGrp false 1) (grp .drain .ckpt []) 0).settled 0 = false ∧
    (let s := sGrp (kGrp false 0) (grp .discarding .disc []) 0
     s.rollbackReady 0 = true ∧ (s.core 0).chans = ⟨[]⟩ ∧ (s.core 0).trap = none ∧ (s.core 0).sent = [] ∧ (s.core 0).outs = [] ∧ (s.core 0).relWait = none) ∧
    (sGrp { kGrp false 0 with slots := ⟨[(0, [{ op := .nop }])]⟩, ival := 1 } (grp .discarding .disc []) 0).rollbackReady 0 = false := by decide +kernel

/-- A control core that saves its context, quiet or not, whose partition is evicted. -/
def cSave (sent : Nat) : State :=
  { atC { ccore [] with ctl := { running := true, saving := true }, sent := (List.range sent).map (fun i => { id := i, kind := 0, scope := 2 }) } {} with peelPosts := [{ dl 9 with whole := true }] }
theorem witness_PeelEvictsAndResumes_resume :
    (let s := sGrp { tk56 with item := none } (grp .parked .disc [parked0]) 0
     s.groups = [grp .parked .disc [parked0]] ∧ parked0.save = none ∧ parked0.ends = ⟨[]⟩ ∧ s.groupFits (grp .parked .disc [parked0]) = true ∧ s.pickCores 0 0 1 = some [0]) ∧
    (grp .resuming .disc []).newCores = [0] ∧ ((sGrp tk56 (grp .resuming .disc []) 0).core 0).async = [] ∧
    ((cSave 0).core 128).ctl.running = true ∧ ((cSave 0).core 128).ctl.saving = true ∧ (cSave 0).ctlQuiet 128 = true ∧ (cSave 1).ctlQuiet 128 = false ∧ (cSave 0).partHeld 0 = true := by decide +kernel

theorem witness_PeelEvictsAndResumes_suppress :
    (∃ i : Item, ∃ gl l b f v, i.kind = .store gl l b f v) ∧ (∃ i : Item, ∃ p, i.kind = .post p) ∧ (∀ x, ((cSave 0).fn x).toStart = 0) ∧ (∀ x, ((cSave 0).die x).ctx = ⟨[]⟩) :=
  ⟨⟨{ seq := 1, ival := 0, pc := 0, slot := 0, scope := 0, rel := false, kind := .store false 0 [] [] [] }, _, _, _, _, _, rfl⟩,
   ⟨{ seq := 1, ival := 0, pc := 0, slot := 0, scope := 0, rel := false, kind := .post (post2 1) }, _, rfl⟩, fun _ => rfl, fun _ => rfl⟩

/-- A post for the whole partition; items that have not started; an eviction of the partition whose context runs. -/
theorem witness_PeelDecides_posts :
    (let s := sPeel (kOp 50 0) 9000 0
     (∃ y ∈ ({ s with cores := ⟨[(0, { s.core 0 with item := (s.core 0).item.map (fun w => { w with started := false }) })]⟩ } : State).cores.l, ∃ w, y.2.item = some w ∧ w.part = 0 ∧ w.started = false) ∧
     (∀ y ∈ s.cores.l, ∀ w, y.2.item = some w → w.started = true)) ∧
    (cSave 0).peelPosts.find? (fun y => y.id == 3) = some { dl 9 with whole := true } ∧ (cSave 0).ctlRuns 0 0 = true ∧ ({ dl 9 with decided := true } : PeelPostRec).decided = true := by
  refine ⟨⟨⟨_, List.mem_singleton.mpr rfl, _, rfl, by decide +kernel⟩, ?_⟩, by decide +kernel⟩
  intro y hy w hw
  obtain rfl := List.mem_singleton.mp hy
  revert hw
  exact fun h => by injection h with h; subst h; rfl

/-- Core 0's item of group 7 with some of its pieces sent, at a cycle; its context empty or not. -/
def kPiece (left : Option Nat) (disc : Bool) : Core :=
  { tk56 with item := tk56.item.map (fun w => { w with group := some 7, parked := true, left := left, sentAt := 5, disc := disc, drain := if disc then none else some 3 }) }
theorem witness_ItemsPark :
    (kPiece none false).item.map (·.left) = some none ∧ (kPiece (some 0) false).item.map (·.left) = some (some 0) ∧ (kPiece (some 2) false).item.map (fun w => w.sentAt) = some 5 ∧
    (sGrp (kPiece (some 2) false) (grp .drain .ckpt []) 5).clk.cyc = 5 ∧ (sGrp (kPiece (some 2) false) (grp .drain .ckpt []) 6).clk.cyc ≠ 5 ∧ ((kPiece none false).dsz.toNat + 63) / 64 ≠ 0 ∧
    (({ kPiece none false with sys := { tk56.sys with limk := tk56.sys.limk } } : Core).item.bind (·.drain)) = some 3 ∧
    (sGrp (kPiece none false) (grp .drain .ckpt []) 5).settled 0 = true ∧ (sGrp (kPiece none false) (grp .drain .ckpt []) 5).splicesMove 0 = false ∧
    (sGrp { kPiece none false with queues := (kShip .open_ 1).queues, splices := (kShip .open_ 1).splices, ival := 1, ckSeq := 5 } (grp .drain .ckpt []) 5).splicesMove 0 = true ∧
    (kPiece none true).item.map (·.disc) = some true ∧ (kGrp true 0).item.map (·.disc) = some false ∧ (sGrp { kPiece none true with halting := true } (grp .discarding .disc []) 5).haltDone 0 = true ∧
    ((sGrp (kPiece none true) (grp .discarding .disc []) 5).fabDone 0).rollbackReady 0 = true := by decide +kernel

/-- A parked item with its context, stopped in a loop that has passes left, or at a place past it. -/
def parkedC (drain : Option Nat) : Parked :=
  { parked0 with save := some { tk56 with loop := { act := true, lc := 0, start := 0x2000 }, dirty := [3] }, item := { parked0.item with drain := drain } }
theorem witness_GroupsResume_contexts :
    (parkedC (some 2)).save.isSome = true ∧ (parkedC (some 2)).item.drain = some (1 + 1) ∧ (parkedC none).item.drain.getD 0 = 0 ∧ (parkedC none).ends = ⟨[]⟩ ∧
    (sGrp { tk56 with item := none } (grp .parked .ckpt [parkedC none]) 0).groupFits (grp .parked .ckpt [parkedC none]) = true ∧
    ((tk56.item.map (fun w => { w with left := some 2 })).map (·.left)) = some (some (1 + 1)) ∧ (tk56.item.map (fun w => w.left.getD 0)) = some 0 ∧
    (let i : Item := { seq := 1, ival := 0, pc := 0, slot := 4, scope := 0, rel := false, kind := .copy 1 }
     i.kind = .copy 1 ∧ ((sCmd (cmd .clds 0 0)).core 0).ports.find? (fun x => x.id == 1) = some (cmd .clds 0 0)) ∧ (∀ g ∈ (sGrp tk56 (grp .runb .run []) 0).groups, g.id ≠ 8) := by decide +kernel

theorem witness_GroupsResume_wake :
    (let s : State := { atC { ccore [] with ctl := { running := false } } {} with dies := ⟨[(0, { ctx := ⟨[(0, ccore [])]⟩ })]⟩ }
     (s.core 128).ctl.running = false ∧ (s.die 0).ctx.find 0 = some (ccore []) ∧ s.partHeld 0 = false) := by decide +kernel

/-! ## Hypotheses that can be met: faults that wait, watchdogs, errors, resets -/

def fq (slot : Nat) (code : Nat) : FaultRec := { code := code, detail := 1, addr := 0, pc := 0x1000, slot := slot, single := false }
/-- A tile core and a control core with a fault that waits; the control core has a handler and an abandonment to report. -/
def sAs (slot : Nat) : State := at0 { tk56 with async := [fq slot 0x1E] } {}
def cAs (code : Nat) : State :=
  atC { ccore [] with async := [fq 7 code], sys := { (ccore []).sys with tvec := 0x2000 }, ctl := { running := true, abn := [(fq 7 0x1B, 5)] } } {}

theorem witness_WatchdogsAndErrors_waiting :
    ((sAs 7).core 0).async = [fq 7 0x1E] ∧ ((sAs 7).core 0).handler = false ∧ ((sAs 7).core 0).trap = none ∧ ((sAs 7).core 0).goSync = false ∧ ((sAs 7).core 0).atBoundary = true ∧
    ((at0 { tk56 with async := [fq 7 0x1E], handler := true } {}).core 0).handler = true ∧ isCtl 128 = true ∧ ((cAs 0x1E).core 128).async = [fq 7 0x1E] ∧ ((cAs 0x1E).core 128).sys.tvec ≠ 0 ∧
    ((cAs 0x1E).core 128).atBoundary = true ∧ (fq 7 0x1E).code ≠ 0x1B ∧ ((cAs 0x1B).core 128).ctl.abn = [(fq 7 0x1B, 5)] := by decide +kernel

def rj (tk : Option Nat) (code : Nat) : Reject := { tk := tk, code := code, detail := 1, pc := 0x1000, slot := 0, addr := 0 }
theorem witness_WatchdogsAndErrors_rejects :
    (s56.core 0).item ≠ none ∧ (State.reset.core 0).item = none ∧
    ({ code := 0x18, detail := 1, addr := 0, pc := 0x1000, slot := 0, single := false } : FaultRec) ∈ ((at0 { tk56 with async := [fq 0 0x18] } {}).core 0).async ∧
    (let p : Pend := { tk := 1, dst := .reg 5, vis := 0, fe := true, val := none, ival := 0 }
     (sWait.core 0).pend = [p] ∧ p.tk = 1 ∧ p.dst = .reg 5 ∧ p.vis ≤ (sWait.core 0).bundleNo ∧ p.dead = false ∧ (sWait.core 0).item ≠ none) ∧
    (let s : State := { cAs 0x1E with parts := ⟨[(0, { reports := [(0, fq 7 0x1B, 5)] })]⟩ }
     s.parts = ⟨[(0, { reports := [(0, fq 7 0x1B, 5)] })]⟩ ∧ s.ctlRuns 0 0 = true) := by decide +kernel

theorem witness_WatchdogsAndErrors_noContext : ∀ y, State.reset.ctlRuns 0 y = false := by
  intro y; simp only [State.ctlRuns, State.core, Tab.get, Tab.find, State.reset, Tab.findL]; split <;> rfl

/-- Core 0 with no progress since cycle 0, at the watchdog's bound, in its item or in its HALT; past its operator bound. -/
def sHung (halting : Bool) : State := { at0 { tk56 with halting := halting, sys := { tk56.sys with opbmax := 9 } } {} with clk := { cyc := 4096 * 8192 } }
theorem witness_WatchdogsAndErrors :
    (sHung false).hung 0 = true ∧ s56.hung 0 = false ∧ (sHung true).hung 0 = true ∧ ((sHung true).core 0).halting = true ∧ (sHung false).overBound 0 = true ∧ s56.overBound 0 = false ∧
    (s56.core 0).item.isSome = true ∧ (s56.core 0).rbMach < 2 ∧ 2 ≤ ((at0 { tk56 with rbMach := 2 } {}).core 0).rbMach ∧
    ((at0 { tk56 with trap := some .machine } {}).core 0).trap = some .machine ∧ (at0 { tk56 with trap := some .machine } {}).rollbackReady 0 = true := by decide +kernel

theorem witness_ResetsAndPower :
    (0 < 16 ∧ 15 < 16) ∧ s56.partOf 0 = 0 ∧ (s56.fn 0).fence.getLsbD 0 = false ∧ bitsAt (s56.fn 0).sched.toNat 2 46 = 0 ∧
    bitsAt (State.fn { s56 with fns := ⟨[(0, { sched := 0x4000 })]⟩ } 0).sched.toNat 2 46 ≠ 0 ∧ coreNo 0 ∉ (s56.die (dieOf 0)).disabled ∧ (s56.die 0).spares ≠ 0 ∧
    (State.die { s56 with dies := ⟨[(0, { spares := 0 })]⟩ } 0).spares = 0 ∧ s56.layout.now.wqOwner.getD 63 0 = 0 ∧ s56.layout.now.wqOwner.getD 64 0 ≠ 0 ∧ s56.powered = true ∧
    ({ s56 with powered := false } : State).powered = false := by decide +kernel

/-- Two fault rollbacks within the window and no checkpoint since; an item that is abandoned already; an array whose binding partition 3 owns. -/
def kTwice (n : Nat) : Core := { tk56 with lastAct := 4096 * 8192, rbBase := 0, rbFaults := [4096 * 8192, n] }
theorem witness_WatchdogsAndErrors_hung :
    (let s : State := { at0 (kTwice 0) {} with clk := { cyc := 4096 * 8192 } }
     s.hung 0 = true ∧ ({ s with clk := { cyc := 4096 * 8192 + 1 } } : State).hung 0 = false) ∧
    ((sHung false).core 0).abandoned = false ∧ ((at0 { tk56 with abandoned := true } {}).core 0).abandoned = true ∧ ((sHung false).core 0).halting = false ∧
    (at0 { tk56 with goSync := true } {}).me.goSync = true ∧ tk56.item ≠ none ∧ tk56.handler = false ∧ tk56.trap = none ∧
    (s56.part 0).wdcfg ≠ 0 ∧ (sHung false).me.sys.opbmax ≠ 0 ∧ (sHung false).me.opbHit = false ∧ (sHung false).me.sys.opbmax.toNat < (sHung false).opbcy 0 := by
  decide +kernel

theorem witness_WaitingFaults_control :
    ((atC { ccore [] with async := [fq 7 0x1E] } {}).core 128).sys.tvec = 0 ∧ ((atC { ccore [] with async := [fq 7 0x1E] } {}).core 128).atBoundary = true ∧
    ((at0 { tk56 with async := [fq 7 0x1E], trap := some .machine } {}).core 0).trap ≠ none ∧
    (let f : FaultRec := { code := 0x18, detail := 1, addr := 0, pc := 0x1000, slot := 1, single := false }
     ∀ g ∈ [f], g.code = 0x18 → g.pc = (rj none 0x18).pc → g.slot ≠ (rj none 0x18).slot) ∧
    isSys (bitsAt (State.fn { s56 with fns := ⟨[(0, { pendReg := BitVec.ofNat 64 sysBase })]⟩ } 0).pendReg.toNat 12 40 * 4096) = true ∧ s56.boundQueues 0 = [] ∧ (State.boundQueues { s56 with wqs := ⟨[(4, { w0 := 1 })]⟩ } 0) = [4] := by decide +kernel

/-! ## Hypotheses that can be met: the Knead Arrays -/

def fl0 : KFlit := { data := 5, tag := 0, ctl := false }
/-- The cell of column 0, row 0, with a flit that its route table sends to its own op, and room there or not. -/
def sRoute (busy : Bool) : State :=
  { State.reset with arrays := ⟨[(0, { cells := ⟨[(0, { rt := [16], ing := ⟨[(0, [fl0])]⟩, inp := if busy then some fl0 else none })]⟩ })]⟩ }
theorem witness_RecordsRun_routes :
    ((sRoute false).cell loc0).ing.get 0 [] = [fl0] ∧ (((sRoute false).cell loc0).rt.getD ((((sRoute false).cell loc0).pos + fl0.tag) % 16) 0).toNat.testBit 4 = true ∧
    (sRoute true).kRoom loc0 4 = false ∧ (∀ e, e < 5 → (16 : Nat).testBit e = true → (sRoute false).kRoom loc0 e = true) := by decide +kernel

/-- Array 0 with a stock binding, reading or writing, ACTIVE, in column 0; its records queued and running. -/
def bnd (wr : Bool) (slot : Nat) : Binding := { st := .active, view := 0x2000000, store := 0x4000000, nrec := 128, rin := 64, rout := 64, slot := slot, wr := wr }
def kr0 : KRec := { ent := 0, r := 0, inp := none, acc := [] }
def run0 (t : Nat) (eg : Bool) : KRun := { cols := [0], rcd := kr0, t := t, eg := if eg then [[7]] else [] }
def sArr (x : Array8) : State := { atC (ccore []) {} with arrays := ⟨[(0, x)]⟩ }
theorem witness_RecordsRun :
    (let x : Array8 := { binds := ⟨[(0, bnd false 4)]⟩, queue := [kr0] }
     ((sArr x).arr 0).startable.find? (fun q => q.ent == 0) = some kr0 ∧ (((sArr x).arr 0).binds.get 0 {}).slot = 4) ∧
    (let x : Array8 := { binds := ⟨[(0, bnd false 1)]⟩, runs := [run0 3 true] }
     ((sArr x).arr 0).runs.find? (fun q => q.rcd.ent == 0 && q.cols.contains 0) = some (run0 3 true) ∧ (bnd false 1).st = .active ∧ (sArr x).ctlRuns 0 (0 / 2) = true ∧
       (sArr x).quiescent 0 (run0 3 true) = true ∧ ((run0 3 true).output 64).isSome = true ∧ (run0 3 false).output 64 = none) ∧
    (sArr {}).quiescent 0 { run0 4094 true with moved := true } = false ∧ (run0 4094 true).t + 1 < 4096 ∧ 4096 ≤ (run0 4095 true).t + 1 ∧
    (bnd true 1).wr = true ∧ (∀ l ∈ linesOf (cellsAt 0x4000800 (List.replicate 64 7)), (sArr {}).ownerDie (64 * l) ≠ 0 / 2) ∧ ((sArr {}).die 0).view.wf = true := by decide +kernel

/-- A read request of the view's first line, and a write of its first two bytes; the array with its binding in a state. -/
def rq : Access := { acc 0x2000000 none with va := 0 }
def cw1 (d : List (Nat × BitVec 8)) : CollWrite := { arr := 0, ent := 0, data := d, acc := rq }
def bOpen (n : Nat) : Binding := { bnd true 1 with rin := 2, opened := (List.range n).map (fun i => (i + 1, [(0, 1)])) }
theorem witness_ViewsAreServed :
    (sArr {}).bindingAt rq.pa = none ∧ (sArr { binds := ⟨[(0, { bnd false 1 with st := .faulted })]⟩ }).bindingAt rq.pa = some (0, 0, { bnd false 1 with st := .faulted }) ∧
    (sArr { binds := ⟨[(0, bnd false 1)]⟩ }).bindingAt rq.pa = some (0, 0, bnd false 1) ∧ (rq.pa - (bnd false 1).view) / max (bnd false 1).rout 1 = 0 ∧
    (∃ x ∈ ((sArr { queue := [kr0] }).arr 0).queue, x.ent = 0 ∧ x.r = 0) ∧ (∀ x ∈ List.replicate 16 ({ kr0 with r := 1 } : KRec), x.ent = 0 → x.r ≠ 0) ∧ 16 ≤ (List.replicate 16 ({ kr0 with r := 1 } : KRec)).length ∧
    ({ bnd false 1 with deliv := [{ kr0 with acc := [{ rq with reply := .scalar 0 1 8 false [] }] }] } : Binding).deliv.find? (fun q => q.r == 0) = some { kr0 with acc := [{ rq with reply := .scalar 0 1 8 false [] }] } ∧
    rq.core < 200 := by decide +kernel

theorem witness_ViewsAreServed_writes :
    (bOpen 0).covers ((cw1 [(0x2000000, 7)]).data.headD (0, 0)).1 = true ∧ (bOpen 0).st = .active ∧ ({ bnd true 1 with st := .faulted } : Binding).covers 0x2000000 = true ∧
    ¬ (∃ v ∈ (bOpen 0).wait, ((v.data.headD (0, 0)).1 - (bOpen 0).view) / max (bOpen 0).rin 1 = 0) ∧
    (∃ v ∈ ({ bOpen 0 with wait := [cw1 [(0x2000000, 7)]] } : Binding).wait, ((v.data.headD (0, 0)).1 - (bOpen 0).view) / max (bOpen 0).rin 1 = 0) ∧
    ((∀ o ∈ (bOpen 16).opened, o.1 ≠ 0) ∧ 16 ≤ (((sArr { binds := ⟨[(0, bOpen 16)]⟩ }).arr 0).binds.l.map (fun e => e.2.opened.length)).foldl (· + ·) 0) ∧
    ¬ (16 ≤ (((sArr { binds := ⟨[(0, bOpen 15)]⟩ }).arr 0).binds.l.map (fun e => e.2.opened.length)).foldl (· + ·) 0) ∧
    (let new (d : List (Nat × BitVec 8)) := d.foldl (fun (m : List (Nat × BitVec 8)) p => (p.1 - (0x2000000 + 0 * 2), p.2) :: m.filter (fun q => q.1 != p.1 - (0x2000000 + 0 * 2))) []
     (new [(0x2000000, 7)]).length ≠ (bOpen 0).rin ∧ (new [(0x2000000, 7), (0x2000001, 8)]).length = (bOpen 0).rin) := by decide +kernel

/-- An image of one column: 32 zero words and END, so eight cells without an op; and one whose stream has no END. -/
def kimgOk (s : Bytes) : Bytes := leBytes 4 0x474E444B ++ leBytes 2 1 ++ [1, 0] ++ leBytes 4 64 ++ List.replicate 12 0 ++ leBytes 4 s.length ++ List.replicate 12 0 ++ leBytes 4 (64 + s.length) ++ List.replicate 20 0 ++ s
theorem witness_KneadControl_slots :
    (match kDecode (fun _ => 0) (kimgOk [2, 31, 5]) with | .ok ws => ws == [List.replicate 32 0] | .error _ => false) = true ∧
    (match kDecode (fun _ => 0) (kimgOk [2, 31]) with | .ok _ => false | .error _ => true) = true ∧
    (let s := sArr { slots := ⟨[(1, { st := .loading, image := kimgOk [2, 31, 5] })]⟩ }
     ((s.arr 0).slots.get 1 {}).st = .loading ∧ s.clk.kwin = true ∧ s.ctlRuns 0 (0 / 2) = true ∧ ({ s with clk := { kwin := false } } : State).clk.kwin = false ∧ ((s.arr 0).slots.get 2 {}).st ≠ .loading) := by
  decide +kernel

theorem witness_KneadControl_bindings :
    (let x : Array8 := { binds := ⟨[(0, { bnd false 4 with st := .pending })]⟩ }
     ((sArr x).arr 0).binds.get 0 {} = { bnd false 4 with st := .pending } ∧ (sArr x).ctlRuns 0 (0 / 2) = true ∧ (bnd false 4).tkUnbind = [] ∧ (∀ e ∈ x.binds.l, e.1 ≠ 0 → e.2.st = .free)) ∧
    (let b : Binding := { bnd true 1 with st := .draining, tkUnbind := [3] }
     let x : Array8 := { binds := ⟨[(0, b)]⟩ }
     ((sArr x).arr 0).binds.get 0 {} = b ∧ b.opened = [] ∧ (∀ r ∈ x.queue, r.ent ≠ 0) ∧ (∀ r ∈ x.runs, r.rcd.ent ≠ 0) ∧ b.deliv = [] ∧ (∀ z, z < 4 → b.outClk ≤ ((sArr x).die z).app.getD (0 / 2) 0)) ∧
    (∃ r ∈ [run0 3 true], r.rcd.ent = 0) ∧ ({ bOpen 1 with st := .draining, discard := true } : Binding).opened ≠ [] := by decide +kernel

/-- A queued read request whose store bytes are still to be read, from memory that is there or lost; a partition's binding. -/
theorem witness_RecordsRun_reads :
    (let x : Array8 := { binds := ⟨[(0, bnd false 4)]⟩, queue := [kr0] }
     ((sArr x).arr 0).queue.find? (fun q => q.ent == 0 && q.inp.isNone) = some kr0 ∧
     (sArr x).memRead (0 / 2) ((bnd false 4).store + kr0.r * (bnd false 4).rin) (bnd false 4).rin = .bytes (List.replicate 64 0) ∧
     (sLost 0x4000000 (sArr x)).memRead (0 / 2) ((bnd false 4).store + kr0.r * (bnd false 4).rin) (bnd false 4).rin = .lost) ∧
    (let x : Array8 := { binds := ⟨[(0, bnd false 4)]⟩, queue := [{ kr0 with inp := some [1] }] }
     ((sArr x).arr 0).queue.find? (fun q => q.ent == 0 && q.inp.isNone) = none ∧ ((sArr x).arr 0).startable.find? (fun q => q.ent == 0) = some { kr0 with inp := some [1] }) ∧
    (∃ b ∈ ((sArr { binds := ⟨[(0, { bnd false 1 with part := 3 })]⟩ }).arr 0).binds.l, b.2.st ≠ .free ∧ b.2.part = 3) ∧ (sArr {}).losers (.part 3) = [3] ∧
    ({ bnd false 1 with st := .draining } : Binding).st ≠ .active ∧ ({ binds := ⟨[(0, bnd false 4)]⟩ } : Array8).startable.find? (fun q => q.ent == 0) = none := by
  refine ⟨by decide +kernel, by decide +kernel, ⟨_, List.mem_singleton.mpr rfl, by decide +kernel⟩, by decide +kernel⟩

/-- Views that are no longer ACTIVE, or are write views; a record queue that is full; a line that no access waits for. -/
theorem witness_ViewsAreServed_rest :
    ((sArr { binds := ⟨[(0, { bnd false 1 with st := .draining })]⟩ }).bindingAt rq.pa).map (fun x => x.2.2.st) = some .draining ∧
    ((sArr { binds := ⟨[(0, bnd true 1)]⟩ }).bindingAt rq.pa).map (fun x => (x.2.2.st, x.2.2.wr)) = some (.active, true) ∧
    16 ≤ ({ queue := List.replicate 16 { kr0 with r := 1 } } : Array8).queue.length ∧ (bnd false 1).deliv.find? (fun q => q.r == 0) = none ∧ (bOpen 0).covers 0x1000 = false ∧
    ({ bOpen 0 with st := .draining } : Binding).st ≠ .active ∧ ({ queue := [kr0] } : Array8).queue.length < 16 ∧
    ({ kr0 with acc := [{ rq with reply := .copy 0 1 5 }] } : KRec).acc ≠ [] ∧ (List.replicate 64 (0 : BitVec 8)).length / 64 = 1 := by decide +kernel

theorem witness_SlotsAndBindings_rest :
    (let b : Binding := { bnd true 1 with st := .draining, outClk := 3 }
     b.opened = [] ∧ ¬ (∀ z, z < 4 → b.outClk ≤ ((sArr {}).die z).app.getD (0 / 2) 0)) ∧ (bnd true 1).st ≠ .pending ∧ (bnd true 1).st ≠ .draining ∧
    ({ bnd false 4 with st := .pending, tkUnbind := [3] } : Binding).tkUnbind ≠ [] := by decide +kernel

/-! ## Hypotheses that can be met: ports, layout commit, islands -/

def sPort (retry lanes : Nat) : State := { State.reset with dies := ⟨[(0, { retry := [retry, 0, 0], lanes := [lanes, 15, 15] })]⟩ }
theorem witness_LinksDegrade :
    ((sPort 256 15).die 0).retry.getD 0 0 ≤ 256 ∧ 256 < ((sPort 257 15).die 0).retry.getD 0 0 ∧ 2 ≤ ((List.range 4).filter (fun i => (15 : Nat).testBit i)).length ∧
    ((List.range 4).filter (fun i => (8 : Nat).testBit i)).length ≤ 1 ∧ 0 ∈ (sPort 257 8).portParts 0 ((otherDies 0).getD 0 0) := by decide +kernel

/-- A flit with four bytes of stream and its own check. -/
def wFlit (seq kind : Nat) : Flit := let f : Flit := { seq := seq, kind := kind, ack := 4095, cred := 0, stream := [1, 2, 0, 0], fcrc := 0 }; { f with fcrc := crc32 (flitBytes f) }
theorem witness_LinksDegrade_flits_accepted :
    (State.reset.tport 0).lanes ≠ 0 ∧
    crc32 (flitBytes (wFlit 0 1)) = (wFlit 0 1).fcrc ∧ (wFlit 0 1).kind = 1 ∧ (wFlit 0 1).seq = ((State.reset.tport 0).ackTo (wFlit 0 1).ack).rxSeq := by decide +kernel
theorem witness_LinksDegrade_flits_refused :
    (State.tport { State.reset with tports := ⟨[(0, { lanes := 0 })]⟩ } 0).lanes = 0 ∧
    ¬ (crc32 (flitBytes { wFlit 0 1 with ack := 7 }) = (wFlit 0 1).fcrc) ∧ (wFlit 5 1).seq ≠ (State.reset.tport 0).rxSeq := by decide +kernel
theorem witness_LinksDegrade_flits_other :
    (wFlit 0 0).kind = 0 ∧ crc32 (flitBytes (wFlit 0 0)) = (wFlit 0 0).fcrc ∧ (wFlit 0 2).kind = 2 ∧ ((State.reset.tport 0).ackTo 4095).tx = [] := by decide +kernel

/-- A layout in which dies 2 and 3 go to partition 1, with a weight-store window for it; a commit of it that waits for its boundary. -/
def lay15 : LayoutRec := { LayoutRec.reset with quad := List.replicate 8 0 ++ List.replicate 8 1, ws := (List.replicate 64 (0, 0)).set 7 (0, 4) }
def sFlip (cyc : Nat) : State :=
  { State.reset with layout := { st := .quiescing, shadow := some lay15 }, clk := { cyc := cyc }, dies := ⟨[(2, { hold := List.range 128 }), (3, { hold := List.range 128 })]⟩ }
theorem witness_LayoutAndIslands :
    (sFlip 8192).flipDue = true ∧ (sFlip 8191).flipDue = false ∧ (sFlip 0).layout.shadow = some lay15 ∧ State.reset.layout.st ≠ .quiescing ∧ State.reset.layout.st ≠ .shadowed ∧
    (let s : State := { State.reset with layout := { st := .shadowed, shadow := some lay15 } }
     s.layout.st = .shadowed ∧ (s.layout.gen + 1) % 65536 = 1) ∧ lay15.ws.getD 7 (0, 0) ≠ (sFlip 0).layout.now.ws.getD 7 (0, 0) ∧ ((sFlip 0).die 3).ws.wf = true := by decide +kernel

theorem witness_LayoutAndIslands_islands :
    State.reset.clk.cyc % 8192 = 0 ∧ (State.reset.island 15).apend = false ∧ (sFlip 1).clk.cyc % 8192 ≠ 0 ∧
    (let s : State := { State.reset with islands := ⟨[(0, { apend := true, aperiod := 2, alevel := 3 })]⟩, clk := { cyc := 16384 } }
     (s.island 0).apend = true ∧ (s.island 0).aperiod ≤ s.clk.cyc / 8192 ∧ ({ s with clk := { cyc := 16383 } } : State).clk.cyc / 8192 < (s.island 0).aperiod) := by decide +kernel

theorem witness_LayoutAndIslands_shapes :
    layoutOk lay15 = true ∧ layoutOk { LayoutRec.reset with quad := List.replicate 15 0 ++ [1] } = false ∧ (sFlip 8192).quiescedFor lay15 = true ∧
    ({ State.reset with layout := { st := .quiescing, shadow := some lay15 } } : State).quiescedFor lay15 = false ∧ lay15.res.getD 0 (0, 0) = (sFlip 0).layout.now.res.getD 0 (0, 0) ∧
    crc32 (flitBytes (wFlit 0 3)) = (wFlit 0 3).fcrc ∧ (3 : Nat) ≤ (wFlit 0 3).kind ∧ (256 : Nat) < (State.tport { State.reset with tports := ⟨[(0, { retry := 257 })]⟩ } 0).retry := by decide +kernel

/-! ## Hypotheses that can be met: the host's side, and the whole machine -/

/-- Work queue 0, enabled with a ring of two at HBM 0x201000 or in host memory, and how many packets it holds. -/
def sQue (en : Bool) (n : Nat) (ring : W64) : State := { State.reset with wqs := ⟨[(0, { w0 := if en then 0x100000001 else 0x100000000, ring := ring, wpos := n })]⟩ }
theorem witness_WorkQueues :
    State.reset.booted = true ∧ zeros.length ≠ 64 ∧ (List.replicate 64 (7 : BitVec 8)).length = 64 ∧ ((sQue true 1 0x200800).wq 0).en = true ∧ (sQue true 1 0x200800).qmask ((sQue true 1 0x200800).layout.now.wqOwner.getD 0 0) ≠ 0 ∧
    ¬ (bitsAt ((sQue true 1 0x200800).fn 0).fctl.toNat 0 2 = 2 ∨ 2 ^ ((sQue true 1 0x200800).wq 0).logr ≤ (((sQue true 1 0x200800).wq 0).wpos + 2 ^ 32 - ((sQue true 1 0x200800).wq 0).rpos) % 2 ^ 32) ∧
    2 ^ ((sQue true 2 0x200800).wq 0).logr ≤ (((sQue true 2 0x200800).wq 0).wpos + 2 ^ 32 - ((sQue true 2 0x200800).wq 0).rpos) % 2 ^ 32 ∧ ((sQue false 0 0).wq 0).en = false ∧
    isSys (((sQue true 1 0x200800).wq 0).slot 1) = false ∧ (∀ i, i < 128 → (sQue true 1 0x200800).ownerDie ((((sQue true 1 0x200800).wq 0).slot 1 + i) / 64 * 64) ≠ 0) ∧
    isSys (((sQue true 1 (BitVec.ofNat 64 sysBase)).wq 0).slot 1) = true := by decide +kernel

theorem witness_WorkQueues_config :
    (sQue false 0 0).layout.now.wqOwner.getD 0 0 = 0 ∧ (sQue false 0 0).layout.now.wqOwner.getD 64 0 ≠ 0 ∧ (0x100000001 : W64).getLsbD 0 = true ∧ bitsAt (0x100000001 : W64).toNat 32 4 = 1 ∧
    (sQue false 0 0).partOnDie 0 (bitsAt (0x100000001 : W64).toNat 1 2) = true ∧ ¬ (1 ≤ bitsAt (1 : W64).toNat 32 4) ∧ (0x100000000 : W64).getLsbD 0 = false := by decide +kernel

/-- Host memory with a deadline record and an attestation record at its start, and an interrupt remapping table of one entry, by its content. -/
def sHost (b : Bytes) (f : Fn) : State := { State.reset with hostMem := Memory.writeN [] 0 b, fns := ⟨[(0, f)]⟩ }
def va0 : W64 := BitVec.ofNat 64 sysBase
theorem witness_FunctionCommands :
    (let s := sHost postOk {}
     recPostBad (s.devRead (bitsAt va0.toNat 6 46 * 64) 64) = false ∧ (∀ c ∈ recCores (s.devRead (bitsAt va0.toNat 6 46 * 64) 64), s.partOf c = 0) ∧
     fieldAt (s.devRead (bitsAt va0.toNat 6 46 * 64) 64) 0x18 1 = 0 ∧ (∃ c ∈ recCores (s.devRead (bitsAt va0.toNat 6 46 * 64) 64), s.partOf c ≠ 1)) ∧
    recPostBad ((sHost (List.replicate 24 0 ++ [4]) {}).devRead (bitsAt va0.toNat 6 46 * 64) 64) = true ∧ ((sHost [] {}).fn 0).attBusy = none ∧ ((sHost [] { attBusy := some (sysBase, []) }).fn 0).attBusy = some (sysBase, []) ∧
    (let r := (sHost (List.replicate 32 1) {}).devRead (bitsAt va0.toNat 6 46 * 64) 64
     fieldAt r 0x20 8 % 64 = 0 ∧ ∀ b ∈ r.drop 0x28, b = 0) ∧ fieldAt ((sHost (List.replicate 32 1 ++ [1]) {}).devRead (bitsAt va0.toNat 6 46 * 64) 64) 0x20 8 % 64 ≠ 0 ∧
    (sHost [] {}).hostMem.wf = true ∧ isSys sysBase = true := by decide +kernel

def fIrt (mask : Bool) (state : Nat) : Fn := { irt := va0, msix := ⟨[(1, if mask then 0x100000000 else 0)]⟩, fctl := BitVec.ofNat 64 state, pendReg := va0 }
theorem witness_InterruptsAndRegisters :
    (sHost (leBytes 8 1) (fIrt true 0)).irtEntry 0 0 = some 0 ∧ (sHost (leBytes 8 0) (fIrt true 0)).irtEntry 0 0 = none ∧ ((sHost (leBytes 8 1) (fIrt true 0)).fn 0).rgen = 0 ∧
    bitsAt (fIrt true 0).fctl.toNat 0 2 = 0 ∧ bitsAt (fIrt true 1).fctl.toNat 0 2 ≠ 0 ∧ ((fIrt true 0).msixWord 1).toNat.testBit 32 = true ∧ ((fIrt false 0).msixWord 1).toNat.testBit 32 = false ∧
    isSys ((sHost [] (fIrt true 1)).pendByte 0 0) = true ∧ (sHost [] (fIrt true 1)).hostMem.wf = true ∧
    (let s : State := { State.reset with parts := ⟨[(0, { resBase := 0, resTotal := 1 })]⟩ }
     s.inReserve 0 64 = true ∧ s.inReserve (2 ^ 20) 64 = false) ∧ 2 ^ 20 + 64 ≤ (State.reset.layout.now.hbm.getD 0 (0, 0)).2 ∧ (State.reset.layout.now.hbm.getD 0 (0, 0)).2 < 448 * 2 ^ 30 + 1 ∧
    State.reset.chanOpenFor 0 = false ∧ (cChan (some { open_ := true }) 0 {}).chanOpenFor 0 = true := by decide +kernel

/-- A read view without its lines where a function's structures are, so that what the device must read is still to come; the completion record of a queue there or in host memory. -/
def sView (f : Fn) : State :=
  { State.reset with fns := ⟨[(0, f)]⟩, arrays := ⟨[(0, { binds := ⟨[(0, { st := .active, view := 0x200000, store := 0x400000, nrec := 128, rin := 64, rout := 64, slot := 1 })]⟩ })]⟩ }
theorem witness_HostReads :
    (sView {}).ReadsNow 0x200000 64 = false ∧ State.reset.ReadsNow 0x200000 64 = true ∧ (sHost postOk {}).ReadsNow sysBase 64 = true ∧
    (let s := sView { irt := 0x200000 }
     s.ReadsNow (s.irtAddr 0 0) 8 = false) ∧
    (let s := sView { pendReg := 0x200000 }
     s.ReadsNow (s.pendByte 0 0) 256 = false) ∧
    isSys (bitsAt ((sQue true 1 0).wq 0).crec.toNat 6 46 * 64) = false ∧ State.reset.ownerDie 0 = 0 ∧ State.reset.ownerDie 0x200800 ≠ 0 ∧
    (let s := sHost [] { fctl := 3 }
     bitsAt (s.fn 0).fctl.toNat 0 2 = 3 ∧ bitsAt (3 : W64).toNat 0 2 = 3 ∧ bitsAt (0 : W64).toNat 0 2 = 0) := by decide +kernel

/-- A pending vector 0 whose remapping entry, at host address 0x1000, names MSI-X entry 0. -/
def sPending (mask : Bool) : State :=
  { State.reset with hostMem := (Memory.writeN [] 0 [1]).writeN 0x1000 (leBytes 8 1),
                     fns := ⟨[(0, { irt := BitVec.ofNat 64 (sysBase + 0x1000), pendReg := BitVec.ofNat 64 sysBase, fctl := 1, msix := ⟨[(1, if mask then 0x100000000 else 0)]⟩ })]⟩ }
theorem witness_FunctionCommands_pending :
    (sPending false).pendingVecs 0 = [0] ∧ (sPending false).ReadsNow ((sPending false).pendByte 0 0) 256 = true ∧ (sPending false).ReadsNow ((sPending false).irtAddr 0 0) 8 = true ∧
    (let w := (sPending false).devWrite ((sPending false).pendByte 0 0) (leBytes 1 (leNat ((sPending false).devRead ((sPending false).pendByte 0 0) 1) ^^^ 2 ^ (0 % 8)))
     w.irtEntry 0 0 = some 0 ∧ isSys (w.irtAddr 0 0) = true) ∧ isSys ((sPending false).pendByte 0 0) = true ∧ (sPending false).hostMem.wf = true ∧
    (((sPending false).fn 0).msixWord 1).toNat.testBit 32 = false ∧ (((sPending true).fn 0).msixWord 1).toNat.testBit 32 = true := by decide +kernel

theorem witness_InterruptsAndRegisters_reads :
    (cChan (some { open_ := true }) 0 {}).chanOpenFor 0 = true ∧ ((cChan (some { open_ := true }) 0 {}).part 0).resTotal < 65536 ∧ (2 : W64).getLsbD 0 = false ∧ (1 : W64).getLsbD 0 = true ∧
    ((sQue true 1 0).wq 0).wpos < 2 ^ 32 ∧ ((sQue true 1 0).wq 0).rpos < 2 ^ 32 ∧ (0x10004 : Nat) % 4 = 0 := by decide +kernel

/-! The whole machine -/

theorem witness_DecodeEncode :
    Instr.wf false (.add oSR) = true ∧ (encode (.add oSR)).isSome = true ∧ (cellInstr loc0 2 cw0) = some (.knAdd loc0 cw0) ∧ Instr.wf false (.knAdd loc0 cw0) = true ∧ (encodeCell (.knAdd loc0 cw0)).isSome = true ∧
    ((0x04B17230 : W32).extractLsb' 26 6 = 0x01#6 ∧ (0x04B17230 : W32).extractLsb' 1 5 = 24#5) ∧ (0x10000 : W64).extractLsb' 16 13 ≠ 0#13 ∧ 0x19 < ((0x6800000000000000 : W64).extractLsb' 58 6).toNat := by decide +kernel

/-- Core 0 before a single-op bundle, as `withFetchWord` leaves it, with registers; and with an op at the head of its slot. -/
def sRun : State := State.reset.withFetchWord 32 0x04B172BE
theorem witness_StepRunsDecodedInstruction_fetch :
    sRun.clk.fires = [] ∧ sRun.clk.urgent = [] ∧ sRun.clk.tape = [.run 0] ∧ sRun.mayIssue 0 = true ∧ (sRun.core 0).async = [] ∧ (sRun.core 0).pend = [] ∧ (sRun.core 0).loop.act = false ∧ (sRun.core 0).quiet = true ∧
    (match sRun.fetch 0 (sRun.core 0).pc with | .word h => h == 0xC0000000 && hdrKind h == 6 && !singleHdrBad h | _ => false) = true ∧
    (match sRun.fetch 0 ((sRun.core 0).pc + 4) with | .word w => w == 0x04B172BE | _ => false) = true ∧
    (match decodeOp false 0 0x04B172BE none with | .ok i => i.wf false | .error _ => false) = true := by decide +kernel

theorem witness_StepRunsDecodedInstruction_slots : ∀ sl, sRun.startable 0 sl = false := by
  intro sl; have h : (sRun.core 0).slots = ⟨[]⟩ := by decide +kernel
  simp only [State.startable, h, Tab.get, Tab.find, Tab.findL, Option.getD_none]

def bRun : Bundle :=
  { pc := 0x1000, next := 0x1008, single := true, scope := 0, pops := [], words := [(0, .ok (.add { d := 11#6, ba := false, a := 11#6, bb := true, b := 10#6, g := 31#5, w := false }))] }
theorem witness_StepRunsDecodedInstruction_checks :
    (let k0 : Core := { sRun.core 0 with serial := false, rot := (sRun.core 0).rot + 1 }
     let s0 : State := { sRun with clk := { sRun.clk with tape := [] } }.setCore 0 k0
     s0.bundleWaits 0 bRun (bRun.ops k0) = false ∧ k0.bundleFault false bRun (bRun.ops k0) = none ∧ k0.canReserve (resvList (bRun.ops k0)) = true ∧
       ((bRun.ops k0).findSome? (k0.nowCheck bRun)).isNone = true ∧ ∀ o ∈ bRun.ops k0, o.en = true) := by decide +kernel

theorem witness_StepRunsDecodedInstruction :
    (let s : State := { at0 { tk56 with slots := ⟨[(0, [{ op := .add oSR }])]⟩ } {} with clk := { tape := [.start 0 0] }, islands := ⟨[(0, {})]⟩ }
     s.startable 0 0 = true ∧ (s.core 0).slots.get 0 [] = [{ op := .add oSR }]) ∧
    isInstr .powerLoss .powerLoss ∧
    (let s : State := { State.reset with clk := { tape := [.fire 0], pending := [.powerLoss] } }
     s.clk.pending[0]? = some .powerLoss) ∧
    (let s : State := { sCell with clk := { fires := [loc0] } }
     s.clk.fires = [loc0] ∧ (s.cell loc0).inp.isSome = true ∧ decodeCell loc0 (s.cell loc0).dword = some (.knNop loc0 (decCellFields 0)) ∧ decodeCell loc0 0x10000 = none) := by
  refine ⟨by decide +kernel, rfl, by decide +kernel, by decide +kernel⟩

theorem witness_EveryStepKeepsMemory : State.reset.memOk ∧ ∃ t, step State.reset = .next t := by
  refine ⟨⟨rfl, ?_, ?_, ?_⟩, _, rfl⟩ <;> intro x h <;> cases h
/-! ## Words written out from the encodings of the spec

One word for every op, its fields put where the format's bits are; every op of a format has the same operands. -/


def xSR : SR := { d := 11#6, ba := false, a := 22#6, bb := true, b := 37#6, g := 13#5, w := true }

def xSR1 : SR1 := { d := 11#6, ba := true, a := 22#6, g := 13#5, w := false }

def xSI : SI := { d := 11#6, ba := true, a := 22#6, imm := 45#13 }

def xSM : SM := { d := 11#6, ba := false, a := 22#6, size := 5#3, off := 0x2AB#10 }

def xSF : SF := { d := 11#6, ba := true, a := 22#6, off := 0x155#10 }

def xSB : SB := { g := 13#5, n := true, disp := 0xABCDE#20 }

def xVT : VT := { q := 6#3, a := { b := true, q := 3#3, k := 9#5 }, b := { b := false, q := 5#3, k := 2#5 }, g := 13#5 }

def xVU : VU := { q := 6#3, a := { b := true, q := 3#3, k := 9#5 }, g := 13#5 }

def xVC : VC := { q := 6#3, a := { b := true, q := 3#3, k := 9#5 }, usrc := true, udst := false, g := 13#5 }

def xVN : VN := { q := 6#3, s := 41#6, bs := true, g := 13#5 }

def xVS : VS := { q := 6#3, a := { b := true, q := 3#3, k := 9#5 }, s := 41#6, bs := true, g := 13#5 }

def xVW : VW := { a := { b := true, q := 3#3, k := 9#5 }, s := 41#6, bs := false, g := 13#5 }

def xCQ : CQ := { l := 5#3, q := 3#3, s := 41#6, c := 26#6, acq := true, rel := false, np := false, sg := 9#4 }

def xCN : CN := { l := 5#3, s := 41#6, c := 0#6, acq := false, rel := true, np := true, sg := 9#4 }

/-- R80, R82, R86. -/
theorem test_decode_s_formats_1 : ∀ p ∈ ([
    (0x04B2D95B#32, .add xSR), (0x08B2D95B#32, .sub xSR), (0x0CB2D95B#32, .and xSR), (0x10B2D95B#32, .or xSR), (0x14B2D95B#32, .xor xSR), (0x18B2D95B#32, .shl xSR), (0x1CB2D95B#32, .shr xSR),
    (0x20B2D95B#32, .sar xSR), (0x24B2D95B#32, .mul xSR), (0x28B2D95B#32, .mulh xSR), (0x2CB2D95B#32, .mulhz xSR), (0x30B2D95B#32, .div xSR), (0x34B2D95B#32, .divz xSR), (0x38B2D95B#32, .rem xSR),
    (0x3CB2D95B#32, .remz xSR), (0x40B2D95B#32, .min xSR), (0x44B2D95B#32, .max xSR), (0x48B2D95B#32, .minz xSR), (0x4CB2D95B#32, .maxz xSR), (0x50B2D95B#32, .sel xSR), (0x54BAC01A#32, .bcnt xSR1),
    (0x58BAC01A#32, .clz xSR1), (0x5CBAC01A#32, .ctz xSR1), (0x60B2D95B#32, .cmpeq xSR), (0x64B2D95B#32, .cmpne xSR)] : List (W32 × Instr)),
    (decodeOp false 0 p.1 none).toOption = some p.2 := by decide +kernel

/-- R80, R82, R86. -/
theorem test_decode_s_formats_2 : ∀ p ∈ ([
    (0x68B2D95B#32, .cmplt xSR), (0x6CB2D95B#32, .cmple xSR), (0x70B2D95B#32, .cmpltz xSR), (0x74B2D95B#32, .cmplez xSR), (0x80BAC02D#32, .addi xSI), (0x84BAC02D#32, .andi xSI), (0x88BAC02D#32, .ori xSI),
    (0x8CBAC02D#32, .xori xSI), (0x90BAC02D#32, .shli xSI), (0x94BAC02D#32, .shri xSI), (0x98BAC02D#32, .sari xSI), (0x9CBAC02D#32, .muli xSI), (0xA4BAC02D#32, .movh xSI), (0xA8BAC02D#32, .cmpeqi xSI),
    (0xACBAC02D#32, .cmplti xSI), (0xC0B2D6AB#32, .ldg xSM), (0xC4B2D6AB#32, .stg xSM), (0xC8B2D6AB#32, .lds xSM), (0xCCB2D6AB#32, .sts xSM), (0xD0BAD955#32, .ldf xSF), (0xD4BAD955#32, .ste xSF),
    (0xD8BAD955#32, .ldff xSF), (0xE9BABCDE#32, .br xSB), (0xEDBABCDE#32, .call xSB)] : List (W32 × Instr)),
    (decodeOp false 0 p.1 none).toOption = some p.2 := by decide +kernel

/-- R86, R116, R198. -/
theorem test_decode_sys_1 : ∀ p ∈ ([
    (0xA0B01ABC#32, .movl 11#6 0x1ABC#13), (0xF00AC01A#32, .jr true 22#6 13#5), (0xF8B2C01A#32, .launch 11#6 false 22#6 13#5), (0x00000000#32, .nop), (0x00000100#32, .halt), (0x000002A5#32, .trap 0xA5#8),
    (0x00000301#32, .eret true), (0x00B00412#32, .sysr 11#6 0x12#8), (0x00058518#32, .sysw 22#6 0x18#8), (0x00000602#32, .fence true false), (0x00000700#32, .sync), (0x0000085A#32, .waitc true 26#6),
    (0x00B0089A#32, .waitcPoll 11#6 26#6), (0x0005895A#32, .ctrinit 22#6 true 26#6), (0x00058A1A#32, .ctrpost 22#6 26#6), (0x00058B05#32, .qcfg 22#6 5#3), (0x00000C05#32, .qreset 5#3),
    (0x00058D05#32, .qsplice 22#6 5#3), (0x00058E05#32, .qaccept 22#6 5#3), (0x00000F05#32, .qunsplice 5#3), (0x00B01005#32, .qocc 11#6 5#3), (0x00B01105#32, .qrd 11#6 5#3), (0x00059205#32, .qwr 22#6 5#3),
    (0x000593D3#32, .lset 22#6 6#3 19#5), (0x00B014D3#32, .lget 11#6 6#3 19#5)] : List (W32 × Instr)),
    (decodeOp false 0 p.1 none).toOption = some p.2 := by decide +kernel

/-- R86, R116, R198. -/
theorem test_decode_sys_2 : ∀ p ∈ ([
    (0x000595C0#32, .ldlay 22#6 6#3), (0x000596C0#32, .stlay 22#6 6#3), (0x0005971B#32, .rtset 22#6 27#5), (0x0000181B#32, .rtclr 27#5), (0x00B0191B#32, .rtwm 11#6 27#5),
    (0x00B59A07#32, .pand 11#6 22#6 7#5), (0x00B59B07#32, .por 11#6 22#6 7#5), (0x00B59C07#32, .pxor 11#6 22#6 7#5), (0x00B59D00#32, .pnot 11#6 22#6), (0x00B59E00#32, .pmovs 11#6 22#6),
    (0x00B59F00#32, .pmovp 11#6 22#6), (0x00B5A000#32, .pseta 11#6 22#6), (0x00B5A306#32, .chstat 11#6 22#6 6#3)] : List (W32 × Instr)),
    (decodeOp false 0 p.1 none).toOption = some p.2 := by decide +kernel

/-- R86. -/
theorem test_decode_sys_control : ∀ p ∈ ([
    (0x00B5A100#32, .chopen 11#6 22#6), (0x00B5A201#32, .chclose 11#6 22#6 true), (0x00B5A400#32, .fencerec 11#6 22#6), (0x00B5A500#32, .peelpost 11#6 22#6), (0x00B5A602#32, .wqtake 11#6 22#6 true false),
    (0x00B5A701#32, .knbind 11#6 22#6 true), (0x00B5A805#32, .knload 11#6 22#6 2#2 true), (0x00B5A901#32, .kndict 11#6 22#6 true), (0x00B5AA02#32, .knunbind 11#6 22#6 true false)] : List (W32 × Instr)),
    (decodeOp true 0 p.1 none).toOption = some p.2 := by decide +kernel

/-- R80, R86. -/
theorem test_decode_v_formats_1 : ∀ p ∈ ([
    (0x075A544D#32, .vadd xVT), (0x0B5A544D#32, .vsub xVT), (0x0F5A544D#32, .vmul xVT), (0x135A544D#32, .vmin xVT), (0x175A544D#32, .vmax xVT), (0x235A400D#32, .vabs xVU), (0x275A400D#32, .vneg xVU),
    (0x2B5A400D#32, .vrcp xVU), (0x2F5A400D#32, .vrsq xVU), (0x335A400D#32, .vexp2 xVU), (0x375A400D#32, .vlog2 xVU), (0x3B5A400D#32, .vsig xVU), (0x3F5A400D#32, .vtanh xVU), (0x435A544D#32, .viadd xVT),
    (0x475A544D#32, .visub xVT), (0x4B5A544D#32, .vimul xVT), (0x4F5A544D#32, .vimin xVT), (0x535A544D#32, .vimax xVT), (0x575A544D#32, .vand xVT), (0x5B5A544D#32, .vor xVT), (0x5F5A544D#32, .vxor xVT),
    (0x635A544D#32, .vshl xVT), (0x675A544D#32, .vshr xVT), (0x6B5A544D#32, .vsar xVT), (0x6F5A544D#32, .viadds xVT)] : List (W32 × Instr)),
    (decodeOp false 1 p.1 none).toOption = some p.2 := by decide +kernel

/-- R80, R86. -/
theorem test_decode_v_formats_2 : ∀ p ∈ ([
    (0x7F5A544D#32, .vsel xVT), (0x835A404D#32, .vmov xVC), (0x875A404D#32, .vcvtz xVC), (0x8B5A404D#32, .vpack xVC), (0xC35A404D#32, .vunpk xVC), (0x8F00298D#32, .vbcast xVN), (0x9300298D#32, .viota xVN),
    (0x975A544D#32, .vshuf xVT), (0x9B5A698D#32, .vrot xVS), (0x9F5A400D#32, .vrsum xVU), (0xA35A400D#32, .vrmax xVU), (0xA75A400D#32, .vrmin xVU), (0xAB00298D#32, .vlds xVN), (0xAC5A690D#32, .vsts xVW),
    (0xB35A698D#32, .vgath xVS), (0xB75A698D#32, .vscat xVS), (0xBB00298D#32, .vracc xVN), (0xBC5A690D#32, .vwacc xVW)] : List (W32 × Instr)),
    (decodeOp false 1 p.1 none).toOption = some p.2 := by decide +kernel

/-- R86, R149. -/
theorem test_decode_v_compares : ∀ p ∈ ([
    (0x72769510#32, .vcmpeq 19#5 { b := true, q := 3#3, k := 9#5 } { b := false, q := 5#3, k := 2#5 }), (0x76769510#32, .vcmplt 19#5 { b := true, q := 3#3, k := 9#5 } { b := false, q := 5#3, k := 2#5 }),
    (0x7A769510#32, .vcmple 19#5 { b := true, q := 3#3, k := 9#5 } { b := false, q := 5#3, k := 2#5 })] : List (W32 × Instr)),
    (decodeOp false 1 p.1 none).toOption = some p.2 := by decide +kernel

/-- R86, R169. -/
theorem test_decode_m : ∀ p ∈ ([
    (0x06D20089#32, .mldb { b := true, q := 3#3, k := 9#5 } 2#2 9#4), (0x0B480A89#32, .mldbw true 41#6 10#4 2#2 9#4), (0x0ED32C89#32, .mmul { b := true, q := 3#3, k := 9#5 } 300#9 2#2 9#4),
    (0x12D32C89#32, .mmac { b := true, q := 3#3, k := 9#5 } 300#9 2#2 9#4), (0x14012C09#32, .mzero 300#9 9#4), (0x19EF2C09#32, .msetx 0xF7#8 300#9 9#4), (0x1DEF2C09#32, .mscl 0xF7#8 300#9 9#4),
    (0x21812C09#32, .mrdout 6#3 300#9 9#4), (0x26D38009#32, .mcvt { b := true, q := 3#3, k := 9#5 } 6#3 9#4), (0x2AD3A009#32, .mreq { b := true, q := 3#3, k := 9#5 } 6#3 true 9#4),
    (0x2ED38009#32, .mtrn { b := true, q := 3#3, k := 9#5 } 6#3 9#4), (0x309B2C09#32, .macccp 77#9 300#9 9#4)] : List (W32 × Instr)),
    (decodeOp false 2 p.1 none).toOption = some p.2 := by decide +kernel

/-- R86, R307. -/
theorem test_decode_c : ∀ p ∈ ([
    (0x06BA5A89#32, .cldq xCQ), (0x0ABA5A89#32, .cstq xCQ), (0x0E8A4059#32, .clds xCN), (0x128A4059#32, .csts xCN), (0x16BA5A89#32, .ccpy xCQ), (0x1ABA5A89#32, .cred xCQ), (0x1EBA5A89#32, .crwr xCQ),
    (0x2A8A4059#32, .cpref xCN), (0x2E8A4059#32, .cws xCN), (0x368A4059#32, .cbcast xCN), (0x3A8A4059#32, .czero xCN)] : List (W32 × Instr)),
    (decodeOp false 3 p.1 none).toOption = some p.2 := by decide +kernel

/-- R86, R288, R289, R480. -/
theorem test_decode_c_channel : ∀ p ∈ ([
    (0x22BA4049#32, .chwr 5#3 3#3 41#6 true 9#4), (0x26BA4089#32, .chrd 5#3 3#3 41#6 true 9#4), (0x32BA5A49#32, .cfred 5#3 3#3 41#6 26#6 true false 9#4)] : List (W32 × Instr)),
    (decodeOp false 3 p.1 none).toOption = some p.2 := by decide +kernel

/-- R85, R118, R233, R236, R239: ops with an extension word. -/
theorem test_decode_extensions : ∀ p ∈ ([
    (0x80BAC000#32, 0x89ABCDEF#32, .addiLimm { d := 11#6, ba := true, a := 22#6, imm := 0x89ABCDEF#32 }),
    (0x84BAC000#32, 0x89ABCDEF#32, .andiLimm { d := 11#6, ba := true, a := 22#6, imm := 0x89ABCDEF#32 }),
    (0x88BAC000#32, 0x89ABCDEF#32, .oriLimm { d := 11#6, ba := true, a := 22#6, imm := 0x89ABCDEF#32 }),
    (0x8CBAC000#32, 0x89ABCDEF#32, .xoriLimm { d := 11#6, ba := true, a := 22#6, imm := 0x89ABCDEF#32 }),
    (0x9CBAC000#32, 0x89ABCDEF#32, .muliLimm { d := 11#6, ba := true, a := 22#6, imm := 0x89ABCDEF#32 }),
    (0xA4BAC000#32, 0x89ABCDEF#32, .movhLimm { d := 11#6, ba := true, a := 22#6, imm := 0x89ABCDEF#32 }),
    (0xA8BAC000#32, 0x89ABCDEF#32, .cmpeqiLimm { d := 11#6, ba := true, a := 22#6, imm := 0x89ABCDEF#32 }),
    (0xACBAC000#32, 0x89ABCDEF#32, .cmpltiLimm { d := 11#6, ba := true, a := 22#6, imm := 0x89ABCDEF#32 }),
    (0x90BAC000#32, 0x0000003F#32, .shliLimm { d := 11#6, ba := true, a := 22#6, imm := 63#32 }),
    (0x94BAC000#32, 0x0000003F#32, .shriLimm { d := 11#6, ba := true, a := 22#6, imm := 63#32 }),
    (0x98BAC000#32, 0x0000003F#32, .sariLimm { d := 11#6, ba := true, a := 22#6, imm := 63#32 }),
    (0xA0B00000#32, 0x89ABCDEF#32, .movlLimm 11#6 0x89ABCDEF#32),
    (0xC0B2D400#32, 0x89ABCDEF#32, .ldgOff32 { d := 11#6, ba := false, a := 22#6, size := 5#3, off := 0x89ABCDEF#32 }),
    (0xC4B2D400#32, 0x89ABCDEF#32, .stgOff32 { d := 11#6, ba := false, a := 22#6, size := 5#3, off := 0x89ABCDEF#32 }),
    (0xC8B2D400#32, 0x89ABCDEF#32, .ldsOff32 { d := 11#6, ba := false, a := 22#6, size := 5#3, off := 0x89ABCDEF#32 }),
    (0xCCB2D400#32, 0x89ABCDEF#32, .stsOff32 { d := 11#6, ba := false, a := 22#6, size := 5#3, off := 0x89ABCDEF#32 }),
    (0xD0BAD800#32, 0x89ABCDEF#32, .ldfOff32 { d := 11#6, ba := true, a := 22#6, off := 0x89ABCDEF#32 }),
    (0xD4BAD800#32, 0x89ABCDEF#32, .steOff32 { d := 11#6, ba := true, a := 22#6, off := 0x89ABCDEF#32 }),
    (0xD8BAD800#32, 0x89ABCDEF#32, .ldffOff32 { d := 11#6, ba := true, a := 22#6, off := 0x89ABCDEF#32 }),
    (0xDCBADAAB#32, 0x1D5D3680#32, .atom { d := 11#6, ba := true, a := 22#6, size := 6#3, off := 0x2AB#10, aop := 1#4, rem := true, die := 2#2, core := 21#5, bv := true, v := 41#6, bc := true, c := 26#6 }),
    (0xE0709800#32, 0x20012000#32, .atomg { d := 7#6, ba := false, a := 4#6, size := 6#3, off := 0#10, aop := 2#4, rem := false, die := 0#2, core := 0#5, bv := false, v := 9#6, bc := false, c := 0#6 }),
    (0xE40AD2AB#32, 0xA00D2000#32, .radd { d := 0#6, ba := true, a := 22#6, size := 4#3, off := 0x2AB#10, aop := 10#4, rem := false, die := 0#2, core := 0#5, bv := true, v := 41#6, bc := false, c := 0#6 }),
    (0xF40AC12C#32, 0xC8A00000#32, .loop { ba := true, a := 22#6, imm := 300#13, ii := 200#8, sm1 := 5#3 })] : List (W32 × W32 × Instr)),
    (decodeOp false 0 p.1 (some p.2.1)).toOption = some p.2.2 := by decide +kernel

/-- R85, R143: the third queue source of VFMA and VFMS. -/
theorem test_decode_qsrc :
    (decodeOp false 1 0x1B5A544D (some 0x000001FE)).toOption = some (.vfma xVT { b := true, q := 7#3, k := 30#5 }) ∧
    (decodeOp false 1 0x1F5A544D (some 0x00000023)).toOption = some (.vfms xVT { b := false, q := 1#3, k := 3#5 }) := by decide +kernel

def decLoc : CellLoc := { arr := 2, col := 3, row := 4 }

/-- R341, R343: cell words. -/
theorem test_decode_cells_1 : ∀ p ∈ ([
    (0x0000000000000000#64, .knNop decLoc { oe := false, re := false, regd := 0#3, sa := 0#4, sb := 0#4, sc := 0#4, tag := 0#4, tkeep := false, w := 0#2, mode := 0#4, immh := false, imm := 0#16 }),
    (0x07AE01202000BEEF#64, .knPass decLoc { oe := true, re := true, regd := 5#3, sa := 7#4, sb := 0#4, sc := 0#4, tag := 9#4, tkeep := false, w := 0#2, mode := 0#4, immh := true, imm := 48879#16 }),
    (0x0BAF01242000BEEF#64, .knAdd decLoc { oe := true, re := true, regd := 5#3, sa := 7#4, sb := 8#4, sc := 0#4, tag := 9#4, tkeep := false, w := 1#2, mode := 0#4, immh := true, imm := 48879#16 }),
    (0x0FAF01242000BEEF#64, .knSub decLoc { oe := true, re := true, regd := 5#3, sa := 7#4, sb := 8#4, sc := 0#4, tag := 9#4, tkeep := false, w := 1#2, mode := 0#4, immh := true, imm := 48879#16 }),
    (0x13AF01242000BEEF#64, .knMul decLoc { oe := true, re := true, regd := 5#3, sa := 7#4, sb := 8#4, sc := 0#4, tag := 9#4, tkeep := false, w := 1#2, mode := 0#4, immh := true, imm := 48879#16 }),
    (0x17AF01242000BEEF#64, .knAdds decLoc { oe := true, re := true, regd := 5#3, sa := 7#4, sb := 8#4, sc := 0#4, tag := 9#4, tkeep := false, w := 1#2, mode := 0#4, immh := true, imm := 48879#16 }),
    (0x1BAF01202000BEEF#64, .knAnd decLoc { oe := true, re := true, regd := 5#3, sa := 7#4, sb := 8#4, sc := 0#4, tag := 9#4, tkeep := false, w := 0#2, mode := 0#4, immh := true, imm := 48879#16 }),
    (0x1FAF01202000BEEF#64, .knOr decLoc { oe := true, re := true, regd := 5#3, sa := 7#4, sb := 8#4, sc := 0#4, tag := 9#4, tkeep := false, w := 0#2, mode := 0#4, immh := true, imm := 48879#16 }),
    (0x23AF01202000BEEF#64, .knXor decLoc { oe := true, re := true, regd := 5#3, sa := 7#4, sb := 8#4, sc := 0#4, tag := 9#4, tkeep := false, w := 0#2, mode := 0#4, immh := true, imm := 48879#16 }),
    (0x27AF01242000BEEF#64, .knShl decLoc { oe := true, re := true, regd := 5#3, sa := 7#4, sb := 8#4, sc := 0#4, tag := 9#4, tkeep := false, w := 1#2, mode := 0#4, immh := true, imm := 48879#16 }),
    (0x2BAF01242000BEEF#64, .knShr decLoc { oe := true, re := true, regd := 5#3, sa := 7#4, sb := 8#4, sc := 0#4, tag := 9#4, tkeep := false, w := 1#2, mode := 0#4, immh := true, imm := 48879#16 }),
    (0x2FAF01242000BEEF#64, .knSar decLoc { oe := true, re := true, regd := 5#3, sa := 7#4, sb := 8#4, sc := 0#4, tag := 9#4, tkeep := false, w := 1#2, mode := 0#4, immh := true, imm := 48879#16 }),
    (0x33AF01242000BEEF#64, .knMin decLoc { oe := true, re := true, regd := 5#3, sa := 7#4, sb := 8#4, sc := 0#4, tag := 9#4, tkeep := false, w := 1#2, mode := 0#4, immh := true, imm := 48879#16 })] : List (W64 × Instr)),
    decodeCell decLoc p.1 = some p.2 := by decide +kernel

/-- R341, R343: cell words. -/
theorem test_decode_cells_2 : ∀ p ∈ ([
    (0x37AF01242000BEEF#64, .knMax decLoc { oe := true, re := true, regd := 5#3, sa := 7#4, sb := 8#4, sc := 0#4, tag := 9#4, tkeep := false, w := 1#2, mode := 0#4, immh := true, imm := 48879#16 }),
    (0x3BAF15242000BEEF#64, .knSel decLoc { oe := true, re := true, regd := 5#3, sa := 7#4, sb := 8#4, sc := 10#4, tag := 9#4, tkeep := false, w := 1#2, mode := 0#4, immh := true, imm := 48879#16 }),
    (0x3FAF01242000BEEF#64, .knCmpeq decLoc { oe := true, re := true, regd := 5#3, sa := 7#4, sb := 8#4, sc := 0#4, tag := 9#4, tkeep := false, w := 1#2, mode := 0#4, immh := true, imm := 48879#16 }),
    (0x43AF01242000BEEF#64, .knCmplt decLoc { oe := true, re := true, regd := 5#3, sa := 7#4, sb := 8#4, sc := 0#4, tag := 9#4, tkeep := false, w := 1#2, mode := 0#4, immh := true, imm := 48879#16 }),
    (0x47AE01202000BEEF#64, .knLutl decLoc { oe := true, re := true, regd := 5#3, sa := 7#4, sb := 0#4, sc := 0#4, tag := 9#4, tkeep := false, w := 0#2, mode := 0#4, immh := true, imm := 48879#16 }),
    (0x4BAE01202000BEEF#64, .knLuth decLoc { oe := true, re := true, regd := 5#3, sa := 7#4, sb := 0#4, sc := 0#4, tag := 9#4, tkeep := false, w := 0#2, mode := 0#4, immh := true, imm := 48879#16 }),
    (0x4FAE01202000BEEF#64, .knLutn decLoc { oe := true, re := true, regd := 5#3, sa := 7#4, sb := 0#4, sc := 0#4, tag := 9#4, tkeep := false, w := 0#2, mode := 0#4, immh := true, imm := 48879#16 }),
    (0x53AF15202000BEEF#64, .knPerm decLoc { oe := true, re := true, regd := 5#3, sa := 7#4, sb := 8#4, sc := 10#4, tag := 9#4, tkeep := false, w := 0#2, mode := 0#4, immh := true, imm := 48879#16 }),
    (0x57AF01202000BEEF#64, .knFcvt decLoc { oe := true, re := true, regd := 5#3, sa := 7#4, sb := 8#4, sc := 0#4, tag := 9#4, tkeep := false, w := 0#2, mode := 0#4, immh := true, imm := 48879#16 }),
    (0x5BAF01282000BEEF#64, .knFadd decLoc { oe := true, re := true, regd := 5#3, sa := 7#4, sb := 8#4, sc := 0#4, tag := 9#4, tkeep := false, w := 2#2, mode := 0#4, immh := true, imm := 48879#16 }),
    (0x5FAF01282000BEEF#64, .knFmul decLoc { oe := true, re := true, regd := 5#3, sa := 7#4, sb := 8#4, sc := 0#4, tag := 9#4, tkeep := false, w := 2#2, mode := 0#4, immh := true, imm := 48879#16 }),
    (0x63AF01282000BEEF#64, .knFmax decLoc { oe := true, re := true, regd := 5#3, sa := 7#4, sb := 8#4, sc := 0#4, tag := 9#4, tkeep := false, w := 2#2, mode := 0#4, immh := true, imm := 48879#16 }),
    (0x67AE01202000BEEF#64, .knTake decLoc { oe := true, re := true, regd := 5#3, sa := 7#4, sb := 0#4, sc := 0#4, tag := 9#4, tkeep := false, w := 0#2, mode := 0#4, immh := true, imm := 48879#16 })] : List (W64 × Instr)),
    decodeCell decLoc p.1 = some p.2 := by decide +kernel

/-! ## Terms that the well-formedness checks refuse -/

/-- R80, R104, R121: a guard that names no predicate, a predicate number of 24 or more. -/
theorem test_wf_guards :
    Instr.wf false (.add { xSR with g := 24#5 }) = false ∧ Instr.wf false (.bcnt { xSR1 with g := 30#5 }) = false ∧
    Instr.wf false (.cmpeq { xSR with d := 24#6 }) = false ∧ Instr.wf false (.cmplt { xSR with g := 25#5 }) = false ∧
    Instr.wf false (.cmpeqi { xSI with d := 24#6 }) = false ∧ Instr.wf false (.cmpltiLimm { d := 63#6, ba := false, a := 0#6, imm := 0#32 }) = false ∧
    Instr.wf false (.br { xSB with g := 24#5 }) = false ∧ Instr.wf false (.call { g := 31#5, n := true, disp := 0#20 }) = false ∧
    Instr.wf false (.jr false 0#6 24#5) = false ∧ Instr.wf false (.launch 0#6 false 0#6 29#5) = false ∧
    Instr.wf false (.pand 24#6 0#6 0#5) = false ∧ Instr.wf false (.por 0#6 24#6 0#5) = false ∧ Instr.wf false (.pxor 0#6 0#6 24#5) = false ∧
    Instr.wf false (.pnot 0#6 24#6) = false ∧ Instr.wf false (.pmovs 0#6 24#6) = false ∧ Instr.wf false (.pmovp 24#6 0#6) = false ∧ Instr.wf false (.pseta 24#6 0#6) = false ∧
    Instr.wf false (.vadd { xVT with g := 24#5 }) = false ∧ Instr.wf false (.vcmple 24#5 xVT.a xVT.b) = false := by decide +kernel

/-- R105, R109, R118, R129, R236, R237, R268, R272, R301, R307, R318, R169, R175: operands outside their limits. -/
theorem test_wf_operands :
    Instr.wf false (.shli { xSI with imm := 64#13 }) = false ∧ Instr.wf false (.sariLimm { d := 0#6, ba := false, a := 0#6, imm := 64#32 }) = false ∧
    Instr.wf false (.lds { xSM with size := 7#3 }) = false ∧ Instr.wf false (.stgOff32 { d := 0#6, ba := false, a := 0#6, size := 7#3, off := 0#32 }) = false ∧
    Instr.wf false (.loop { ba := false, a := 4#6, imm := 0#13, ii := 3#8, sm1 := 1#3 }) = false ∧ Instr.wf false (.loop { ba := false, a := 4#6, imm := 4096#13, ii := 3#8, sm1 := 1#3 }) = false ∧
    Instr.wf false (.loop { ba := false, a := 4#6, imm := 7#13, ii := 0#8, sm1 := 1#3 }) = false ∧
    Instr.wf false (.sysr 0#6 0x30#8) = false ∧ Instr.wf true (.sysw 0#6 0x21#8) = false ∧ Instr.wf false (.sysr 0#6 5#8) = false ∧
    Instr.wf false (.fence false false) = false ∧ Instr.wf false (.lset 0#6 0#3 7#5) = false ∧ Instr.wf false (.lget 0#6 0#3 26#5) = false ∧
    Instr.wf false (.cldq { xCQ with np := true }) = false ∧ Instr.wf false (.czero { xCN with c := 1#6 }) = false ∧ Instr.wf false (.cws { xCN with np := false }) = false ∧
    Instr.wf false (.cfred 0#3 0#3 0#6 1#6 false true 0#4) = false ∧ Instr.wf false (.mldbw false 0#6 8#4 0#2 0#4) = false ∧ Instr.wf false (.macccp 3#9 3#9 0#4) = false := by decide +kernel

/-- R236, R237: the atomics' reserved fields, sizes and operations. -/
theorem test_wf_atomics :
    let o : SA := { d := 7#6, ba := false, a := 4#6, size := 6#3, off := 0#10, aop := 2#4, rem := false, die := 0#2, core := 0#5, bv := false, v := 9#6, bc := false, c := 0#6 }
    Instr.wf false (.atomg o) = true ∧ Instr.wf false (.atomg { o with size := 3#3 }) = false ∧ Instr.wf false (.atom { o with core := 1#5 }) = false ∧
    Instr.wf false (.atomg { o with rem := true }) = false ∧ Instr.wf false (.atom { o with c := 1#6 }) = false ∧ Instr.wf false (.atom { o with aop := 11#4 }) = false ∧
    Instr.wf false (.atomg { o with aop := 10#4 }) = false ∧ Instr.wf false (.radd o) = false ∧ Instr.wf false (.radd { o with d := 0#6, aop := 3#4 }) = false := by decide +kernel

/-- R79, R86, R330: ops of the other kind of core. -/
theorem test_wf_kind_of_core :
    Instr.wf true .sync = false ∧ Instr.wf true (.ctrinit 0#6 true 0#6) = false ∧ Instr.wf false (.chopen 0#6 0#6) = false ∧ Instr.wf false (.chclose 0#6 0#6 false) = false ∧
    Instr.wf false (.fencerec 0#6 0#6) = false ∧ Instr.wf false (.peelpost 0#6 0#6) = false ∧ Instr.wf false (.wqtake 0#6 0#6 false false) = false ∧
    Instr.wf false (.knbind 0#6 0#6 false) = false ∧ Instr.wf false (.knload 0#6 0#6 0#2 false) = false ∧ Instr.wf false (.kndict 0#6 0#6 false) = false ∧
    Instr.wf false (.knunbind 0#6 0#6 false false) = false ∧ Instr.wf true (.vfma xVT xVT.a) = false ∧ Instr.wf true (.vabs xVU) = false ∧ Instr.wf true (.vmov xVC) = false ∧
    Instr.wf true (.vlds xVN) = false ∧ Instr.wf true (.vgath xVS) = false ∧ Instr.wf true (.vsts xVW) = false ∧ Instr.wf true (.vcmpeq 0#5 xVT.a xVT.b) = false ∧
    Instr.wf true (.mldb xVT.a 0#2 0#4) = false ∧ Instr.wf true (.mmul xVT.a 0#9 0#2 0#4) = false ∧ Instr.wf true (.mzero 0#9 0#4) = false := by decide +kernel

/-- R341, R343: cell words. -/
theorem test_wf_cells :
    let f : CellWord := { oe := true, re := true, regd := 5#3, sa := 7#4, sb := 8#4, sc := 0#4, tag := 9#4, tkeep := false, w := 1#2, mode := 0#4, immh := false, imm := 0#16 }
    Instr.wf false (.knAdd decLoc f) = true ∧ Instr.wf false (.knAdd decLoc { f with w := 3#2 }) = false ∧ Instr.wf false (.knAdd decLoc { f with mode := 1#4 }) = false ∧
    Instr.wf false (.knAdd decLoc { f with sa := 11#4 }) = false ∧ Instr.wf false (.knAdd decLoc { f with sb := 12#4 }) = false ∧ Instr.wf false (.knAdd decLoc { f with sc := 1#4 }) = false ∧
    Instr.wf false (.knPass decLoc { f with w := 0#2 }) = false ∧ Instr.wf false (.knAdd decLoc { f with re := false }) = false ∧ Instr.wf false (.knAdd decLoc { f with oe := false }) = false ∧
    Instr.wf false (.knAdd decLoc { f with tkeep := true }) = false ∧ Instr.wf false (.knTake decLoc { f with sa := 8#4, sb := 0#4, w := 0#2 }) = false ∧
    Instr.wf false (.knNop decLoc { f with sa := 0#4, sb := 0#4, w := 0#2 }) = false ∧ Instr.wf false (.knFadd decLoc f) = false := by decide +kernel

/-! ## The table's words, decoded and run -/

/-- R85, R86, R236: words of the spec's examples through the table's numbering of bits. -/
theorem test_table_words :
    decodeTableWord 32 0x04B172A2 = some (.add { d := 11#6, ba := false, a := 11#6, bb := true, b := 10#6, g := 17#5, w := false }) ∧
    decodeTableWord 64 0x20012000E0709800 = some (.atomg { d := 7#6, ba := false, a := 4#6, size := 6#3, off := 0#10, aop := 2#4, rem := false, die := 0#2, core := 0#5, bv := false, v := 9#6, bc := false, c := 0#6 }) ∧
    decodeTableWord 32 0xF840C03E = some (.launch 4#6 false 6#6 31#5) ∧ decodeTableWord 32 0x0041A100 = some (.chopen 4#6 6#6) ∧ decodeTableWord 32 0xFC000000 = none := by decide +kernel

/-- R28, R33, R101: the fetched word runs in the very next step: ADDI s1, s0, 63 has its result on the way to s1, and the PC is past the two words. -/
theorem test_fetch_runs :
    (match step (State.reset.withFetchWord 32 0x8010003F) with
     | .next t => some ((t.core 0).pend.map (fun p => (p.dst, p.val)), (t.core 0).pc)
     | _ => none) = some ([(.reg 1, some 63#64)], 0x1008#64) := by decide +kernel

/-- R389: a fetched TRAP 3 raises fault 0x1A with DETAIL 3, at the PC of its bundle. -/
theorem test_fetch_traps :
    (match step (State.reset.withFetchWord 32 0x00000203) with
     | .next t => (t.core 0).trap
     | _ => none) = some (.fault { code := 0x1A, detail := 3, addr := 0, pc := 0x1000, slot := 0, single := true }) := by decide +kernel

/-! ## Single steps and functions, results worked out from the rules by hand -/

/-- What an op of core 0 leaves in a destination. -/
def resOf (i : Instr) (s : State) (d : Dst) : Option W64 :=
  match exec i s with
  | .next t => some ((t.core 0).base d)
  | _ => none

/-- R101: -7 and 2: MULH, SAR and MIN are signed, SHR and MINZ are not; 62 bits of -7 are 1. -/
theorem test_scalar_signed :
    resOf (.mulh oSR) s56 (.reg 7) = some (-1) ∧ resOf (.sar oSR) s56 (.reg 7) = some (-2) ∧ resOf (.shr oSR) s56 (.reg 7) = some 0x3FFFFFFFFFFFFFFE ∧
    resOf (.minz oSR) s56 (.reg 7) = some 2 ∧ resOf (.min oSR) s56 (.reg 7) = some (-7) ∧ resOf (.bcnt oSR1) s56 (.reg 7) = some 62 := by decide +kernel

/-- R40: -7 over 2 truncates towards zero; division by zero gives all ones, the remainder the dividend; the most negative number over -1 gives itself. -/
theorem test_divide_corners :
    divS 64 (-7) 2 = -3 ∧ remS 64 (-7) 2 = -1 ∧ divS 64 5 0 = -1 ∧ remS 64 5 0 = 5 ∧ divU 64 5 0 = 2 ^ 64 - 1 ∧ remU 5 0 = 5 ∧ divS 64 (-(2 ^ 63)) (-1) = -(2 ^ 63) ∧ remS 64 (-(2 ^ 63)) (-1) = 0 := by decide +kernel

/-- R105, R107: the short immediate is sign-extended, comparison is signed and sets a predicate to all ones. -/
theorem test_immediates :
    resOf (.addi { oSI with imm := 0x1FFF#13 }) s56 (.reg 7) = some (-8) ∧ resOf (.cmplti { oSI with imm := 0#13 }) s56 (.pred 7) = some (BitVec.allOnes 64) ∧
    resOf (.movl 7#6 0x1000#13) s56 (.reg 7) = some (-4096) := by decide +kernel

/-- R114, R116: a taken branch of a single-op bundle has its target at once; one whose guard fails goes on. -/
theorem test_branch :
    (match exec (.br { g := 31#5, n := false, disp := 0xFFFFE#20 }) (at0 tk56 { pc := 0x1000, next := 0x1008, single := true }) with
     | .next t => (t.core 0).pc
     | _ => 0) = 0xFF8 ∧
    (match exec (.br { g := 3#5, n := false, disp := 4#20 }) (at0 { tk56 with pc := 0x1008 } { pc := 0x1000, next := 0x1008, single := true }) with
     | .next t => (t.core 0).pc
     | _ => 0) = 0x1008 := by decide +kernel

/-- R42 to R46: FP32 arithmetic: 1 + 2^-24 ties to even, 1.5 x 1.5 = 2.25, infinity minus infinity is the canonical NaN with NV, BF16 narrows 1.00390625 to 1. -/
theorem test_float :
    fp32.enc false ((fp32.dec 0x3F800000).add (fp32.dec 0x33800000)).1 = (0x3F800000, flNX) ∧
    fp32.enc false ((fp32.dec 0x3FC00000).mul (fp32.dec 0x3FC00000)).1 = (0x40100000, 0) ∧
    ((fp32.dec 0x7F800000).add (fp32.dec 0xFF800000)).2 = flNV ∧ (fp32.enc false ((fp32.dec 0x7F800000).add (fp32.dec 0xFF800000)).1).1 = 0x7FC00000 ∧
    ((fmtOf 7).enc false (fp32.dec 0x3F808000)).1 = 0x3F80 := by decide +kernel

/-- R146, R148, R149: integer saturation, and a comparison's mask by 32-bit lanes. -/
theorem test_vector_helpers :
    satInt 8 false 200 = 127 ∧ satInt 8 true (-3) = 0 ∧ cmpMask 32 [true, false, true] = 5#64 ∧ vcmp 0 4 4 0x80000000 0 = (true, 0) := by decide +kernel

/-- R473, R476: the check of the nine digits, and the fields of a packet come back from its bytes. -/
theorem test_crc : crc32 [0x31, 0x32, 0x33, 0x34, 0x35, 0x36, 0x37, 0x38, 0x39] = 0xCBF43926#32 := by decide +kernel

/-- R237: an atomic addition wraps at its size, a swap takes the value, compare-and-swap takes it only where the location equals c. -/
theorem test_atomics :
    atomNew 2 4#3 0xFFFFFFFF 1 0 = 0 ∧ atomNew 0 6#3 5 9 0 = 9 ∧ atomNew 1 6#3 5 9 5 = 9 ∧ atomNew 1 6#3 5 9 6 = 5 := by decide +kernel

/-- R324: a post that reaches EXPECT flips PHASE and leaves COUNT 0; one that goes past it is no advance. -/
theorem test_counter_post :
    (({ expect := 4, count := 2 } : Counter).post 2).map (fun c => (c.phase, c.count)) = some (true, 0) ∧
    (({ expect := 4, count := 1 } : Counter).post 2).map (fun c => (c.phase, c.count)) = some (false, 3) ∧ (({ expect := 4, count := 3 } : Counter).post 2).isSome = false := by decide +kernel
end Sys2Proof.Tests
end

/-! Numbers at an op's width (R39, R40, R83, R99): the ALU of the model against the manual's tables, and the results of the scalar register
ops (R101 to R103). -/
namespace Sys2Proof.Machine

/-! ## The model's readings of a register at a width are the manual's -/

@[simp] theorem sAt_eq_signed (w : Bool) (v : W64) : sAt w v = signed w v := by
  simp only [sAt, signed, BitVec.setWidth_eq_extractLsb' (show 32 ≤ 64 by decide)]

@[simp] theorem uAt_eq_unsigned (w : Bool) (v : W64) : uAt w v = unsigned w v := by
  simp only [uAt, unsigned, ← BitVec.setWidth_eq_extractLsb' (show 32 ≤ 64 by decide), BitVec.toNat_setWidth]

@[simp] theorem wOf_eq_width (w : Bool) : wOf w = width w := rfl

@[simp] theorem atW_eq_lowS (w : Bool) (v : W64) : atW w v = lowS w v := by
  simp only [atW, lowS, sext32, BitVec.setWidth_eq_extractLsb' (show 32 ≤ 64 by decide)]

/-- The low 5 or 6 bits of a shift amount (R101). -/
theorem shiftAmount_eq_mod_width (w : Bool) (n : Nat) : (if w then n % 32 else n % 64) = n % width w := by
  cases w <;> rfl

/-! ## Results wrap modulo 2^W (R39) -/

/-- Integers of the same W bits give the same result. -/
theorem resS_congr {w : Bool} {x y : Int} (h : BitVec.ofInt (width w) x = BitVec.ofInt (width w) y) : resS w x = resS w y := by
  cases w with
  | true => exact congrArg (BitVec.signExtend 64) h
  | false => exact h

theorem setWidth_ofInt (x : Int) : (BitVec.ofInt 64 x).setWidth 32 = BitVec.ofInt 32 x := by
  apply BitVec.eq_of_toNat_eq
  rw [BitVec.toNat_setWidth, BitVec.toNat_ofInt, BitVec.toNat_ofInt]
  omega

/-- A result of W bits is the low W bits of the one of 64. -/
@[simp] theorem lowS_ofInt (w : Bool) (x : Int) : lowS w (BitVec.ofInt 64 x) = resS w x := by
  simp only [lowS, resS, setWidth_ofInt]

@[simp] theorem w64_mod_eq_resZ (w : Bool) (n : Nat) : w64 (n % 2 ^ width w) = resZ w n := by
  cases w with
  | true => rfl
  | false => exact BitVec.eq_of_toNat_eq (by simp [resZ, width])

/-- An operand read at the op's width has the low W bits of the register. -/
theorem ofInt_signed (w : Bool) (a : W64) : BitVec.ofInt (width w) (signed w a) = BitVec.ofInt (width w) a.toInt := by
  cases w with
  | false => rfl
  | true =>
    have hbits : BitVec.ofInt 32 a.toInt = a.setWidth 32 := by rw [← setWidth_ofInt, BitVec.ofInt_toInt]
    exact BitVec.ofInt_toInt.trans hbits.symm

theorem lowS_add (w : Bool) (a b : W64) : lowS w (a + b) = resS w (signed w a + signed w b) :=
  calc lowS w (a + b) = resS w (a.toInt + b.toInt) := by simp only [← lowS_ofInt, BitVec.ofInt_add, BitVec.ofInt_toInt]
    _ = resS w (signed w a + signed w b) := resS_congr (by simp only [BitVec.ofInt_add, ofInt_signed])

theorem lowS_sub (w : Bool) (a b : W64) : lowS w (a - b) = resS w (signed w a - signed w b) :=
  calc lowS w (a - b) = resS w (a.toInt - b.toInt) := by
        simp only [← lowS_ofInt, Int.sub_eq_add_neg, BitVec.ofInt_add, BitVec.ofInt_neg, BitVec.ofInt_toInt, BitVec.sub_eq_add_neg]
    _ = resS w (signed w a - signed w b) := resS_congr (by simp only [Int.sub_eq_add_neg, BitVec.ofInt_add, BitVec.ofInt_neg, ofInt_signed])

theorem lowS_mul (w : Bool) (a b : W64) : lowS w (a * b) = resS w (signed w a * signed w b) :=
  calc lowS w (a * b) = resS w (a.toInt * b.toInt) := by simp only [← lowS_ofInt, BitVec.ofInt_mul, BitVec.ofInt_toInt]
    _ = resS w (signed w a * signed w b) := resS_congr (by simp only [BitVec.ofInt_mul, ofInt_signed])

/-- A left shift multiplies by a power of two, modulo 2^64. -/
theorem shiftLeft_eq_ofInt_mul (a : W64) (n : Nat) : a <<< n = BitVec.ofInt 64 (a.toInt * 2 ^ n) := by
  have h : (2 : Int) ^ n = ((2 ^ n : Nat) : Int) := by push_cast; rfl
  rw [BitVec.ofInt_mul, BitVec.ofInt_toInt, BitVec.shiftLeft_eq_mul_twoPow, h, BitVec.ofInt_natCast]
  exact congrArg (a * ·) (BitVec.eq_of_toNat_eq (by rw [BitVec.toNat_twoPow, BitVec.toNat_ofNat]))

theorem lowS_shiftLeft (w : Bool) (a : W64) (n : Nat) : lowS w (a <<< n) = resS w (signed w a * 2 ^ n) := by
  rw [shiftLeft_eq_ofInt_mul, lowS_ofInt]
  exact resS_congr (by simp only [BitVec.ofInt_mul, ofInt_signed])

/-! ## Division (R40) -/

/-- The model's own case of −2^(W−1) over −1 is what the truncated quotient 2^(W−1) wraps to. -/
theorem resS_divS (w : Bool) (a b : Int) : resS w (divS (width w) a b) = resS w (quoS a b) := by
  unfold divS quoS
  by_cases hb : b = 0
  · simp [hb]
  by_cases hm : a = -(2 ^ (width w - 1)) ∧ b = -1
  · obtain ⟨rfl, rfl⟩ := hm
    cases w <;> decide
  · simp [hb, hm]

/-- Every remainder by −1 is 0, so the model's own case of it changes nothing. -/
theorem remS_eq_modS (n : Nat) (a b : Int) : remS n a b = modS a b := by
  unfold remS modS
  by_cases hb : b = 0
  · simp [hb]
  by_cases hm : a = -(2 ^ (n - 1)) ∧ b = -1
  · obtain ⟨rfl, rfl⟩ := hm
    simp
  · simp [hb, hm]

theorem divU_eq_quoU (w : Bool) (a b : Nat) : divU (width w) a b = quoU w a b := by simp [divU, quoU]

theorem remU_eq_modU (a b : Nat) : remU a b = modU a b := by simp [remU, modU]

/-! ## The rows of the ALU (R101) -/

section
variable (w : Bool) (a b : W64)

theorem alu_add : alu 0x01 w a b = resS w (signed w a + signed w b) := by simp [alu, lowS_add]
theorem alu_sub : alu 0x02 w a b = resS w (signed w a - signed w b) := by simp [alu, lowS_sub]
theorem alu_and : alu 0x03 w a b = lowS w (a &&& b) := atW_eq_lowS _ _
theorem alu_or : alu 0x04 w a b = lowS w (a ||| b) := atW_eq_lowS _ _
theorem alu_xor : alu 0x05 w a b = lowS w (a ^^^ b) := atW_eq_lowS _ _
theorem alu_shl : alu 0x06 w a b = resS w (signed w a * 2 ^ (b.toNat % width w)) := by simp [alu, lowS_shiftLeft, shiftAmount_eq_mod_width]
theorem alu_shr : alu 0x07 w a b = resZ w (unsigned w a / 2 ^ (b.toNat % width w)) := by simp [alu, shiftAmount_eq_mod_width]
theorem alu_sar : alu 0x08 w a b = resS w (signed w a / 2 ^ (b.toNat % width w)) := by simp [alu, shiftAmount_eq_mod_width]
theorem alu_mul : alu 0x09 w a b = resS w (signed w a * signed w b) := by simp [alu, lowS_mul]
theorem alu_mulh : alu 0x0A w a b = resS w (signed w a * signed w b / 2 ^ width w) := by simp [alu]
theorem alu_mulhz : alu 0x0B w a b = resZ w (unsigned w a * unsigned w b / 2 ^ width w) := by simp [alu]
theorem alu_div : alu 0x0C w a b = resS w (quoS (signed w a) (signed w b)) := by simp [alu, resS_divS]
theorem alu_divz : alu 0x0D w a b = resZ w (quoU w (unsigned w a) (unsigned w b)) := by simp [alu, divU_eq_quoU]
theorem alu_rem : alu 0x0E w a b = resS w (modS (signed w a) (signed w b)) := by simp [alu, remS_eq_modS]
theorem alu_remz : alu 0x0F w a b = resZ w (modU (unsigned w a) (unsigned w b)) := by simp [alu, remU_eq_modU]
theorem alu_min : alu 0x10 w a b = resS w (if signed w a ≤ signed w b then signed w a else signed w b) := by simp [alu, Int.min_def]
theorem alu_max : alu 0x11 w a b = resS w (if signed w a ≤ signed w b then signed w b else signed w a) := by simp [alu, Int.max_def]
theorem alu_minz : alu 0x12 w a b = resZ w (if unsigned w a ≤ unsigned w b then unsigned w a else unsigned w b) := by simp [alu, Nat.min_def]
theorem alu_maxz : alu 0x13 w a b = resZ w (if unsigned w a ≤ unsigned w b then unsigned w b else unsigned w a) := by simp [alu, Nat.max_def]

end

/-! ## Bit counts (R101) -/

/-- The count of one bits, as the number of positions that hold one. -/
theorem bcntN_eq_length_filter (n v : Nat) : bcntN n v = ((List.range n).filter v.testBit).length := by
  induction n with
  | zero => rfl
  | succ n ih =>
    rw [bcntN, ih, List.range_succ, List.filter_append, List.length_append]
    by_cases h : v.testBit n <;> simp [h, Nat.add_comm]

theorem clzN_le (n v : Nat) : clzN n v ≤ n := by
  induction n with
  | zero => exact Nat.le_refl 0
  | succ n ih => rw [clzN]; split <;> omega

/-- Above the count stand zeros. -/
theorem testBit_of_lt_clzN (n v j : Nat) (h : j < clzN n v) : v.testBit (n - 1 - j) = false := by
  induction n generalizing j with
  | zero => exact absurd h (Nat.not_lt_zero j)
  | succ n ih =>
    rw [clzN] at h
    split at h
    · exact absurd h (Nat.not_lt_zero j)
    next htop =>
      cases j with
      | zero => simpa using htop
      | succ j =>
        have hbit := ih j (by omega)
        rwa [show n + 1 - 1 - (j + 1) = n - 1 - j by omega]

/-- Where the count ends before the operand does, a one stands. -/
theorem testBit_clzN (n v : Nat) (h : clzN n v < n) : v.testBit (n - 1 - clzN n v) = true := by
  induction n with
  | zero => exact absurd h (Nat.not_lt_zero _)
  | succ n ih =>
    rw [clzN] at h ⊢
    split
    next htop => exact htop
    next htop =>
      rw [if_neg htop] at h
      have hbit := ih (by omega)
      rwa [show n + 1 - 1 - (1 + clzN n v) = n - 1 - clzN n v by omega]

theorem ctzN_le (n i v : Nat) : ctzN n i v ≤ n := by
  induction n generalizing i with
  | zero => exact Nat.le_refl 0
  | succ n ih => have := ih (i + 1); rw [ctzN]; split <;> omega

/-- Below the count stand zeros. -/
theorem testBit_of_lt_ctzN (n i v j : Nat) (h : j < ctzN n i v) : v.testBit (i + j) = false := by
  induction n generalizing i j with
  | zero => exact absurd h (Nat.not_lt_zero j)
  | succ n ih =>
    rw [ctzN] at h
    split at h
    · exact absurd h (Nat.not_lt_zero j)
    next hlow =>
      cases j with
      | zero => simpa using hlow
      | succ j =>
        have hbit := ih (i + 1) j (by omega)
        rwa [show i + (j + 1) = i + 1 + j by omega]

/-- Where the count ends before the operand does, a one stands. -/
theorem testBit_ctzN (n i v : Nat) (h : ctzN n i v < n) : v.testBit (i + ctzN n i v) = true := by
  induction n generalizing i with
  | zero => exact absurd h (Nat.not_lt_zero _)
  | succ n ih =>
    rw [ctzN] at h ⊢
    split
    next hlow => exact hlow
    next hlow =>
      rw [if_neg hlow] at h
      have hbit := ih (i + 1) (by omega)
      rwa [← Nat.add_assoc]

theorem alu1_bcnt (w : Bool) (a : W64) : alu1 0x15 w a = BitVec.ofNat 64 ((List.range (width w)).filter a.getLsbD).length :=
  congrArg w64 (bcntN_eq_length_filter (width w) a.toNat)

/-- CLZ counts the positions from the top before a one. -/
theorem alu1_clz (w : Bool) (a : W64) : ∃ n, alu1 0x16 w a = BitVec.ofNat 64 n ∧ n ≤ width w ∧
    (∀ j, j < n → a.getLsbD (width w - 1 - j) = false) ∧ (n < width w → a.getLsbD (width w - 1 - n) = true) :=
  ⟨clzN (width w) a.toNat, rfl, clzN_le _ _, testBit_of_lt_clzN _ _, testBit_clzN _ _⟩

/-- CTZ counts the positions from the bottom before a one. -/
theorem alu1_ctz (w : Bool) (a : W64) : ∃ n, alu1 0x17 w a = BitVec.ofNat 64 n ∧ n ≤ width w ∧
    (∀ j, j < n → a.getLsbD j = false) ∧ (n < width w → a.getLsbD n = true) := by
  have hzero := testBit_of_lt_ctzN (width w) 0 a.toNat
  have hone := testBit_ctzN (width w) 0 a.toNat
  simp only [Nat.zero_add] at hzero hone
  exact ⟨ctzN (width w) 0 a.toNat, rfl, ctzN_le _ _ _, hzero, hone⟩

/-! ## The ops (R101 to R103) -/

/-- SEL always executes: its guard chooses the operand (R103). -/
theorem exec_sel_gives {s : State} {o : SR} {a b : W64} (ha : s.Has o.ba o.a a) (hb : s.Has o.bb o.b b) (hf : s.Free (.reg o.d.toNat)) :
    exec (.sel o) s = .next (s.gives (.reg o.d.toNat) (lowS o.w (if s.me.guard s.cur.op o.g.toNat then a else b))) := by
  have arm : exec (.sel o) s = execSel o s := rfl
  rw [arm, execSel]
  refine s.coreOp_done _ _ _ _ ?_
  simp only [Core.two, ha.bind, hb.bind, hf.put, atW_eq_lowS]

/-- The rows with an exposed result and two sources. -/
theorem exec_binary_gives {s : State} {o : SR} {a b : W64} (ha : s.Has o.ba o.a a) (hb : s.Has o.bb o.b b) (hf : s.Free (.reg o.d.toNat))
    (hg : s.Guarded o.g) {i : Instr} {op : Nat} {v : W64} (hi : exec i s = s.aluOp i op o) (hv : alu op o.w a b = v) :
    exec i s = .next (s.gives (.reg o.d.toNat) v) := by
  rw [hi, State.aluOp_gives i op ha hb hf hg, hv]

/-- The divides and remainders: their result is on its way. -/
theorem exec_divide_divides {s : State} {o : SR} {a b : W64} (ha : s.Has o.ba o.a a) (hb : s.Has o.bb o.b b) (hg : s.Guarded o.g)
    {i : Instr} {op : Nat} {v : W64} (hi : exec i s = s.divOp i op o) (hv : alu op o.w a b = v) : exec i s = .next (s.divides o.d v) := by
  rw [hi, State.divOp_divides i op ha hb hg, hv]

/-- Settles O1: the ALU's rows, its bit counts and its divides, each through the shared meaning of its kind of op. -/
theorem scalarRegisterResults : Obligations.ScalarRegisterResults := by
  unfold Obligations.ScalarRegisterResults
  refine ⟨fun s o a b ha hb hf => ?_, fun s o a ha hg hf => ?_, fun s o a b ha hb hg => ?_⟩
  · have sel := exec_sel_gives ha hb hf
    refine ⟨fun hg => ?_, fun hg => ?_⟩
    · have row {i : Instr} {op : Nat} {v : W64} := exec_binary_gives ha hb hf hg (i := i) (op := op) (v := v)
      rw [if_pos (show s.me.guard s.cur.op o.g.toNat = true from hg)] at sel
      exact ⟨row rfl (alu_add ..), row rfl (alu_sub ..), row rfl (alu_and ..), row rfl (alu_or ..), row rfl (alu_xor ..), row rfl (alu_shl ..),
        row rfl (alu_shr ..), row rfl (alu_sar ..), row rfl (alu_mul ..), row rfl (alu_mulh ..), row rfl (alu_mulhz ..), row rfl (alu_min ..),
        row rfl (alu_max ..), row rfl (alu_minz ..), row rfl (alu_maxz ..), sel⟩
    · rwa [if_neg (show ¬ s.me.guard s.cur.op o.g.toNat = true from hg)] at sel
  · have row (i : Instr) (op : Nat) : s.aluOp1 i op o = .next (s.gives (.reg o.d.toNat) (alu1 op o.w a)) := State.aluOp1_gives i op ha hf hg
    obtain ⟨l, hl, lead⟩ := alu1_clz o.w a
    obtain ⟨t, ht, trail⟩ := alu1_ctz o.w a
    exact ⟨alu1_bcnt o.w a ▸ row (.bcnt o) 0x15, ⟨l, hl ▸ row (.clz o) 0x16, lead⟩, ⟨t, ht ▸ row (.ctz o) 0x17, trail⟩⟩
  · have row {i : Instr} {op : Nat} {v : W64} := exec_divide_divides ha hb hg (i := i) (op := op) (v := v)
    exact ⟨row rfl (alu_div ..), row rfl (alu_rem ..), row rfl (alu_divz ..), row rfl (alu_remz ..)⟩

end Sys2Proof.Machine

/-! The decoder and the encoder of op words and cell words (R79 to R86, R341, R343). Every word is its fields side by side, so a field read back
is the field written; with that, each format's decoder gives back what its encoder was given, and an op's opcode leads to its format. -/
namespace Sys2Proof

/-! ## Fields of a word

The width of a concatenation is written as a sum and that of a word as a numeral, so the library's lemmas about `++` do not match a word:
these leave the width out of the index. -/

@[simp] theorem extractLsb'_append_hi {v w s l : Nat} (x : BitVec v) (y : BitVec w) (h : w ≤ s) :
    BitVec.extractLsb' (n := no_index (v + w)) s l (HAppend.hAppend (γ := BitVec (no_index (v + w))) x y) = x.extractLsb' (s - w) l :=
  BitVec.extractLsb'_append_eq_of_le h

@[simp] theorem extractLsb'_append_lo {v w s l : Nat} (x : BitVec v) (y : BitVec w) (h : s + l ≤ w) :
    BitVec.extractLsb' (n := no_index (v + w)) s l (HAppend.hAppend (γ := BitVec (no_index (v + w))) x y) = y.extractLsb' s l :=
  BitVec.extractLsb'_append_eq_of_add_le h

@[simp] theorem getElem_append_hi {v w i : Nat} (x : BitVec v) (y : BitVec w) (hi : i < v + w) (h : w ≤ i) :
    GetElem.getElem (coll := BitVec (no_index (v + w))) (HAppend.hAppend (γ := BitVec (no_index (v + w))) x y) i hi = x[i - w] := by
  rw [BitVec.getElem_append, dif_neg (Nat.not_lt.mpr h)]

@[simp] theorem getElem_append_lo {v w i : Nat} (x : BitVec v) (y : BitVec w) (hi : i < v + w) (h : i < w) :
    GetElem.getElem (coll := BitVec (no_index (v + w))) (HAppend.hAppend (γ := BitVec (no_index (v + w))) x y) i hi = y[i] := by
  rw [BitVec.getElem_append, dif_pos h]

/-- A run of bits over two fields, as the two fields. -/
theorem extractLsb'_add {n : Nat} (x : BitVec n) (s l m : Nat) : x.extractLsb' s (m + l) = x.extractLsb' (s + l) m ++ x.extractLsb' s l :=
  (BitVec.extractLsb'_append_extractLsb'_eq_extractLsb' rfl).symm

/-! ## The major opcode of each format (R80) -/

@[simp] theorem opcode_encSR (op : BitVec 6) (o : SR) : (encSR op o).1.extractLsb' 26 6 = op := by simp [encSR]
@[simp] theorem opcode_encSR1 (op : BitVec 6) (o : SR1) : (encSR1 op o).1.extractLsb' 26 6 = op := by simp [encSR1]
@[simp] theorem opcode_encSI (op : BitVec 6) (o : SI) : (encSI op o).1.extractLsb' 26 6 = op := by simp [encSI]
@[simp] theorem opcode_encSIL (op : BitVec 6) (o : SIL) : (encSIL op o).1.extractLsb' 26 6 = op := by simp [encSIL]
@[simp] theorem opcode_encSM (op : BitVec 6) (o : SM) : (encSM op o).1.extractLsb' 26 6 = op := by simp [encSM]
@[simp] theorem opcode_encSMX (op : BitVec 6) (o : SMX) : (encSMX op o).1.extractLsb' 26 6 = op := by simp [encSMX]
@[simp] theorem opcode_encSF (op : BitVec 6) (o : SF) : (encSF op o).1.extractLsb' 26 6 = op := by simp [encSF]
@[simp] theorem opcode_encSFX (op : BitVec 6) (o : SFX) : (encSFX op o).1.extractLsb' 26 6 = op := by simp [encSFX]
@[simp] theorem opcode_encSA (op : BitVec 6) (o : SA) : (encSA op o).1.extractLsb' 26 6 = op := by simp [encSA]
@[simp] theorem opcode_encSB (op : BitVec 6) (o : SB) : (encSB op o).1.extractLsb' 26 6 = op := by simp [encSB]
@[simp] theorem opcode_encSL (op : BitVec 6) (o : SL) : (encSL op o).1.extractLsb' 26 6 = op := by simp [encSL]
@[simp] theorem opcode_encSys (sub d a : BitVec 6) (f : BitVec 8) : (encSys sub d a f).1.extractLsb' 26 6 = 0#6 := by simp [encSys]
@[simp] theorem opcode_encVT (op : BitVec 6) (o : VT) : (encVT op o).1.extractLsb' 26 6 = op := by simp [encVT]
@[simp] theorem opcode_encVF (op : BitVec 6) (o : VT) (c : QSpec) : (encVF op o c).1.extractLsb' 26 6 = op := by simp [encVF]
@[simp] theorem opcode_encVU (op : BitVec 6) (o : VU) : (encVU op o).1.extractLsb' 26 6 = op := by simp [encVU]
@[simp] theorem opcode_encVC (op : BitVec 6) (o : VC) : (encVC op o).1.extractLsb' 26 6 = op := by simp [encVC]
@[simp] theorem opcode_encVP (op : BitVec 6) (p : BitVec 5) (a b : QSpec) : (encVP op p a b).1.extractLsb' 26 6 = op := by simp [encVP]
@[simp] theorem opcode_encVN (op : BitVec 6) (o : VN) : (encVN op o).1.extractLsb' 26 6 = op := by simp [encVN]
@[simp] theorem opcode_encVS (op : BitVec 6) (o : VS) : (encVS op o).1.extractLsb' 26 6 = op := by simp [encVS]
@[simp] theorem opcode_encVW (op : BitVec 6) (o : VW) : (encVW op o).1.extractLsb' 26 6 = op := by simp [encVW]
@[simp] theorem opcode_encCQ (op : BitVec 6) (o : CQ) : (encCQ op o).1.extractLsb' 26 6 = op := by simp [encCQ]
@[simp] theorem opcode_encCN (op : BitVec 6) (o : CN) : (encCN op o).1.extractLsb' 26 6 = op := by simp [encCN]

/-! The words of the ops that have no format of their own. -/

@[simp] theorem opcode_movl (d : BitVec 6) (imm : BitVec 13) : (0x28#6 ++ d ++ 0#7 ++ imm : W32).extractLsb' 26 6 = 0x28#6 := by simp
@[simp] theorem opcode_movlLimm (d : BitVec 6) : (0x28#6 ++ d ++ 0#20 : W32).extractLsb' 26 6 = 0x28#6 := by simp
@[simp] theorem opcode_jr (ba : Bool) (a : BitVec 6) (g : BitVec 5) :
    (0x3C#6 ++ 0#6 ++ bit1 ba ++ a ++ 0#7 ++ g ++ 0#1 : W32).extractLsb' 26 6 = 0x3C#6 := by simp
@[simp] theorem opcode_launch (d : BitVec 6) (ba : Bool) (a : BitVec 6) (g : BitVec 5) :
    (0x3E#6 ++ d ++ bit1 ba ++ a ++ 0#7 ++ g ++ 0#1 : W32).extractLsb' 26 6 = 0x3E#6 := by simp
@[simp] theorem opcode_chwr (l q : BitVec 3) (s : BitVec 6) (rel : Bool) (sg : BitVec 4) :
    (0x08#6 ++ l ++ q ++ s ++ 0#7 ++ bit1 rel ++ 0#2 ++ sg : W32).extractLsb' 26 6 = 0x08#6 := by simp
@[simp] theorem opcode_chrd (l q : BitVec 3) (s : BitVec 6) (acq : Bool) (sg : BitVec 4) :
    (0x09#6 ++ l ++ q ++ s ++ 0#6 ++ bit1 acq ++ 0#3 ++ sg : W32).extractLsb' 26 6 = 0x09#6 := by simp
@[simp] theorem opcode_cfred (l q : BitVec 3) (s c : BitVec 6) (rel np : Bool) (sg : BitVec 4) :
    (0x0C#6 ++ l ++ q ++ s ++ c ++ 0#1 ++ bit1 rel ++ 0#1 ++ bit1 np ++ sg : W32).extractLsb' 26 6 = 0x0C#6 := by simp

/-! ## The scalar formats (R80, R85) -/

theorem decSR_encSR (c : SR → Instr) (op : BitVec 6) {o : SR} (hg : guardOk o.g = true) : decSR c (encSR op o).1 (encSR op o).2 = .ok (c o) := by
  simp [decSR, decSRo, encSR, noExt, hg]

theorem decCmp_encSR (c : SR → Instr) (op : BitVec 6) {o : SR} (h : (guardOk o.g && predOk o.d) = true) :
    decCmp c (encSR op o).1 (encSR op o).2 = .ok (c o) := by
  obtain ⟨hg, hd⟩ := Bool.and_eq_true_iff.mp h
  simp [decCmp, decSRo, encSR, noExt, hg, hd]

theorem decSR1_encSR1 (c : SR1 → Instr) (op : BitVec 6) {o : SR1} (hg : guardOk o.g = true) :
    decSR1 c (encSR1 op o).1 (encSR1 op o).2 = .ok (c o) := by
  simp [decSR1, encSR1, noExt, hg]

@[simp] theorem decSIo_encSI (op : BitVec 6) (o : SI) : decSIo (encSI op o).1 = o := by simp [decSIo, encSI]
@[simp] theorem imm_encSI (op : BitVec 6) (o : SI) : (encSI op o).1.extractLsb' 0 13 = o.imm := by simp [encSI]
@[simp] theorem d_encSI (op : BitVec 6) (o : SI) : (encSI op o).1.extractLsb' 20 6 = o.d := by simp [encSI]
@[simp] theorem ext_encSI (op : BitVec 6) (o : SI) : (encSI op o).2 = none := rfl
@[simp] theorem decSILo_encSIL (op : BitVec 6) (o : SIL) : decSILo (encSIL op o).1 o.imm = o := by simp [decSILo, encSIL]
@[simp] theorem imm_encSIL (op : BitVec 6) (o : SIL) : (encSIL op o).1.extractLsb' 0 13 = 0#13 := by simp [encSIL]
@[simp] theorem d_encSIL (op : BitVec 6) (o : SIL) : (encSIL op o).1.extractLsb' 20 6 = o.d := by simp [encSIL]
@[simp] theorem ext_encSIL (op : BitVec 6) (o : SIL) : (encSIL op o).2 = some o.imm := rfl

theorem decSI_encSI (c : SI → Instr) (cl : SIL → Instr) (op : BitVec 6) (o : SI) : decSI c cl (encSI op o).1 (encSI op o).2 = .ok (c o) := by
  simp [decSI]

theorem decSI_encSIL (c : SI → Instr) (cl : SIL → Instr) (op : BitVec 6) (o : SIL) : decSI c cl (encSIL op o).1 (encSIL op o).2 = .ok (cl o) := by
  simp [decSI]

theorem decSISh_encSI (c : SI → Instr) (cl : SIL → Instr) (op : BitVec 6) {o : SI} (h : shImmOk o.imm.toInt = true) :
    decSISh c cl (encSI op o).1 (encSI op o).2 = .ok (c o) := by
  simp [decSISh, h]

theorem decSISh_encSIL (c : SI → Instr) (cl : SIL → Instr) (op : BitVec 6) {o : SIL} (h : shImmOk o.imm.toInt = true) :
    decSISh c cl (encSIL op o).1 (encSIL op o).2 = .ok (cl o) := by
  simp [decSISh, h]

theorem decSICmp_encSI (c : SI → Instr) (cl : SIL → Instr) (op : BitVec 6) {o : SI} (h : predOk o.d = true) :
    decSICmp c cl (encSI op o).1 (encSI op o).2 = .ok (c o) := by
  simp [decSICmp, h]

theorem decSICmp_encSIL (c : SI → Instr) (cl : SIL → Instr) (op : BitVec 6) {o : SIL} (h : predOk o.d = true) :
    decSICmp c cl (encSIL op o).1 (encSIL op o).2 = .ok (cl o) := by
  simp [decSICmp, h]

theorem decSM_encSM (c : SM → Instr) (cx : SMX → Instr) (op : BitVec 6) {o : SM} (h : (o.size != 7#3) = true) :
    decSM c cx (encSM op o).1 (encSM op o).2 = .ok (c o) := by
  simp [decSM, encSM, bne_iff_ne.mp h]

theorem decSM_encSMX (c : SM → Instr) (cx : SMX → Instr) (op : BitVec 6) {o : SMX} (h : (o.size != 7#3) = true) :
    decSM c cx (encSMX op o).1 (encSMX op o).2 = .ok (cx o) := by
  simp [decSM, encSMX, bne_iff_ne.mp h]

theorem decSF_encSF (c : SF → Instr) (cx : SFX → Instr) (op : BitVec 6) (o : SF) : decSF c cx (encSF op o).1 (encSF op o).2 = .ok (c o) := by
  simp [decSF, encSF]

theorem decSF_encSFX (c : SF → Instr) (cx : SFX → Instr) (op : BitVec 6) (o : SFX) :
    decSF c cx (encSFX op o).1 (encSFX op o).2 = .ok (cx o) := by
  simp [decSF, encSFX]

/-- The fields that only some atomics have are zero where the op has none (R236, R237). -/
theorem atomReservedOk_of_atomWf {kind : Nat} {o : SA} (h : atomWf kind o = true) :
    atomReservedOk kind o.d (o.aop ++ bit1 o.rem ++ o.die ++ o.core ++ bit1 o.bv ++ o.v ++ bit1 o.bc ++ o.c ++ 0#6) = true := by
  simp only [atomWf, Bool.and_eq_true] at h
  obtain ⟨⟨⟨-, hrem⟩, hcas⟩, hd⟩ := h
  simp only [beq_iff_eq, bne_iff_ne, Bool.or_eq_true, Bool.and_eq_true] at hrem hcas hd
  have remote : bit1 o.rem ++ o.die ++ o.core = 0#8 ∨ kind = 0 ∧ o.rem = true := by
    refine hrem.imp_left ?_
    rintro ⟨⟨hr, hdie⟩, hcore⟩
    simp [hr, hdie, hcore]
  have third : bit1 o.bc ++ o.c = 0#7 ∨ o.aop = 1#4 := by
    refine hcas.imp_left ?_
    rintro ⟨hc, hbc⟩
    simp [hc, hbc]
  have bits : ∀ e : W32, e.extractLsb' 20 8 = e.extractLsb' 27 1 ++ e.extractLsb' 25 2 ++ e.extractLsb' 20 5 := fun e => by
    rw [extractLsb'_add e 20 5 3, extractLsb'_add e 25 2 1]
  simp only [atomReservedOk, bits, extractLsb'_add _ 6 6 1]
  simpa using ⟨⟨remote, third⟩, hd⟩

theorem decAtom_encSA (c : SA → Instr) (kind : Nat) (op : BitVec 6) {o : SA} (h : atomWf kind o = true) :
    decAtom c kind (encSA op o).1 (encSA op o).2 = .ok (c o) := by
  have reserved := atomReservedOk_of_atomWf h
  simp only [atomWf, Bool.and_eq_true, bne_iff_ne] at h
  obtain ⟨⟨⟨⟨⟨hsize, hatom⟩, haop⟩, -⟩, -⟩, -⟩ := h
  simp [decAtom, encSA, reserved, hsize, hatom, haop]

theorem decSB_encSB (c : SB → Instr) (op : BitVec 6) {o : SB} (h : (guardOk o.g && !(o.n && o.g == 31#5)) = true) :
    decSB c (encSB op o).1 (encSB op o).2 = .ok (c o) := by
  obtain ⟨g, n, disp⟩ := o
  cases n with
  | false => simpa [decSB, encSB, noExt] using h
  | true => simpa [decSB, encSB, noExt] using h

theorem decLoop_encSL (op : BitVec 6) {o : SL} (h : (loopImmOk o.imm && o.ii != 0#8) = true) :
    decLoop (encSL op o).1 (encSL op o).2 = .ok (.loop o) := by
  simp [decLoop, encSL, h]

theorem decMovl_word (d : BitVec 6) (imm : BitVec 13) : decMovl (0x28#6 ++ d ++ 0#7 ++ imm) none = .ok (.movl d imm) := by
  simp [decMovl]

theorem decMovl_limm (d : BitVec 6) (imm : W32) : decMovl (0x28#6 ++ d ++ 0#20) (some imm) = .ok (.movlLimm d imm) := by
  simp [decMovl]

theorem decJr_word (ba : Bool) (a : BitVec 6) {g : BitVec 5} (hg : guardOk g = true) :
    decJr (0x3C#6 ++ 0#6 ++ bit1 ba ++ a ++ 0#7 ++ g ++ 0#1) none = .ok (.jr ba a g) := by
  simp [decJr, noExt, hg]

theorem decLaunch_word (d : BitVec 6) (ba : Bool) (a : BitVec 6) {g : BitVec 5} (hg : guardOk g = true) :
    decLaunch (0x3E#6 ++ d ++ bit1 ba ++ a ++ 0#7 ++ g ++ 0#1) none = .ok (.launch d ba a g) := by
  simp [decLaunch, noExt, hg]

/-! ## SYS words (R81, R86) -/

@[simp] theorem sub_encSys (sub d a : BitVec 6) (f : BitVec 8) : (encSys sub d a f).1.extractLsb' 8 6 = sub := by simp [encSys]
@[simp] theorem d_encSys (sub d a : BitVec 6) (f : BitVec 8) : (encSys sub d a f).1.extractLsb' 20 6 = d := by simp [encSys]
@[simp] theorem a_encSys (sub d a : BitVec 6) (f : BitVec 8) : (encSys sub d a f).1.extractLsb' 14 6 = a := by simp [encSys]
@[simp] theorem ext_encSys (sub d a : BitVec 6) (f : BitVec 8) : (encSys sub d a f).2 = none := rfl

@[simp] theorem low_encSys (sub d a : BitVec 6) (f : BitVec 8) {s l : Nat} (h : s + l ≤ 8) :
    (encSys sub d a f).1.extractLsb' s l = f.extractLsb' s l := by
  simp [encSys, h]

@[simp] theorem lowBit_encSys (sub d a : BitVec 6) (f : BitVec 8) {i : Nat} (hi : i < 32) (h : i < 8) : (encSys sub d a f).1[i] = f[i] := by
  simp [encSys, h]

@[simp] theorem sysBody_true_true (i : Instr) : sysBody true true none i = .ok i := rfl

/-- A body whose checks pass gives its op, whose fields are read from the word. -/
theorem sysBody_eq_ok {ok3 ok4 : Bool} {j i : Instr} (h3 : ok3 = true) (h4 : ok4 = true) (hi : j = i) : sysBody ok3 ok4 none j = .ok i := by
  rw [h3, h4, hi, sysBody_true_true]

theorem decodeS_encSys (ctl : Bool) (sub d a : BitVec 6) (f : BitVec 8) (x : Option W32) :
    decodeS ctl (encSys sub d a f).1 x = decSys ctl (encSys sub d a f).1 x := by
  rw [decodeS, opcode_encSys]
  rfl

/-- A FENCE names at least one of its two effects (R268). -/
theorem fence_bits_ne_zero {r c : Bool} (h : (r || c) = true) : (bit1 r ++ bit1 c : BitVec 2) ≠ 0#2 := by
  revert r c
  decide

/-! ## The vector formats (R80, R85) -/

@[simp] theorem decVTo_encVT (op : BitVec 6) (o : VT) : decVTo (encVT op o).1 = o := by simp [decVTo, encVT, decQ, encQ]
@[simp] theorem g_encVT (op : BitVec 6) (o : VT) : (encVT op o).1.extractLsb' 0 5 = o.g := by simp [encVT]

theorem decVT_encVT (c : VT → Instr) (op : BitVec 6) {o : VT} (hg : guardOk o.g = true) : decVT c (encVT op o).1 (encVT op o).2 = .ok (c o) := by
  rw [decVT, g_encVT, if_pos hg, decVTo_encVT]
  rfl

/-- The QSRC extension gives its queue source back. -/
theorem decQ_extension (c : QSpec) : decQ (0#23 ++ encQ c) 0 = c := by simp [decQ, encQ]

theorem decVF_encVF (c : VT → QSpec → Instr) (op : BitVec 6) {o : VT} (q : QSpec) (hg : guardOk o.g = true) :
    decVF c (encVF op o q).1 (encVF op o q).2 = .ok (c o q) := by
  have word : (encVF op o q).1 = (encVT op o).1 := rfl
  simp [decVF, word, show (encVF op o q).2 = some (0#23 ++ encQ q) from rfl, hg, decQ_extension]

theorem decVU_encVU (c : VU → Instr) (op : BitVec 6) {o : VU} (hg : guardOk o.g = true) : decVU c (encVU op o).1 (encVU op o).2 = .ok (c o) := by
  simp [decVU, encVU, decQ, encQ, noExt, hg]

theorem decVC_encVC (c : VC → Instr) (op : BitVec 6) {o : VC} (hg : guardOk o.g = true) : decVC c (encVC op o).1 (encVC op o).2 = .ok (c o) := by
  simp [decVC, encVC, decQ, encQ, noExt, hg]

theorem decVP_encVP (c : BitVec 5 → QSpec → QSpec → Instr) (op : BitVec 6) {p : BitVec 5} (a b : QSpec) (hp : p.toNat < 24) :
    decVP c (encVP op p a b).1 (encVP op p a b).2 = .ok (c p a b) := by
  simp [decVP, encVP, decQ, encQ, noExt, hp]

theorem decVN_encVN (c : VN → Instr) (op : BitVec 6) {o : VN} (hg : guardOk o.g = true) : decVN c (encVN op o).1 (encVN op o).2 = .ok (c o) := by
  simp [decVN, encVN, noExt, hg]

theorem decVS_encVS (c : VS → Instr) (op : BitVec 6) {o : VS} (hg : guardOk o.g = true) : decVS c (encVS op o).1 (encVS op o).2 = .ok (c o) := by
  simp [decVS, encVS, decQ, encQ, noExt, hg]

theorem decVW_encVW (c : VW → Instr) (op : BitVec 6) {o : VW} (hg : guardOk o.g = true) : decVW c (encVW op o).1 (encVW op o).2 = .ok (c o) := by
  simp [decVW, encVW, decQ, encQ, noExt, hg]

/-! ## The copy formats (R80, R307) -/

theorem cReservedOk_encCQ (op : BitVec 6) {o : CQ} (h : (!o.np || o.c == 0#6) = true) : cReservedOk (encCQ op o).1 = true := by
  simpa [cReservedOk, encCQ] using h

theorem cReservedOk_encCN (op : BitVec 6) {o : CN} (h : (!o.np || o.c == 0#6) = true) : cReservedOk (encCN op o).1 = true := by
  simpa [cReservedOk, encCN] using h

theorem decCQ_encCQ (c : CQ → Instr) (op : BitVec 6) {o : CQ} (h : (!o.np || o.c == 0#6) = true) :
    decCQ c (encCQ op o).1 (encCQ op o).2 = .ok (c o) := by
  have fields : decCQo (encCQ op o).1 = o := by simp [decCQo, encCQ]
  rw [decCQ, cReservedOk_encCQ op h, fields]
  rfl

theorem decCNo_encCN (op : BitVec 6) (o : CN) : decCNo (encCN op o).1 = o := by simp [decCNo, encCN]
theorem q_encCN (op : BitVec 6) (o : CN) : (encCN op o).1.extractLsb' 20 3 = 0#3 := by simp [encCN]
theorem np_encCN (op : BitVec 6) (o : CN) : (encCN op o).1.getLsbD 4 = o.np := by simp [encCN]

theorem decCN_encCN (c : CN → Instr) (op : BitVec 6) {o : CN} (h : (!o.np || o.c == 0#6) = true) :
    decCN c (encCN op o).1 (encCN op o).2 = .ok (c o) := by
  rw [decCN, cReservedOk_encCN op h, decCNo_encCN, q_encCN]
  rfl

theorem decCws_encCN (op : BitVec 6) {ctl : Bool} {o : CN} (h : ((!o.np || o.c == 0#6) && (ctl || o.np)) = true) :
    decCws ctl (encCN op o).1 (encCN op o).2 = .ok (.cws o) := by
  obtain ⟨hc, hnp⟩ := Bool.and_eq_true_iff.mp h
  rw [decCws, cReservedOk_encCN op hc, decCNo_encCN, q_encCN, np_encCN, hnp]
  rfl

theorem decChwr_word (l q : BitVec 3) (s : BitVec 6) (rel : Bool) (sg : BitVec 4) :
    decChwr (0x08#6 ++ l ++ q ++ s ++ 0#7 ++ bit1 rel ++ 0#2 ++ sg) none = .ok (.chwr l q s rel sg) := by
  simp [decChwr]

theorem decChrd_word (l q : BitVec 3) (s : BitVec 6) (acq : Bool) (sg : BitVec 4) :
    decChrd (0x09#6 ++ l ++ q ++ s ++ 0#6 ++ bit1 acq ++ 0#3 ++ sg) none = .ok (.chrd l q s acq sg) := by
  simp [decChrd]

theorem decCfred_word (l q : BitVec 3) (s : BitVec 6) {c : BitVec 6} (rel : Bool) {np : Bool} (sg : BitVec 4) (h : (!np || c == 0#6) = true) :
    decCfred (0x0C#6 ++ l ++ q ++ s ++ c ++ 0#1 ++ bit1 rel ++ 0#1 ++ bit1 np ++ sg) none = .ok (.cfred l q s c rel np sg) := by
  have reserved : cReservedOk (0x0C#6 ++ l ++ q ++ s ++ c ++ 0#1 ++ bit1 rel ++ 0#1 ++ bit1 np ++ sg) = true := by simpa [cReservedOk] using h
  simp [decCfred, reserved]

/-! ## The scalar class (R86) -/

/-- The words of an encoded op, its class apart. -/
theorem words_eq {c c' : Nat} {p q : W32 × Option W32} (h : some (c, p) = some (c', q)) : p = q := by
  injection h with h
  exact (Prod.mk.inj h).2

/-- An op of the scalar class: its opcode leads to its format, a SYS op's sub-opcode to the op. -/
theorem decodeOp_scalar {i : Instr} {ctl : Bool} {p : W32 × Option W32} (hwf : i.wf ctl = true) (henc : encode i = some (0, p)) :
    decodeOp ctl 0 p.1 p.2 = .ok i := by
  change decodeS ctl p.1 p.2 = .ok i
  cases i with
  | add o | sub o | and o | or o | xor o | shl o | shr o | sar o | mul o | mulh o | mulhz o | div o | divz o | rem o | remz o | min o | max o
  | minz o | maxz o | sel o =>
    obtain rfl := words_eq henc
    rw [decodeS, opcode_encSR]
    exact decSR_encSR _ _ hwf
  | bcnt o | clz o | ctz o =>
    obtain rfl := words_eq henc
    rw [decodeS, opcode_encSR1]
    exact decSR1_encSR1 _ _ hwf
  | cmpeq o | cmpne o | cmplt o | cmple o | cmpltz o | cmplez o =>
    obtain rfl := words_eq henc
    rw [decodeS, opcode_encSR]
    exact decCmp_encSR _ _ hwf
  | addi o | andi o | ori o | xori o | muli o | movh o =>
    obtain rfl := words_eq henc
    rw [decodeS, opcode_encSI]
    exact decSI_encSI _ _ _ o
  | addiLimm o | andiLimm o | oriLimm o | xoriLimm o | muliLimm o | movhLimm o =>
    obtain rfl := words_eq henc
    rw [decodeS, opcode_encSIL]
    exact decSI_encSIL _ _ _ o
  | shli o | shri o | sari o =>
    obtain rfl := words_eq henc
    rw [decodeS, opcode_encSI]
    exact decSISh_encSI _ _ _ hwf
  | shliLimm o | shriLimm o | sariLimm o =>
    obtain rfl := words_eq henc
    rw [decodeS, opcode_encSIL]
    exact decSISh_encSIL _ _ _ hwf
  | cmpeqi o | cmplti o =>
    obtain rfl := words_eq henc
    rw [decodeS, opcode_encSI]
    exact decSICmp_encSI _ _ _ hwf
  | cmpeqiLimm o | cmpltiLimm o =>
    obtain rfl := words_eq henc
    rw [decodeS, opcode_encSIL]
    exact decSICmp_encSIL _ _ _ hwf
  | movl d imm =>
    obtain rfl := words_eq henc
    rw [decodeS, opcode_movl]
    exact decMovl_word d imm
  | movlLimm d imm =>
    obtain rfl := words_eq henc
    rw [decodeS, opcode_movlLimm]
    exact decMovl_limm d imm
  | ldg o | stg o | lds o | sts o =>
    obtain rfl := words_eq henc
    rw [decodeS, opcode_encSM]
    exact decSM_encSM _ _ _ hwf
  | ldgOff32 o | stgOff32 o | ldsOff32 o | stsOff32 o =>
    obtain rfl := words_eq henc
    rw [decodeS, opcode_encSMX]
    exact decSM_encSMX _ _ _ hwf
  | ldf o | ste o | ldff o =>
    obtain rfl := words_eq henc
    rw [decodeS, opcode_encSF]
    exact decSF_encSF _ _ _ o
  | ldfOff32 o | steOff32 o | ldffOff32 o =>
    obtain rfl := words_eq henc
    rw [decodeS, opcode_encSFX]
    exact decSF_encSFX _ _ _ o
  | atom o | atomg o | radd o =>
    obtain rfl := words_eq henc
    rw [decodeS, opcode_encSA]
    exact decAtom_encSA _ _ _ hwf
  | br o | call o =>
    obtain rfl := words_eq henc
    rw [decodeS, opcode_encSB]
    exact decSB_encSB _ _ hwf
  | jr ba a g =>
    obtain rfl := words_eq henc
    rw [decodeS, opcode_jr]
    exact decJr_word ba a hwf
  | loop o =>
    obtain rfl := words_eq henc
    rw [decodeS, opcode_encSL]
    exact decLoop_encSL _ hwf
  | launch d ba a g =>
    obtain rfl := words_eq henc
    rw [decodeS, opcode_launch]
    exact decLaunch_word d ba a hwf
  | nop | halt | trap n | eret t | ctrpost a c | qcfg a q | qreset q | qsplice a q | qaccept a q | qunsplice q
  | qocc d q | qrd d q | qwr a q | ldlay a l | stlay a l | rtset a e | rtclr e | rtwm d e | chstat d a n =>
    obtain rfl := words_eq henc
    rw [decodeS_encSys, decSys, sub_encSys]
    exact sysBody_eq_ok (by simp) rfl (by simp)
  | sysr d f | sysw a f =>
    obtain rfl := words_eq henc
    rw [decodeS_encSys, decSys, sub_encSys]
    exact sysBody_eq_ok (by simp) (by simpa using (show sysRegOk ctl f = true from hwf)) (by simp)
  | lset a l f | lget a l f =>
    obtain rfl := words_eq henc
    rw [decodeS_encSys, decSys, sub_encSys]
    exact sysBody_eq_ok (by simp) (by simpa using (show layFieldOk f = true from hwf)) (by simp)
  | ctrinit a m c =>
    obtain rfl := words_eq henc
    rw [decodeS_encSys, decSys, sub_encSys]
    exact sysBody_eq_ok (by simp) (by simpa using (show (!(ctl && m)) = true from hwf)) (by simp)
  | pand d a b | por d a b | pxor d a b =>
    obtain rfl := words_eq henc
    rw [decodeS_encSys, decSys, sub_encSys]
    exact sysBody_eq_ok (by simp) (by simpa using (show (predOk d && predOk a && decide (b.toNat < 24)) = true from hwf)) (by simp)
  | pnot d a =>
    obtain rfl := words_eq henc
    rw [decodeS_encSys, decSys, sub_encSys]
    exact sysBody_eq_ok (by simp) (by simpa using (show (predOk d && predOk a) = true from hwf)) (by simp)
  | pmovs d a =>
    obtain rfl := words_eq henc
    rw [decodeS_encSys, decSys, sub_encSys]
    exact sysBody_eq_ok (by simp) (by simpa using (show predOk a = true from hwf)) (by simp)
  | pmovp d a | pseta d a =>
    obtain rfl := words_eq henc
    rw [decodeS_encSys, decSys, sub_encSys]
    exact sysBody_eq_ok (by simp) (by simpa using (show predOk d = true from hwf)) (by simp)
  | fence r c =>
    obtain rfl := words_eq henc
    rw [decodeS_encSys, decSys, sub_encSys]
    exact sysBody_eq_ok (by simp) (by simpa [extractLsb'_add _ 0 1 1] using fence_bits_ne_zero hwf) (by simp)
  | waitc b c =>
    obtain rfl := words_eq henc
    rw [decodeS_encSys, decSys, sub_encSys]
    change (if BitVec.getLsbD _ 7 = true then _ else _) = _
    rw [if_neg (by simp)]
    exact sysBody_eq_ok (by simp) rfl (by simp)
  | waitcPoll d c =>
    obtain rfl := words_eq henc
    rw [decodeS_encSys, decSys, sub_encSys]
    change (if BitVec.getLsbD _ 7 = true then _ else _) = _
    rw [if_pos (by simp)]
    exact sysBody_eq_ok (by simp) rfl (by simp)
  | sync =>
    obtain rfl := words_eq henc
    obtain rfl : ctl = false := by simpa using (show (!ctl) = true from hwf)
    rfl
  | chopen d a | fencerec d a | peelpost d a | chclose d a f | knbind d a h | kndict d a h | wqtake d a y w | knload d a n h | knunbind d a x h =>
    obtain rfl := words_eq henc
    obtain rfl : ctl = true := hwf
    rw [decodeS_encSys, decSys, sub_encSys]
    exact sysBody_eq_ok (by simp) rfl (by simp)
  | _ => cases henc

/-! ## The vector, matrix and copy classes (R86) -/

/-- The vector and matrix classes exist on tile cores only. -/
theorem tile_and {ctl b : Bool} (h : (!ctl && b) = true) : ctl = false ∧ b = true := by
  simpa using h

theorem decodeOp_vector {i : Instr} {ctl : Bool} {p : W32 × Option W32} (hwf : i.wf ctl = true) (henc : encode i = some (1, p)) :
    decodeOp ctl 1 p.1 p.2 = .ok i := by
  cases i with
  | vadd o | vsub o | vmul o | vmin o | vmax o | viadd o | visub o | vimul o | vimin o | vimax o | vand o | vor o | vxor o | vshl o | vshr o
  | vsar o | viadds o | vsel o | vshuf o =>
    obtain rfl := words_eq henc
    obtain ⟨rfl, hg⟩ := tile_and hwf
    change decodeV false _ _ = _
    rw [decodeV, opcode_encVT]
    exact decVT_encVT _ _ hg
  | vfma o c | vfms o c =>
    obtain rfl := words_eq henc
    obtain ⟨rfl, hg⟩ := tile_and hwf
    change decodeV false _ _ = _
    rw [decodeV, opcode_encVF]
    exact decVF_encVF _ _ c hg
  | vabs o | vneg o | vrcp o | vrsq o | vexp2 o | vlog2 o | vsig o | vtanh o | vrsum o | vrmax o | vrmin o =>
    obtain rfl := words_eq henc
    obtain ⟨rfl, hg⟩ := tile_and hwf
    change decodeV false _ _ = _
    rw [decodeV, opcode_encVU]
    exact decVU_encVU _ _ hg
  | vmov o | vcvtz o | vpack o | vunpk o =>
    obtain rfl := words_eq henc
    obtain ⟨rfl, hg⟩ := tile_and hwf
    change decodeV false _ _ = _
    rw [decodeV, opcode_encVC]
    exact decVC_encVC _ _ hg
  | vbcast o | viota o | vlds o | vracc o =>
    obtain rfl := words_eq henc
    obtain ⟨rfl, hg⟩ := tile_and hwf
    change decodeV false _ _ = _
    rw [decodeV, opcode_encVN]
    exact decVN_encVN _ _ hg
  | vrot o | vgath o | vscat o =>
    obtain rfl := words_eq henc
    obtain ⟨rfl, hg⟩ := tile_and hwf
    change decodeV false _ _ = _
    rw [decodeV, opcode_encVS]
    exact decVS_encVS _ _ hg
  | vsts o | vwacc o =>
    obtain rfl := words_eq henc
    obtain ⟨rfl, hg⟩ := tile_and hwf
    change decodeV false _ _ = _
    rw [decodeV, opcode_encVW]
    exact decVW_encVW _ _ hg
  | vcmpeq p a b | vcmplt p a b | vcmple p a b =>
    obtain rfl := words_eq henc
    obtain ⟨rfl, hg⟩ := tile_and hwf
    change decodeV false _ _ = _
    rw [decodeV, opcode_encVP]
    exact decVP_encVP _ _ a b (of_decide_eq_true hg)
  | _ => cases henc

theorem decodeOp_matrix {i : Instr} {ctl : Bool} {p : W32 × Option W32} (hwf : i.wf ctl = true) (henc : encode i = some (2, p)) :
    decodeOp ctl 2 p.1 p.2 = .ok i := by
  cases i with
  | mldb | mmul | mmac | mzero | msetx | mscl | mrdout | mcvt | mreq | mtrn =>
    obtain rfl := words_eq henc
    obtain rfl : ctl = false := by simpa using (show (!ctl) = true from hwf)
    simp [decodeOp, decodeM, decQ, encQ]
  | mldbw _ _ _ _ _ | macccp _ _ _ =>
    obtain rfl := words_eq henc
    obtain ⟨rfl, hop⟩ := tile_and hwf
    simp [decodeOp, decodeM, hop]
  | _ => cases henc

/-- The decoder reads every class number from 3 up as the copy class. -/
theorem decodeOp_copy {i : Instr} {ctl : Bool} {n : Nat} {p : W32 × Option W32} (hwf : i.wf ctl = true) (henc : encode i = some (n + 3, p)) :
    decodeOp ctl (n + 3) p.1 p.2 = .ok i := by
  change decodeC ctl p.1 p.2 = .ok i
  rw [decodeC]
  cases i with
  | cldq o | cstq o | ccpy o | cred o | crwr o =>
    obtain rfl := words_eq henc
    rw [opcode_encCQ]
    exact decCQ_encCQ _ _ hwf
  | clds o | csts o | cpref o | cbcast o | czero o =>
    obtain rfl := words_eq henc
    rw [opcode_encCN]
    exact decCN_encCN _ _ hwf
  | cws o =>
    obtain rfl := words_eq henc
    rw [opcode_encCN]
    exact decCws_encCN _ hwf
  | chwr l q s rel sg =>
    obtain rfl := words_eq henc
    rw [opcode_chwr]
    exact decChwr_word l q s rel sg
  | chrd l q s acq sg =>
    obtain rfl := words_eq henc
    rw [opcode_chrd]
    exact decChrd_word l q s acq sg
  | cfred l q s c rel np sg =>
    obtain rfl := words_eq henc
    rw [opcode_cfred]
    exact decCfred_word l q s rel sg hwf
  | _ => cases henc

/-- Decoding an encoded op gives it back, of every class and on both kinds of core (R84). -/
theorem decodeOp_of_encode {i : Instr} {ctl : Bool} (cls : Nat) {p : W32 × Option W32} (hwf : i.wf ctl = true) (henc : encode i = some (cls, p)) :
    decodeOp ctl cls p.1 p.2 = .ok i :=
  match cls with
  | 0 => decodeOp_scalar hwf henc
  | 1 => decodeOp_vector hwf henc
  | 2 => decodeOp_matrix hwf henc
  | _ + 3 => decodeOp_copy hwf henc

/-! ## Cell words (R341, R343) -/

theorem opcode_encCellWord {op : Nat} (hop : op ≤ 0x19) (f : CellWord) :
    ((encCellWord (BitVec.ofNat 6 op) f).extractLsb' 58 6).toNat = op := by
  have hmod : op % 64 = op := Nat.mod_eq_of_lt (by omega)
  simp [encCellWord, hmod]

theorem reserved_encCellWord (op : BitVec 6) (f : CellWord) : (encCellWord op f).extractLsb' 16 13 = 0#13 := by simp [encCellWord]
theorem decCellFields_encCellWord (op : BitVec 6) (f : CellWord) : decCellFields (encCellWord op f) = f := by simp [decCellFields, encCellWord]

/-- A cell op is named by an opcode up to 0x19, which its word holds, and its limits are that opcode's. -/
theorem cellInstr_some {at_ : CellLoc} {op : Nat} {f : CellWord} {i : Instr} (h : cellInstr at_ op f = some i) :
    op ≤ 0x19 ∧ i.wf false = cellWf op f ∧ encodeCell i = some (encCellWord (BitVec.ofNat 6 op) f) := by
  unfold cellInstr at h
  split at h
  case h_27 => cases h
  all_goals
    obtain rfl := Option.some.inj h
    exact ⟨by decide, rfl, rfl⟩

theorem cellInstr_of_gt {at_ : CellLoc} {op : Nat} {f : CellWord} (h : 0x19 < op) : cellInstr at_ op f = none := by
  cases hi : cellInstr at_ op f with
  | none => rfl
  | some i => exact absurd (cellInstr_some hi).1 (Nat.not_le.mpr h)

/-- A NOP's word is zero: it reads and gives nothing, and its limits leave no field set. -/
theorem encCellWord_nop {f : CellWord} (h : cellWf 0 f = true) : encCellWord 0#6 f = 0#64 := by
  obtain ⟨oe, re, regd, sa, sb, sc, tag, tkeep, w, mode, immh, imm⟩ := f
  simp [cellWf, cellReads, cellArity, cellWidthOk, cellModeOk] at h
  obtain ⟨⟨⟨⟨⟨⟨⟨⟨⟨⟨⟨rfl, rfl⟩, -⟩, -⟩, -⟩, rfl⟩, rfl⟩, rfl⟩, hregd⟩, htag⟩, -⟩, ⟨⟨rfl, rfl⟩, rfl⟩, rfl⟩ := h
  obtain rfl : regd = 0#3 := by simpa using hregd
  obtain ⟨rfl, rfl⟩ : tag = 0#4 ∧ tkeep = false := by simpa using htag
  rfl

/-- The limits of a cell op are what its word is checked for. -/
theorem cellWordOk_encCellWord {op : Nat} {f : CellWord} (hop : op ≤ 0x19) (h : cellWf op f = true) :
    cellWordOk (encCellWord (BitVec.ofNat 6 op) f) = true := by
  have zero : op ≠ 0 ∨ encCellWord (BitVec.ofNat 6 op) f = 0#64 := by
    rcases Nat.eq_zero_or_pos op with rfl | hpos
    · exact .inr (encCellWord_nop h)
    · exact .inl (Nat.ne_of_gt hpos)
  simp only [cellWf, Bool.and_eq_true] at h
  obtain ⟨limits, -⟩ := h
  simpa [cellWordOk, opcode_encCellWord hop, decCellFields_encCellWord, reserved_encCellWord, hop, zero] using limits

theorem decodeCell_of_encode {at_ : CellLoc} {op : Nat} {f : CellWord} {i : Instr} {w : W64} (hi : cellInstr at_ op f = some i)
    (hwf : i.wf false = true) (henc : encodeCell i = some w) : decodeCell at_ w = some i := by
  obtain ⟨hop, limits, word⟩ := cellInstr_some hi
  obtain rfl : encCellWord (BitVec.ofNat 6 op) f = w := Option.some.inj (word ▸ henc)
  rw [decodeCell, if_pos (cellWordOk_encCellWord hop (limits ▸ hwf)), opcode_encCellWord hop, decCellFields_encCellWord, hi]

/-! ## Words that are refused -/

/-- A reserved bit of a cell word (R341). -/
theorem decodeCell_of_reserved (at_ : CellLoc) {w : W64} (h : w.extractLsb' 16 13 ≠ 0#13) : decodeCell at_ w = none := by
  simp [decodeCell, cellWordOk, h]

/-- A cell word whose opcode no op has (R343). -/
theorem decodeCell_of_gt (at_ : CellLoc) {w : W64} (h : 0x19 < (w.extractLsb' 58 6).toNat) : decodeCell at_ w = none := by
  rw [decodeCell, cellInstr_of_gt h, ite_self]

/-- A format S.R word with a guard that names no predicate (R80). -/
theorem decSR_of_guard (c : SR → Instr) {w : W32} (x : Option W32) (h : guardOk (w.extractLsb' 1 5) = false) : decSR c w x = .error 0x04 := by
  rw [decSR, h]
  rfl

theorem decodeOp_guard24 (ctl : Bool) {w : W32} (x : Option W32) (hop : w.extractLsb' 26 6 = 0x02#6 ∨ w.extractLsb' 26 6 = 0x01#6)
    (hg : w.extractLsb' 1 5 = 24#5) : decodeOp ctl 0 w x = .error 0x04 := by
  have guard : guardOk (w.extractLsb' 1 5) = false := hg ▸ rfl
  change decodeS ctl w x = _
  rw [decodeS]
  rcases hop with hop | hop <;> rw [hop]
  · exact decSR_of_guard .sub x guard
  · exact decSR_of_guard .add x guard

theorem decodeOp_control (w : W32) (x : Option W32) {cls : Nat} (h : cls = 1 ∨ cls = 2) : decodeOp true cls w x = .error 0x02 := by
  rcases h with rfl | rfl <;> rfl

/-- Settles O56: each format's decoder undoes its encoder and each opcode leads to its format; refused words fail a check of theirs. -/
theorem decodeEncode : Obligations.DecodeEncode := by
  unfold Obligations.DecodeEncode
  exact ⟨⟨fun ctl w x hop hg => ⟨0x04, decodeOp_guard24 ctl x hop hg⟩, fun w x cls => decodeOp_control w x,
    fun at_ w => decodeCell_of_reserved at_, fun at_ w => decodeCell_of_gt at_⟩,
    fun ctl i cls w x => decodeOp_of_encode cls, fun at_ op f i w => decodeCell_of_encode⟩

/-! ## Words written out -/

/-- A row of one word that the scalar class of a tile core takes. -/
theorem decodeTableWord_of_word {w : Nat} {i : Instr} (h : decodeOp false 0 (BitVec.ofNat 32 w) none = .ok i) : decodeTableWord 32 w = some i := by
  simp [decodeTableWord, tableClass, classOf, h]

/-- A row of an op word with its extension above it. -/
theorem decodeTableWord_of_extended {w : Nat} {i : Instr}
    (h : decodeOp false 0 (BitVec.ofNat 32 w) (some (BitVec.ofNat 32 (w / 2 ^ 32))) = .ok i) : decodeTableWord 64 w = some i := by
  simp only [decodeTableWord, tableClass, classOf, h]
  rfl

/-- Settles O55: each word is the tile core's scalar class's, whose decoder is evaluated on it. -/
theorem decodeWords : Obligations.DecodeWords := by
  unfold Obligations.DecodeWords
  have word {w : Nat} {i : Instr} := decodeTableWord_of_word (w := w) (i := i)
  have extended {w : Nat} {i : Instr} := decodeTableWord_of_extended (w := w) (i := i)
  exact ⟨word rfl, word rfl, extended rfl, word rfl, word rfl, word rfl, word rfl, word rfl, word rfl, extended rfl, word rfl⟩

end Sys2Proof
